-- ==== Sys2Proof/Word.lean ====
section
/-! DEFINITION. Word.lean: the plain data types every other file speaks in: bytes, the two lines, a pair kept per
line, and the sparse map in canonical form that memories, counters and parameter tables are kept in. -/
namespace Sys2Proof

/-- One byte (R4: every multi-byte field is a little-endian run of these). -/
abbrev Byte := BitVec 8

/-- A byte string, lowest address first. -/
abbrev Bytes := List Byte

/-- The two carriers, Line A and Line B (R21). -/
inductive Line
  | a
  | b
deriving DecidableEq, Repr

/-- A direction: transmit or receive (of a carrier), toward or from the line. -/
inductive Dir
  | tx
  | rx
deriving DecidableEq, Repr

/-- The two paths by which the host reaches the registers (R448): PCIe and the SPI management port. -/
inductive Path
  | pcie
  | spi
deriving DecidableEq, Repr

/-- One value per line (R21: what exists once per carrier exists as two instances). -/
structure Pair (α : Type) where
  a : α
  b : α
deriving DecidableEq, Repr

/-- A sparse map: strictly rising keys, no entry equal to what an unlisted key reads as. -/
abbrev SMap (α : Type) := List (Nat × α)

end Sys2Proof
end

