-- ==== Sys2Proof/Syntax.lean ====
section
/-! DEFINITION. Syntax.lean: the commands the block takes, one constructor of `Instr` for each row of the spec's table
of operations and events, with the operands that each carries from outside. What the device itself computes is
never an operand: an operand is what the host writes, what a link, pin, sensor or flash brings, or which of several
like units an event concerns. -/
namespace Sys2Proof

/-- A command packet as the device has read it (R75): the 64-byte header field by field, reserved fields included,
and the bytes of the parameter buffer the pointer named (R76; empty with inline parameters). `q` is the queue it came
through, 8 for the SPI mailbox (R77). The opcode is fixed by the constructor that carries the packet. -/
structure Packet where
  q : Fin 9
  latePolicy : Bool := false
  allowHit : Bool := false
  paramInline : Bool := true
  crcPresent : Bool := false
  flagsRsvd : BitVec 12 := 0
  tag : BitVec 12 := 0
  tagRsvd : BitVec 4 := 0
  seq : BitVec 16 := 0
  atTick : BitVec 64 := 0
  paramLen : BitVec 13 := 0
  lenRsvd : BitVec 3 := 0
  carrier : BitVec 2 := 0
  carRsvd : BitVec 14 := 0
  reqCfgVer : BitVec 32 := 0
  params : BitVec 256 := 0
  rsvd56 : BitVec 32 := 0
  crc : BitVec 32 := 0
  buf : Bytes := []
deriving DecidableEq, Repr

/-- The width of one bus access (R508). -/
inductive AccSize
  | b8
  | b16
  | b32
  | b64
deriving DecidableEq, Repr

/-- What one register write brings on the bus: the value, and the bits of the written word that the hardware sets in the very
CORE cycle in which the write would clear them (R19). -/
structure BusWrite where
  value : BitVec 64 := 0
  met : BitVec 64 := 0
deriving DecidableEq, Repr

/-- What a host-memory read that the device makes on its own brings (R82, R433): the data, none when the retry has failed too; whether
the first read's completion arrives after the retry has been issued. -/
structure HostRead (α : Type) where
  value : Option α := none
  late : Bool := false
deriving DecidableEq, Repr

/-- What the references bring in one tick (R341, R344): for each of references 0 to 7 the frequency against XO_IN in 0.001 ppm
(none with 4 consecutive edges missing); for each of REFIN0 to REFIN3 the time of a rising edge within the tick in ps; the phase
of the timescale against the selected reference in ps where neither a 1PPS edge nor the host's measurement gives it. -/
structure TmIn where
  refFreq : List (Option Int) := []
  edges : List (Option Nat) := []
  phaseErr : Option Int := none
deriving DecidableEq, Repr

/-- What a carrier's receive DSP makes of the light in one tick (R138 to R157): the ADC codes of its four lanes; what its
estimators, whose algorithms the specification leaves to the device, find: input power by lane in 0.1 dBFS, the strength of the
symbol-clock tone, whether the constant-modulus cost is below its limit, pilot SNR in 0.01 dB, divergence and lost convergence,
saturated ADC samples, the residual estimates of an epoch, the other measures by PID and instance. -/
structure RxIn where
  adc : List (List Int) := []
  powers : List Int := []
  tone : Nat := 0
  cmaOk : Bool := false
  snr : Int := 0
  diverged : Bool := false
  convLost : Bool := false
  satAdc : Nat := 0
  cdResidual : Int := 0
  feResidual : List (Nat × Int) := []
  measures : List (Nat × Int) := []
deriving DecidableEq, Repr

/-- What a client's lanes bring in one tick (R225, R361): for each RX lane, from its first, the 10-bit symbols its clock recovery
gives; and the offset of the HREFCLK of its TX lanes from the nominal rate of XO_IN, in units of 10^-12. -/
structure CliIn where
  lanes : List (List Nat) := []
  href : Int := 0
deriving DecidableEq, Repr

/-- What a carrier's Whisper envelope detector brings in one tick (R296): its samples after the range gain, and the far clock's
offset. -/
structure WhIn where
  samples : List Nat := []
  clockOff : Int := 0
deriving DecidableEq, Repr

/-- A received line frame as the decoder hands it on (R189, R192): the 256 overhead bytes, for each slot its payload and
tag as sent, the information fill. -/
structure LineIn where
  oh : Bytes := []
  slots : List (Bytes × Bytes) := []
  fill : Bytes := []
deriving DecidableEq, Repr

/-- What a carrier's transmit pipeline reports of one tick: the slots whose data did not reach the framer in time (R24). -/
structure TxIn where
  late : BitVec 24 := 0
deriving DecidableEq, Repr

/-- What a calibration finds of one slice (R369, R371, R373): the four trims that cancel its error (offset, gain, skew,
bandwidth), or none when its output is stuck or no trim can correct it. -/
abbrev SliceCal := Option (Vector Int 4)

/-- What the three telemetry reads of one regulator bring (R472): volts, amperes and temperature, in mV, mA and °C, how
many attempts failed, and whether the third did. -/
structure RailIn where
  mv : Nat := 0
  ma : Nat := 0
  temp : Int := 0
  retries : Nat := 0
  failed : Bool := false
deriving DecidableEq, Repr

/-- What a tick brings from outside: for the references and the loop, the receivers, the transmit pipelines, the clients'
lanes (by client), the Whisper detectors; bit errors that have arisen in the Store (codeword, how many); the engines whose
device runs overran their budget; engines and decoder cores whose self-test failed. -/
structure TickIn where
  tm : TmIn := {}
  rxA : RxIn := {}
  rxB : RxIn := {}
  txA : TxIn := {}
  txB : TxIn := {}
  cli : List CliIn := []
  whA : WhIn := {}
  whB : WhIn := {}
  storeErrs : List (Nat × Nat) := []
  overruns : List Nat := []
  engFails : List Nat := []
  coreFails : List Nat := []
deriving DecidableEq, Repr
/-- The commands: one constructor per row of the table of operations and events. -/
inductive Instr
  /-- NOP (R96): Completes OK at once, or at its tick when timed. -/
  | nop (op : BitVec 16) (p : Packet)
  /-- IDENTIFY (R96): Returns part number, revisions, die ID and versions. -/
  | identify (p : Packet)
  /-- STATE_GET (R96): Returns power state, SYS_STATE byte, in-flight counts and session information inline. -/
  | stateGet (p : Packet)
  /-- SESSION_OPEN (R87): Opens a session on the issuing queue or the SPI mailbox. -/
  | sessionOpen (p : Packet)
  /-- SESSION_CLOSE (R88): Ends the session, discarding its shadow, PREPARED Solstices, expert access and update sequence. -/
  | sessionClose (p : Packet)
  /-- EXPERT_ENABLE (R89): Grants or withdraws expert access for the session. -/
  | expertEnable (p : Packet)
  /-- PARAM_GET (R98): Returns value records of the named PIDs from the active view or the open shadow. -/
  | paramGet (p : Packet)
  /-- PARAM_SET (R98): Checks all records and then writes them into the session's open shadow. -/
  | paramSet (p : Packet)
  /-- COMMIT (R45): Seals the open shadow into a commit set bound to an execution tick. -/
  | commit (p : Packet)
  /-- SOLSTICE_PREPARE (R60): Seals the open shadow into a validated Solstice and returns handle, class and earliest tick. -/
  | solsticePrepare (p : Packet)
  /-- SOLSTICE_ARM (R61): Arms a PREPARED Solstice for a tick, taking a timed-action entry. -/
  | solsticeArm (p : Packet)
  /-- SOLSTICE_CANCEL (R61): Cancels a PREPARED or not yet frozen ARMED Solstice and frees its handle. -/
  | solsticeCancel (p : Packet)
  /-- TIMED_LIST (R54): Lists timed-action entries in execution order, or removes one named entry. -/
  | timedList (p : Packet)
  /-- FW_UPDATE (R99): Writes a firmware image chunk into the inactive flash slot and checks the image on the last chunk. -/
  | fwUpdate (p : Packet) (chunk : Bytes)
  /-- FW_ACTIVATE (R100): Makes the valid inactive firmware slot the boot slot, optionally restarting the firmware now. -/
  | fwActivate (p : Packet)
  /-- FLASH_STATUS (R96): Returns the flash slot, record and last-error status. -/
  | flashStatus (p : Packet)
  /-- ENTRY_FREEZE (R53): At its freeze tick a timed entry is frozen and revalidated, or removed with the failing status. -/
  | entryFreeze
  /-- TIMED_ACTION_EXECUTE (R48): In the commit window of its tick a commit set, timed command or Solstice is applied and its completion follows. -/
  | timedActionExecute
  /-- COMMAND_DEADLINE (R91): A command reaching its device deadline completes with TIMEOUT_INTERNAL and its retries are cancelled. -/
  | commandDeadline (q : Fin 9) (tag : BitVec 12) (seq : BitVec 16)
  /-- LATE_RESULT (R91): A result arriving after its command's deadline is discarded and counted. -/
  | lateResult (q : Fin 9) (tag : BitVec 12) (seq : BitVec 16)
  /-- PCIE_READ_TIMEOUT (R82): A device PCIe read of an SQ entry or parameter buffer times out and is retried, or fails after the retry. -/
  | pcieReadTimeout (q : Fin 8) (hdr : Option (BitVec 16 × Packet)) (again : Bool)
  /-- PCIE_LATE_CPL (R82): A first read completion arriving after its retry is discarded. -/
  | pcieLateCpl (q : Fin 8)
  /-- CQ_COMPLETION_WRITE (R71): A held completion is written once the host frees a CQ entry. -/
  | cqCompletionWrite (q : Fin 8)
  /-- COAL_TIME_EXPIRY (R518): COAL_TIME after the first unsignalled completion the queue's MSI-X vector is signalled. -/
  | coalTimeExpiry (q : Fin 8)
  /-- WATCHDOG_EXPIRY (R32): A core missing its heartbeat for 100 ms restarts the Laelnus firmware. -/
  | watchdogExpiry (core : Fin 4)
  /-- FW_RESTART_DONE (R56): The restarted firmware runs, writes held completions and resumes fetching. -/
  | fwRestartDone
  /-- FLASH_OP_DONE (R99): A flash write or erase operation ends after up to 3 attempts. -/
  | flashOpDone (ok : Bool)
  /-- SQ_TAIL (R69): A write of the SQ tail doorbell makes new entries available for fetching, or wakes from PARK. -/
  | sqTail (q : Fin 8) (v : BitVec 32)
  /-- CQ_HEAD (R69): A write of the CQ head doorbell frees completion entries. -/
  | cqHead (q : Fin 8) (v : BitVec 32)
  /-- QUEUE_ENABLE (R68): Setting ENABLE checks base and size and enables the queue pair. -/
  | queueEnable (q : Fin 8)
  /-- QUEUE_DISABLE (R73): Clearing ENABLE stops fetching, closes the session and aborts untimed commands silently. -/
  | queueDisable (q : Fin 8)
  /-- Q_CFG (R516): A write sets queue sizes, vector and coalescing, sizes ignored while enabled. -/
  | qCfg (q : Fin 8) (v : BitVec 32)
  /-- STAGING_FIELD_WRITE (R510): A write of a BASE_LO staging field holds its value in the staging latch. -/
  | stagingFieldWrite (q : Fin 8) (cq : Bool) (v : BitVec 32)
  /-- TRIGGER_FIELD_WRITE (R510): A write of a BASE_HI trigger field applies it together with the latched low word. -/
  | triggerFieldWrite (q : Fin 8) (cq : Bool) (v : BitVec 32)
  /-- SYS_LOCK (R514): Writing LOCK locks every RWL field and PID until reset. -/
  | sysLock (v : BitVec 32)
  /-- BOOT_LOAD (R502): A nonzero write in stage 7 starts the check of the staged host-loaded image. -/
  | bootLoad (v : BitVec 32)
  /-- GPIO_OUT (R511): A write of the shadowed GPIO output value is scheduled for tick W plus 8. -/
  | gpioOut (v : BitVec 32)
  /-- SHADOW_APPLY (R47): A shadowed register field written 8 ticks earlier takes effect in the commit window. -/
  | shadowApply
  /-- HARV_HEAD (R515): A write sets the host's next Harvest ring slot, refused when not below S. -/
  | harvHead (v : BitVec 32)
  /-- CNT_LO_READ (R448): A read of a counter's low word latches its high word and SAT for that path. -/
  | cntLoRead (path : Path) (n : Fin 2048)
  /-- TICK_NOW_LO_READ (R514): A read of TICK_NOW_LO latches the high word of the tick number. -/
  | tickNowLoRead (path : Path)
  /-- EVT_MASK (R456): A mask write may unmask set status bits and signal their vectors. -/
  | evtMask (k : Fin 8) (v : BitVec 32)
  /-- EVT_VEC (R456): A vector and enable write may remap set status bits and signal the new vector. -/
  | evtVec (k : Fin 64) (v : BitVec 32)
  /-- REGISTER_WRITE (R17): A write to any other register is applied under its access code or refused. -/
  | registerWrite (addr : BitVec 26) (size : AccSize) (v : BusWrite)
  /-- SPI_WRITE (R94): An SPI 0x02 transaction writes BAR0 or mailbox space at the address. -/
  | spiWrite (addr : BitVec 32) (bytes : Bytes)
  /-- SPI_READ (R94): An SPI 0x0B transaction reads BAR0 or mailbox space, clearing DONE on the completion byte. -/
  | spiRead (addr : BitVec 32) (n : Nat)
  /-- SPI_STATUS_READ (R94): An SPI 0x05 transaction returns the status byte and clears ERR. -/
  | spiStatusRead
  /-- MAILBOX_DOORBELL (R95): A write to the mailbox doorbell submits the mailbox command, or sets ERR when busy. -/
  | mailboxDoorbell
  /-- RESET (R495): RESET_N low for 10 µs resets the whole device and zeroises every key. -/
  | reset
  /-- RESET_RELEASE (R498): The rising edge of RESET_N samples the straps and starts the mask ROM. -/
  | resetRelease (strap : BitVec 2)
  /-- XO_FOUND (R498): The ROM finds XO_IN and proceeds to PLL lock. -/
  | xoFound
  /-- XO_ABSENT (R498): XO_IN not found within 10 ms halts the ROM with XO_ABSENT. -/
  | xoAbsent
  /-- PLL_LOCK (R504): The TIMING, CORE and CPU PLLs lock and tick 0 begins. -/
  | pllLock
  /-- IMAGE_READ_DONE (R501): The firmware image read from a flash slot completes and checking begins. -/
  | imageReadDone (ok : Bool)
  /-- IMAGE_CHECK_DONE (R500): The image check ends: pass starts firmware, fail tries the other slot, waits or halts. -/
  | imageCheckDone
  /-- STANDBY_READY (R504): Firmware, Store, records and self-tests are ready and the device stands in STANDBY. -/
  | standbyReady (engFail : BitVec 256) (coreFail : BitVec 48)
  /-- PERST_N (R497): PERST_N assertion resets the PCIe endpoint, sessions and queue pairs. -/
  | perstN
  /-- PERST_N_DEASSERT (R497): After deassertion the endpoint trains its link within 100 ms. -/
  | perstNDeassert
  /-- PCIE_FUNCTION_RESET (R73): A PCIe function reset disables all queue pairs and returns their registers to reset. -/
  | pcieFunctionReset
  /-- POWER_LOSS (R272): Loss of supply zeroises all volatile keys and state; flash records stand. -/
  | powerLoss
  /-- XO_IN_LOSS (R33): XO_IN absent for 5 edges squelches both transmitters and enters DEVICE_FAULT. -/
  | xoInLoss
  /-- THERMTRIP (R475): At 125 °C THERMTRIP_N asserts and every clock stops until power removal. -/
  | thermtrip
  /-- TJ_READING (R475): The per-epoch junction temperature update raises thermal events. -/
  | tjReading (t : Int)
  /-- ALERT_N (R473): While ALERT_N is low the device polls STATUS_WORD of mapped addresses. -/
  | alertN (faults : BitVec 8)
  /-- GPIO_WAKE_EDGE (R467): An enabled GPIO edge in PARK starts the wake to STANDBY. -/
  | gpioWakeEdge (gpio : Fin 16) (falling : Bool)
  /-- WAKE_DONE (R467): VDD_CORE is restored and STANDBY reached after a wake. -/
  | wakeDone
  /-- PIN_CONTENTION (R478): A push-pull pin reading back wrong for over 1 µs goes Hi-Z. -/
  | pinContention (pin : Fin 19)
  /-- OPEN_DRAIN_STUCK (R479): An open-drain pin reading high for over 1 µs while driven low is reported. -/
  | openDrainStuck (pin : Fin 5)
  /-- TICK (R39): Each tick's commit window applies due sets, grants engines and credits, and the work span processes data. -/
  | tick (x : TickIn)
  /-- EPOCH_BOUNDARY (R408): At each tick number multiple of 500, leases are checked and per-epoch estimates update. -/
  | epochBoundary
  /-- PWR_STATUS (R481): Returns power state, SVC_REQ, temperature and pin status. -/
  | pwrStatus (p : Packet)
  /-- PWR_SET (R463): Starts a permitted power-state move. -/
  | pwrSet (p : Packet)
  /-- PWR_TRANSITION_DONE (R463): A power-state move completes or fails after its latency. -/
  | pwrTransitionDone (failed : Option (Fin 8))
  /-- PWR_GATE (R470): Requests gating or ungating of engine clusters and decoder cores. -/
  | pwrGate (p : Packet)
  /-- GATING_APPLY (R470): Eight ticks after acceptance the gating takes effect and PWR_GATE completes. -/
  | gatingApply
  /-- PIN_REARM (R478): Drives named Hi-Z pins again with their present values. -/
  | pinRearm (p : Packet)
  /-- PMBUS_XFER (R474): Runs a host PMBus transaction to an unmapped address. -/
  | pmbusXfer (p : Packet)
  /-- PMBUS_TRANSACTION_DONE (R472): A PMBus transaction ends, or fails after 3 attempts. -/
  | pmbusTransactionDone (fails : Fin 4) (data : Bytes)
  /-- TELEMETRY_READ (R472): Each PWR_TELEMETRY_PERIOD the mapped rails' voltage, current and temperature are read. -/
  | telemetryRead (reads : Vector RailIn 8)
  /-- AVS_STEP (R471): Once per epoch VDD_CORE moves by at most 5 mV toward the monitors' margin. -/
  | avsStep (up : Bool) (down : Bool) (ok : Bool)
  /-- TM_STATUS (R363): Returns the timing subsystem status. -/
  | tmStatus (p : Packet)
  /-- TM_SELECT (R346): Sets the selection mode and manual reference, optionally clearing waits. -/
  | tmSelect (p : Packet)
  /-- TM_PRIORITY (R346): Sets the priorities of the nine references. -/
  | tmPriority (p : Packet)
  /-- TM_STEP (R354): Schedules a whole-tick step of the timescale. -/
  | tmStep (p : Packet)
  /-- TM_PHASE_ADJ (R355): Adds a signed phase amount to the pending adjustment. -/
  | tmPhaseAdj (p : Packet)
  /-- TM_STEER (R356): Reports a PTP offset measurement to steer reference 8. -/
  | tmSteer (p : Packet)
  /-- PPS_ALIGN (R358): Realigns the named PPS outputs to the second boundary from its tick. -/
  | ppsAlign (p : Packet)
  /-- TM_TOD_READ (R363): Returns the latest good received ToD message. -/
  | tmTodRead (p : Packet)
  /-- TM_FORCE_HOLDOVER (R350): Forces the PLL into holdover or releases it. -/
  | tmForceHoldover (p : Packet)
  /-- REF_QUALIFY (R344): A reference meeting its condition for TM_QUAL_TIME becomes qualified. -/
  | refQualify (r : Fin 9)
  /-- REF_DISQUALIFY (R344): A reference failing its condition, or PTP without a steer for TM_PTP_TIMEOUT, is disqualified. -/
  | refDisqualify (r : Fin 9)
  /-- WTR_EXPIRY (R347): A reference's wait-to-restore runs out and it enters the candidates. -/
  | wtrExpiry (r : Fin 9)
  /-- PLL_LOCKED (R349): Phase error within ±100 ns for 10 / bandwidth seconds moves the PLL to LOCKED. -/
  | pllLocked
  /-- PHASE_ADJ_COMPLETE (R355): The pending phase adjustment is used up. -/
  | phaseAdjComplete
  /-- PPS_EDGE (R357): Each second an enabled PPS output gives its edge. -/
  | ppsEdge (o : Fin 2)
  /-- TOD_TX_MESSAGE (R359): Each second a 16-byte ToD message is sent 10 ms after the boundary. -/
  | todTxMessage
  /-- TOD_RX_MESSAGE (R360): A received ToD message is timestamped and kept when good. -/
  | todRxMessage (bytes : Bytes)
  /-- TX_STATUS (R130): Returns the carrier's transmit status. -/
  | txStatus (p : Packet)
  /-- TX_MODE_PRESET (R130): Writes a preset mode's values into the open shadow. -/
  | txModePreset (p : Packet)
  /-- TX_CAPACITY (R130): Computes the capacity of a stated mode without changing anything. -/
  | txCapacity (p : Packet)
  /-- CONVERTER_RETUNE_DONE (R67): Converters finish retuning after a symbol-rate change and the squelch is released. -/
  | converterRetuneDone (c : Line)
  /-- AUTOMATIC_SWITCH (R265): A scheduled automatic key switch is announced and applied at its multiframe boundary. -/
  | automaticSwitch (c : Line)
  /-- RX_STATUS (R162): Returns the receiver state and mode. -/
  | rxStatus (p : Packet)
  /-- RX_ACQUIRE (R153): Forces a fast or full receiver acquisition at its tick. -/
  | rxAcquire (p : Packet)
  /-- RX_MEASURE (R162): Returns the receive measures. -/
  | rxMeasure (p : Packet)
  /-- RX_TAP_DUMP (R162): Returns the MIMO equaliser taps. -/
  | rxTapDump (p : Packet)
  /-- RX_CAPTURE (R162): Captures samples or symbols at a chosen point. -/
  | rxCapture (p : Packet)
  /-- SIGNAL_PRESENT (R153): Input power at threshold for 8 ticks moves SIGNAL to TIMING or CD_SCAN. -/
  | signalPresent (c : Line)
  /-- SIGNAL_LOST (R153): Input power below threshold for 8 ticks returns the receiver to SIGNAL. -/
  | signalLost (c : Line)
  /-- CD_SCAN_DONE (R140): The last CD candidate is scored and the receiver enters TIMING. -/
  | cdScanDone (c : Line) (coarse : Int) (best : Vector Int 3)
  /-- TIMING_LOCKED (R142): Timing error variance below limit for 64 ticks moves the receiver to EQUALISE. -/
  | timingLocked (c : Line)
  /-- EQUALISER_CONVERGED (R153): Constant-modulus cost below limit for 64 ticks moves the receiver to PILOT. -/
  | equaliserConverged (c : Line)
  /-- TIMING_TIMEOUT (R153): 5,000 ticks in TIMING tries the next CD candidate or rescans. -/
  | timingTimeout (c : Line)
  /-- EQUALISE_TIMEOUT (R153): 15,000 ticks in EQUALISE tries the next CD candidate or rescans. -/
  | equaliseTimeout (c : Line)
  /-- ACQUISITION_TIMEOUT (R153): The acquisition timer reaching RX_ACQ_TIMEOUT starts a fresh scan. -/
  | acquisitionTimeout (c : Line)
  /-- FAS_LOCK (R153): The alignment sequence found at one position in 3 ticks moves the receiver to TRACKING. -/
  | fasLock (c : Line)
  /-- LOCK_LOSS (R153): Low pilot SNR for RX_LOCK_TICKS, frequency out of range or divergence leaves TRACKING. -/
  | lockLoss (c : Line)
  /-- MODE_REVERT_TIMEOUT (R137): 256 frames without a converged codeword revert the receive mode to RX_EXPECT. -/
  | modeRevertTimeout (c : Line)
  /-- FEC_STATUS (R185): Returns the carrier's decoder credit status. -/
  | fecStatus (p : Packet)
  /-- FEC_POOL (R185): Returns the decoder pool status. -/
  | fecPool (p : Packet)
  /-- FEC_CORE_TEST (R185): Runs the decoder core self-test on a named core. -/
  | fecCoreTest (p : Packet)
  /-- DECODE_END (R171): A codeword's decoding ends with one outcome after drawing its iterations. -/
  | decodeEnd (c : Line) (frame : Fin 4) (cw : Fin 256)
  /-- REDECODE_START (R172): A failed codeword is re-decoded once a core is free. -/
  | redecodeStart (c : Line) (cw : Fin 1024)
  /-- CODEWORD_RELEASE (R173): 6,000 cycles after its last LLR a codeword leaves the pool, cutting any decoding still running. -/
  | codewordRelease (c : Line) (cw : Fin 1024)
  /-- CORE_SELF_TEST (R181): Each epoch every active core decodes a test codeword and a failing core is disabled. -/
  | coreSelfTest (core : Fin 48) (pass : Bool)
  /-- FRM_STATUS (R217): Returns frame, multiframe and defect status. -/
  | frmStatus (p : Packet)
  /-- FRM_GCC_SEND (R217): Queues a host GCC message. -/
  | frmGccSend (p : Packet)
  /-- FRM_GCC_RECV (R217): Removes and returns the oldest received GCC message. -/
  | frmGccRecv (p : Packet)
  /-- FRM_APS_SET (R217): Sets the APS word sent in later frames. -/
  | frmApsSet (p : Packet)
  /-- FRM_OH_CAPTURE (R217): Returns the overhead bytes of the last frame received in IF. -/
  | frmOhCapture (p : Packet)
  /-- LINE_FRAME_RX (R196): A received line frame's overhead, alignment, announcements, parity, tags, defects and slots are processed. -/
  | lineFrameRx (c : Line) (lag : Option (BitVec 32))
  /-- FRAME_ALIGNMENT_GAIN (R198): Three detections one frame apart move the frame state to IF. -/
  | frameAlignmentGain (c : Line)
  /-- FRAME_ALIGNMENT_LOSS (R198): Five consecutive misses move the frame state to OOF. -/
  | frameAlignmentLoss (c : Line)
  /-- LOF_TIMER (R198): 1,500 ticks in OOF set raw dLOF. -/
  | lofTimer (c : Line)
  /-- LOM_TIMER (R199): 1,500 ticks in OOM set raw dLOM. -/
  | lomTimer (c : Line)
  /-- GCC_MESSAGE_RX (R210): A reassembled GCC message is passed on or queued. -/
  | gccMessageRx (c : Line)
  /-- SEQ_END (R213): Sequencer END stops the program. -/
  | seqEnd (c : Line) (d : Dir)
  /-- SEQ_LDI (R213): Sequencer LDI loads a zero-extended immediate. -/
  | seqLdi (c : Line) (d : Dir)
  /-- SEQ_LDH (R213): Sequencer LDH loads the upper half of a register. -/
  | seqLdh (c : Line) (d : Dir)
  /-- SEQ_ADD (R213): Sequencer ADD adds two registers. -/
  | seqAdd (c : Line) (d : Dir)
  /-- SEQ_ADDI (R213): Sequencer ADDI adds a sign-extended immediate. -/
  | seqAddi (c : Line) (d : Dir)
  /-- SEQ_AND (R213): Sequencer AND of two registers. -/
  | seqAnd (c : Line) (d : Dir)
  /-- SEQ_OR (R213): Sequencer OR of two registers. -/
  | seqOr (c : Line) (d : Dir)
  /-- SEQ_XOR (R213): Sequencer XOR of two registers. -/
  | seqXor (c : Line) (d : Dir)
  /-- SEQ_SHL (R213): Sequencer shift left by an immediate. -/
  | seqShl (c : Line) (d : Dir)
  /-- SEQ_SHR (R213): Sequencer shift right by an immediate. -/
  | seqShr (c : Line) (d : Dir)
  /-- SEQ_LDT (R213): Sequencer LDT loads TICKLO, MFC, validity or carrier. -/
  | seqLdt (c : Line) (d : Dir)
  /-- SEQ_LDP (R213): Sequencer LDP loads a host parameter. -/
  | seqLdp (c : Line) (d : Dir)
  /-- SEQ_LDS (R213): Sequencer LDS loads a persistent STATE value. -/
  | seqLds (c : Line) (d : Dir)
  /-- SEQ_STS (R213): Sequencer STS stores a persistent STATE value. -/
  | seqSts (c : Line) (d : Dir)
  /-- SEQ_RDB (R213): Sequencer RDB reads a received SEQ byte. -/
  | seqRdb (c : Line) (d : Dir)
  /-- SEQ_WRB (R213): Sequencer WRB writes a transmitted SEQ byte. -/
  | seqWrb (c : Line) (d : Dir)
  /-- SEQ_CRC8 (R213): Sequencer CRC8 takes one CRC-8 step. -/
  | seqCrc8 (c : Line) (d : Dir)
  /-- SEQ_SKEQ (R213): Sequencer skips words when two registers are equal. -/
  | seqSkeq (c : Line) (d : Dir)
  /-- SEQ_SKNE (R213): Sequencer skips words when two registers differ. -/
  | seqSkne (c : Line) (d : Dir)
  /-- SEQ_SKLT (R213): Sequencer skips words when one register is below another. -/
  | seqSklt (c : Line) (d : Dir)
  /-- SEQ_CNT (R213): Sequencer CNT adds 1 to a sequencer counter. -/
  | seqCnt (c : Line) (d : Dir)
  /-- SEQ_EVT (R213): Sequencer EVT raises SEQ_EVENT with a code. -/
  | seqEvt (c : Line) (d : Dir)
  /-- CLI_STATUS (R251): Returns a client's status. -/
  | cliStatus (p : Packet)
  /-- CLI_TS_READ (R251): Removes and returns timestamp FIFO entries. -/
  | cliTsRead (p : Packet)
  /-- CLIENT_BITSLIP (R238): Moves a slot's candidate block boundary in hunt mode. -/
  | clientBitslip (p : Packet)
  /-- INGRESS_ALIGNMENT (R225): A client's ingress becomes or stops being aligned. -/
  | ingressAlignment (cl : Fin 12) (aligned : Bool)
  /-- LANE_CLOCK_CHANGE (R253): An RX lane loses or regains clock recovery. -/
  | laneClockChange (lane : Fin 32) (ok : Bool)
  /-- LANE_RETUNE_DONE (R247): A changed client's TX lanes run and the fault signal replaces the squelch. -/
  | laneRetuneDone (cl : Fin 12)
  /-- SQUELCH_DELAY_EXPIRY (R242): In fault mode 2 the fault signal lasting CLI_SQUELCH_DELAY squelches the lanes. -/
  | squelchDelayExpiry (cl : Fin 12)
  /-- TS_PACKET (R245): A packet start crossing the balls and matching a filter is timestamped. -/
  | tsPacket (cl : Fin 12) (d : Dir) (ns : Fin 2000) (frac : BitVec 16) (pkt : Bytes)
  /-- CRY_STATUS (R283): Returns the state of the carrier's secure associations. -/
  | cryStatus (p : Packet)
  /-- KEY_INSTALL (R273): Checks and schedules installation of a half's next key. -/
  | keyInstall (p : Packet)
  /-- KEY_INSTALL_APPLY (R273): In its commit window the key is rechecked and installed. -/
  | keyInstallApply
  /-- KEY_SWITCH (R267): Schedules a line-coordinated key switch of named transmit halves. -/
  | keySwitch (p : Packet)
  /-- KEY_ZEROISE (R264): Zeroises named halves' keys at its tick. -/
  | keyZeroise (p : Packet)
  /-- CRY_GCM_TEST (R283): Runs GCM on a host buffer and returns ciphertext and tag. -/
  | cryGcmTest (p : Packet) (src : Bytes)
  /-- KE_START (R274): Starts a key exchange over the GCC. -/
  | keStart (p : Packet)
  /-- KE_STATUS (R283): Returns the key-exchange stage. -/
  | keStatus (p : Packet)
  /-- KE_ABORT (R283): Ends the open exchange and sends ABORT. -/
  | keAbort (p : Packet)
  /-- KE_SECRET_SET (R283): Replaces the agreement secret. -/
  | keSecretSet (p : Packet)
  /-- PK_VERIFY (R280): Verifies an ECDSA P-384 signature. -/
  | pkVerify (p : Packet)
  /-- PK_ECDH (R279): Computes an ECDH shared secret. -/
  | pkEcdh (p : Packet)
  /-- KE_EPOCH_FLOOR (R271): Raises the epoch floor and writes the record. -/
  | keEpochFloor (p : Packet)
  /-- EPOCH_RECORD_WRITTEN (R270): The key-epoch write-ahead ends and waiting installations proceed or fail. -/
  | epochRecordWritten (ok : Bool)
  /-- KEY_USE_LIMIT (R264): A count that would exceed the limit blocks the transmit half. -/
  | keyUseLimit (c : Line) (sa : Fin 26)
  /-- RETIRED_KEY_ZEROISE (R261): A retired receive key is zeroised after 255 frames. -/
  | retiredKeyZeroise (c : Line) (sa : Fin 26)
  /-- RX_KEY_CHECK_LIMIT (R263): A receive key is zeroised after its check limit. -/
  | rxKeyCheckLimit (c : Line) (sa : Fin 26)
  /-- OFFER (R277): A received OFFER is checked and answered by the responder. -/
  | offer (c : Line)
  /-- ANSWER (R277): A received ANSWER is checked and the initiator installs keys and sends CONFIRM. -/
  | answer (c : Line)
  /-- CONFIRM (R277): A received CONFIRM is checked and the responder installs keys and sends DONE. -/
  | confirm (c : Line)
  /-- DONE (R277): A received DONE completes the initiator's exchange. -/
  | done (c : Line)
  /-- ABORT (R278): A received ABORT ends the local exchange with its status. -/
  | abort (c : Line)
  /-- KE_RESEND_EXPIRY (R278): KE_RESEND without reply resends the initiator's message. -/
  | keResendExpiry (c : Line)
  /-- NO_PEER_TIMEOUT (R278): An exchange without a valid peer message in time ends with NO_PEER. -/
  | noPeerTimeout (c : Line)
  /-- PK_OP_DONE (R280): A public-key operation completes after its fixed or bounded time. -/
  | pkOpDone
  /-- DRBG_RESEED (R281): Each epoch the DRBG reseeds from the health-tested entropy source. -/
  | drbgReseed (ok : Bool)
  /-- WH_STATUS (R311): Returns the Whisper channel status. -/
  | whStatus (p : Packet)
  /-- WH_SEND (R311): Queues a host Whisper frame and returns its SEQ. -/
  | whSend (p : Packet)
  /-- WH_RECV (R311): Removes and returns the oldest received host frame. -/
  | whRecv (p : Packet)
  /-- WH_CONFIG (R295): Sets the Whisper mode and depth for the next frame boundary. -/
  | whConfig (p : Packet)
  /-- WH_BANK_SWAP (R298): Schedules a swap of a chain's coefficient banks. -/
  | whBankSwap (p : Packet)
  /-- WH_BANK_SWAP_APPLY (R298): The bank swap takes effect at an output-sample boundary. -/
  | whBankSwapApply (chain : Fin 4)
  /-- WH_CAPTURE (R311): Captures chain, AGC or DFE output samples. -/
  | whCapture (p : Packet)
  /-- WH_FRAME_START (R294): A queued Whisper frame begins at the first usable frame boundary. -/
  | whFrameStart (c : Line)
  /-- WH_FRAME_SENT (R294): The last symbol of a Whisper frame is sent. -/
  | whFrameSent (c : Line)
  /-- WH_SYNC_DETECT (R303): A frame start is detected, Frost freezes the AGC and the DFE trains on the preamble. -/
  | whSyncDetect (c : Line) (diffs : Vector Nat 4)
  /-- WH_HEADER (R304): The received header is checked and a bad frame abandoned. -/
  | whHeader (c : Line) (raw : BitVec 32)
  /-- WH_FRAME_RX (R304): A received Whisper frame ends, its CRC decides delivery, and Frost is released. -/
  | whFrameRx (c : Line) (raw : Bytes)
  /-- WH_LIGHT_CHANGE (R300): Envelope light appears or disappears, retuning the chain when regained. -/
  | whLightChange (c : Line) (present : Bool)
  /-- PILOT_LOCK (R302): Whisper pilot lock is gained or lost from the pilot correlation over 64 pilots. -/
  | pilotLock (c : Line) (locked : Bool)
  /-- DM_STATUS (R337): Returns the domain status. -/
  | dmStatus (p : Packet)
  /-- DM_JOIN (R315): Makes the device a domain member. -/
  | dmJoin (p : Packet)
  /-- DM_LEAVE (R316): Stops beacons, relaying and forwarding. -/
  | dmLeave (p : Packet)
  /-- DM_PUBLISH (R322): Checks a configuration document and writes and adopts it. -/
  | dmPublish (p : Packet)
  /-- DM_CFG_READ (R337): Returns the configuration document held. -/
  | dmCfgRead (p : Packet)
  /-- DM_SEND (R337): Sends a HOST domain message. -/
  | dmSend (p : Packet)
  /-- DM_RECV (R337): Removes and returns the oldest domain queue entry. -/
  | dmRecv (p : Packet)
  /-- DM_CALL (R328): Sends a CALL to every member. -/
  | dmCall (p : Packet)
  /-- DM_CALL_BIND (R328): Binds a PREPARED Solstice to a call, arming it when the call arrives. -/
  | dmCallBind (p : Packet)
  /-- CALL_WAIT_LIMIT (R328): A bind whose call has not arrived by D completes with CALL_NOT_SEEN. -/
  | callWaitLimit
  /-- CFG_REQ (R324): A received request for configuration document parts is answered. -/
  | cfgReq
  /-- CFG_PART (R324): A received document part feeds the running fetch. -/
  | cfgPart
  /-- CALL (R328): A received CALL is delivered, relayed and bound. -/
  | call
  /-- HOST (R320): A received HOST message is delivered or forwarded. -/
  | host
  /-- PROBE (R335): A received mate PROBE is answered and tracked. -/
  | probe
  /-- PROBE_REPLY (R335): A received PROBE_REPLY renews HEARD and GRANT state. -/
  | probeReply
  /-- BEACON (R318): A received Whisper BEACON updates the neighbour's path and versions. -/
  | beacon
  /-- DOMAIN_RECORD_WRITTEN (R323): The domain record write-ahead ends. -/
  | domainRecordWritten (ok : Bool)
  /-- CFG_ADOPT (R323): Eight ticks after the record write the new version is adopted. -/
  | cfgAdopt
  /-- FETCH_TIMEOUT (R324): A document fetch unfinished at DM_FETCH_TIMEOUT is abandoned. -/
  | fetchTimeout
  /-- CFG_SKEW_TIMEOUT (R324): A neighbour showing another version for 30 s raises config skew. -/
  | cfgSkewTimeout (nb : Fin 3)
  /-- EPOCH_GRACE_EXPIRY (R326): A key-epoch difference of one lasting beyond DM_EPOCH_GRACE is reported. -/
  | epochGraceExpiry (c : Line)
  /-- PATH_TIMEOUT (R318): A path goes down when its beacon or frame has not arrived in time. -/
  | pathTimeout (path : Fin 5)
  /-- WHISPER_BEACON_SEND (R318): Every 5 s a BEACON is sent on Whisper while the DCH path is down. -/
  | whisperBeaconSend (c : Line)
  /-- MATE_STATUS (R337): Returns the mate link and role status. -/
  | mateStatus (p : Packet)
  /-- MATE_SWITCH (R334): Requests a switch of the ACTIVE role to the peer. -/
  | mateSwitch (p : Packet)
  /-- MATE_FRAME_RX (R329): A received mate frame brings lanes up and updates peer, seniority and switch state. -/
  | mateFrameRx (lane : Fin 2) (frame : Bytes) (lag : BitVec 32)
  /-- MATE_LANE_DOWN (R330): Five ticks without a valid frame take a lane down. -/
  | mateLaneDown (lane : Fin 2)
  /-- MATE_ACTIVATE (R333): Eight ticks after confirmation the effective senior becomes ACTIVE. -/
  | mateActivate
  /-- MATE_SWITCH_TICK (R334): At T minus 8 an unacknowledged switch is abandoned, or at T the roles change. -/
  | mateSwitchTick
  /-- MATE_AUTO_SWITCH (R334): A peer health fault for 8 ticks starts an automatic switch. -/
  | mateAutoSwitch
  /-- MATE_HOLDOFF_EXPIRY (R335): After MATE_HOLDOFF of link loss probing begins. -/
  | mateHoldoffExpiry
  /-- PROBE_TIMER (R335): Every MATE_PROBE_WINDOW / 8 a PROBE is sent on every enabled path. -/
  | probeTimer
  /-- JUNIOR_LEASE_EXPIRY (R335): An ACTIVE junior whose latest GRANT is Λ old enters STANDBY. -/
  | juniorLeaseExpiry
  /-- SENIOR_TAKEOVER (R335): A confirmed senior unheard from the junior takes ACTIVE after Λ + 1. -/
  | seniorTakeover
  /-- PEER_LOST_TIMEOUT (R335): No HEARD message for MATE_PROBE_WINDOW declares the peer lost. -/
  | peerLostTimeout
  /-- CAL_STATUS (R384): Returns a converter's calibration status. -/
  | calStatus (p : Packet)
  /-- CAL_RUN (R373): Starts background calibration of named converters. -/
  | calRun (p : Packet)
  /-- CAL_STORE (R379): Writes the calibration store. -/
  | calStore (p : Packet)
  /-- CAL_TEST (R370): Enters or leaves the TEST calibration state. -/
  | calTest (p : Packet)
  /-- CAL_TRIM_SET (R375): Ramps a slice's trims to given values in TEST. -/
  | calTrimSet (p : Packet)
  /-- CAL_SPARE_SET (R376): Substitutes the next spare for a position in TEST. -/
  | calSpareSet (p : Packet)
  /-- CAL_DUMP (R384): Returns a converter record with applied trims. -/
  | calDump (p : Packet)
  /-- FOREGROUND_CAL_DONE (R371): BOOT foreground calibration ends and the carrier enters SERVICE or RECOVERY. -/
  | foregroundCalDone (cv : Fin 16) (res : Vector SliceCal 68)
  /-- CAL_MEASUREMENT_DONE (R373): A background measurement ends and ramps and substitutions start by policy. -/
  | calMeasurementDone (cv : Fin 16) (res : Vector SliceCal 64)
  /-- SPARE_CAL_DONE (R376): A spare's foreground calibration ends and the crossfade starts. -/
  | spareCalDone (cv : Fin 16) (res : SliceCal)
  /-- SPARE_SWAP (R376): At w = 1 the slice map gives the position to the spare. -/
  | spareSwap (cv : Fin 16)
  /-- CAL_STORE_WRITTEN (R379): A calibration store write ends. -/
  | calStoreWritten (ok : Bool)
  /-- TEMP_SENSOR_READ (R372): Each epoch converter temperatures are read and drift acted on by state. -/
  | tempSensorRead (cv : Fin 16) (t : BitVec 16)
  /-- STW_STATUS (R419): Returns the Steward status. -/
  | stwStatus (p : Packet)
  /-- TEN_STATUS (R419): Returns a tenant's status. -/
  | tenStatus (p : Packet)
  /-- ENG_IMAGE_LOAD (R401): Checks and stores a program image for a tenant. -/
  | engImageLoad (p : Packet) (img : Bytes)
  /-- ENG_IMAGE_FREE (R419): Frees a stored image and its pages. -/
  | engImageFree (p : Packet)
  /-- STW_PAGE_ALLOC (R407): Requests pages for a tenant, decided in commit windows. -/
  | stwPageAlloc (p : Packet)
  /-- PAGE_REQUEST_TIMEOUT (R407): A request still waiting after 1.5 s completes NO_RESOURCE. -/
  | pageRequestTimeout
  /-- STW_PAGE_FREE (R411): Returns named pages of a tenant for zeroising. -/
  | stwPageFree (p : Packet)
  /-- STW_RENEW (R408): Renews a tenant's page lease. -/
  | stwRenew (p : Packet)
  /-- STW_DMA_GRANT (R409): Gives a tenant the lowest free DMA channel. -/
  | stwDmaGrant (p : Packet)
  /-- STW_DMA_RELEASE (R409): Releases a DMA channel. -/
  | stwDmaRelease (p : Packet)
  /-- TENANT_REVOKE (R413): Reclaims all holdings of a tenant. -/
  | tenantRevoke (p : Packet)
  /-- STW_QUARANTINE (R414): Quarantines a tenant. -/
  | stwQuarantine (p : Packet)
  /-- STW_RELEASE (R414): Returns a quarantined tenant to ACTIVE. -/
  | stwRelease (p : Packet)
  /-- ENG_TEST (R419): Runs an engine self-test at the next turnover. -/
  | engTest (p : Packet)
  /-- RUN_BUDGET_EXPIRY (R390): A run whose 5,800-cycle budget runs out is aborted as an overrun. -/
  | runBudgetExpiry (e : Fin 256)
  /-- ENGINE_SELF_TEST (R416): An engine is self-tested in its tick of the epoch and disabled on failure. -/
  | engineSelfTest (e : Fin 256) (pass : Bool)
  /-- ZEROISE_DONE (R410): Reclaimed pages finish zeroising and become free. -/
  | zeroiseDone (page : Fin 32768)
  /-- ENG_END (R393): END completes the run once its Store writes finish. -/
  | engEnd (e : Fin 256)
  /-- ENG_NOP (R393): NOP does nothing for one cycle. -/
  | engNop (e : Fin 256)
  /-- ENG_BR (R393): BR branches to PC plus imm. -/
  | engBr (e : Fin 256)
  /-- ENG_EVT (R393): EVT raises a program event with a code. -/
  | engEvt (e : Fin 256)
  /-- ENG_SYS (R393): SYS reads a run value such as tick, engine or cycles left. -/
  | engSys (e : Fin 256)
  /-- ENG_ADD (R393): Scalar ADD. -/
  | engAdd (e : Fin 256)
  /-- ENG_SUB (R393): Scalar SUB. -/
  | engSub (e : Fin 256)
  /-- ENG_AND (R393): Scalar AND. -/
  | engAnd (e : Fin 256)
  /-- ENG_OR (R393): Scalar OR. -/
  | engOr (e : Fin 256)
  /-- ENG_XOR (R393): Scalar XOR. -/
  | engXor (e : Fin 256)
  /-- ENG_SHL (R393): Scalar shift left. -/
  | engShl (e : Fin 256)
  /-- ENG_SHR (R393): Scalar logical shift right. -/
  | engShr (e : Fin 256)
  /-- ENG_SAR (R393): Scalar arithmetic shift right. -/
  | engSar (e : Fin 256)
  /-- ENG_MOVI (R393): Scalar move immediate. -/
  | engMovi (e : Fin 256)
  /-- ENG_ADDI (R393): Scalar add immediate. -/
  | engAddi (e : Fin 256)
  /-- ENG_CMPEQ (R393): Scalar compare equal to a predicate. -/
  | engCmpeq (e : Fin 256)
  /-- ENG_CMPLT (R393): Scalar signed compare less than. -/
  | engCmplt (e : Fin 256)
  /-- ENG_CMPLTU (R393): Scalar unsigned compare less than. -/
  | engCmpltu (e : Fin 256)
  /-- ENG_MUL (R393): Scalar multiply, low 64 bits. -/
  | engMul (e : Fin 256)
  /-- ENG_MULH (R393): Scalar signed multiply high. -/
  | engMulh (e : Fin 256)
  /-- ENG_MULHU (R393): Scalar unsigned multiply high. -/
  | engMulhu (e : Fin 256)
  /-- ENG_VADD (R393): Vector ADD. -/
  | engVadd (e : Fin 256)
  /-- ENG_VSUB (R393): Vector SUB. -/
  | engVsub (e : Fin 256)
  /-- ENG_VADDS (R393): Vector saturating ADD. -/
  | engVadds (e : Fin 256)
  /-- ENG_VSUBS (R393): Vector saturating SUB. -/
  | engVsubs (e : Fin 256)
  /-- ENG_VMIN (R393): Vector MIN. -/
  | engVmin (e : Fin 256)
  /-- ENG_VMAX (R393): Vector MAX. -/
  | engVmax (e : Fin 256)
  /-- ENG_VAND (R393): Vector AND. -/
  | engVand (e : Fin 256)
  /-- ENG_VOR (R393): Vector OR. -/
  | engVor (e : Fin 256)
  /-- ENG_VXOR (R393): Vector XOR. -/
  | engVxor (e : Fin 256)
  /-- ENG_VSHL (R393): Vector shift left. -/
  | engVshl (e : Fin 256)
  /-- ENG_VSHR (R393): Vector logical shift right. -/
  | engVshr (e : Fin 256)
  /-- ENG_VSAR (R393): Vector arithmetic shift right. -/
  | engVsar (e : Fin 256)
  /-- ENG_VCMPEQ (R393): Vector per-lane compare equal. -/
  | engVcmpeq (e : Fin 256)
  /-- ENG_VCMPLT (R393): Vector per-lane compare less than. -/
  | engVcmplt (e : Fin 256)
  /-- ENG_VMUL (R393): Vector multiply. -/
  | engVmul (e : Fin 256)
  /-- ENG_MAC (R393): Vector saturating multiply-accumulate. -/
  | engMac (e : Fin 256)
  /-- ENG_CMUL (R393): Complex multiply on Q15 pairs. -/
  | engCmul (e : Fin 256)
  /-- ENG_CMAC (R393): Complex multiply-accumulate. -/
  | engCmac (e : Fin 256)
  /-- ENG_CMACC (R393): Complex multiply-accumulate with conjugate. -/
  | engCmacc (e : Fin 256)
  /-- ENG_BCAST (R393): Broadcast a scalar to every lane. -/
  | engBcast (e : Fin 256)
  /-- ENG_SHUF (R393): Shuffle lanes by index vector. -/
  | engShuf (e : Fin 256)
  /-- ENG_ROT (R393): Rotate lanes by an immediate. -/
  | engRot (e : Fin 256)
  /-- ENG_REDADD (R393): Sum vector lanes into a scalar. -/
  | engRedadd (e : Fin 256)
  /-- ENG_INS (R393): Insert a scalar into a lane. -/
  | engIns (e : Fin 256)
  /-- ENG_EXT (R393): Extract a lane into a scalar. -/
  | engExt (e : Fin 256)
  /-- ENG_PAND (R393): Predicate AND. -/
  | engPand (e : Fin 256)
  /-- ENG_POR (R393): Predicate OR. -/
  | engPor (e : Fin 256)
  /-- ENG_PNOT (R393): Predicate NOT. -/
  | engPnot (e : Fin 256)
  /-- ENG_PMOV (R393): Move a scalar into a predicate. -/
  | engPmov (e : Fin 256)
  /-- ENG_LD (R394): Local memory scalar load, refused outside the data region. -/
  | engLd (e : Fin 256)
  /-- ENG_ST (R394): Local memory scalar store. -/
  | engSt (e : Fin 256)
  /-- ENG_VLD (R394): Local memory 64-byte load. -/
  | engVld (e : Fin 256)
  /-- ENG_VST (R394): Local memory 64-byte store. -/
  | engVst (e : Fin 256)
  /-- ENG_VIN (R397): Read next 64 bytes of an IN window. -/
  | engVin (e : Fin 256)
  /-- ENG_VOUT (R398): Write next 64 bytes of an OUT window. -/
  | engVout (e : Fin 256)
  /-- ENG_SIN (R397): Read next 8 bytes of an IN window. -/
  | engSin (e : Fin 256)
  /-- ENG_SOUT (R398): Write next 8 bytes of an OUT window. -/
  | engSout (e : Fin 256)
  /-- ENG_SLD (R394): Store 64-byte load from a held page. -/
  | engSld (e : Fin 256)
  /-- ENG_SST (R394): Store 64-byte store to a held page. -/
  | engSst (e : Fin 256)
  /-- ENG_SWAIT (R393): Wait until no Store access is outstanding. -/
  | engSwait (e : Fin 256)
  /-- STORE_STATUS (R441): Returns the Store status. -/
  | storeStatus (p : Packet)
  /-- STORE_SCRUB (R430): Scrubs a named page range and returns a summary. -/
  | storeScrub (p : Packet)
  /-- STORE_FALLOW (R431): Retires named pages for good. -/
  | storeFallow (p : Packet)
  /-- STORE_FLUSH (R426): Flushes every merge entry. -/
  | storeFlush (p : Packet)
  /-- DMA_START (R433): Runs a descriptor chain on a held channel. -/
  | dmaStart (p : Packet)
  /-- DMA_STATUS (R441): Returns a DMA channel's status. -/
  | dmaStatus (p : Packet)
  /-- DMA_ABORT (R437): Aborts a running chain. -/
  | dmaAbort (p : Packet)
  /-- CRC_UNIT (R439): Reads, writes or resets a CRC unit's context. -/
  | crcUnit (p : Packet)
  /-- STORE_INJECT (R441): Flips stored bits of a page at its next flush or read. -/
  | storeInject (p : Packet)
  /-- DMA_DESCRIPTOR (R434): A descriptor is read, checked and its transfer issued. -/
  | dmaDescriptor (ch : Fin 16) (desc : HostRead (Vector Byte 32)) (data : HostRead Bytes)
  /-- DESCRIPTOR_COMPLETE (R436): All writes of a descriptor respond, signalling its interrupt and ending the chain after the last. -/
  | descriptorComplete (ch : Fin 16)
  /-- MERGE_FLUSH_TIMEOUT (R426): A merge entry without writes for 64 ticks is flushed. -/
  | mergeFlushTimeout
  /-- QUARANTINE_TEST (R429): A quarantined page is pattern-tested and returned or fallowed. -/
  | quarantineTest (page : Fin 32768) (ones : Nat) (zeros : Nat)
  /-- FALLOW_RECORD_WRITTEN (R431): The fallow record write-ahead ends and the page is fallowed. -/
  | fallowRecordWritten (ok : Bool)
  /-- PERIODIC_SCRUB (R430): Each STORE_SCRUB_PERIOD the whole Store is scrubbed. -/
  | periodicScrub
  /-- OBS_CLEAR (R449): Clears a range of counters at its tick. -/
  | obsClear (p : Packet)
  /-- OBS_HARVEST_NOW (R451): Takes an extra Harvest at its tick. -/
  | obsHarvestNow (p : Packet)
  /-- OBS_SAMPLE_READ (R460): Removes and returns instruction samples. -/
  | obsSampleRead (p : Packet)
  /-- HARVEST (R451): At each Harvest period boundary all counters are captured into a record. -/
  | harvest
  /-- HARVEST_RECORD_WRITTEN (R452): A Harvest record's entries and header are written. -/
  | harvestRecordWritten
  /-- EQUALISER_CONVERGENCE_LOST (R153): In PILOT the equaliser loses convergence and the receiver returns to TIMING or CD_SCAN with the next candidate. -/
  | equaliserConvergenceLost (c : Line)
  /-- EXCHANGE_RECORD_EXPIRY (R278): 500 ms after completion the responder drops its exchange record and no longer answers a repeated OFFER or CONFIRM with its stored reply. -/
  | exchangeRecordExpiry (c : Line)
  /-- MISSING_OFFSET_REQUEST (R324): During a document fetch the device requests a missing offset again, up to 3 times within the first quarter of DM_FETCH_TIMEOUT. -/
  | missingOffsetRequest
  /-- CONFLICT_FLAG_EXPIRY (R327): 60 s after the last sighting of a member ID conflict the conflict flag is cleared in identity beacons. -/
  | conflictFlagExpiry
deriving DecidableEq, Repr

end Sys2Proof
end

