-- ==== Sys2Proof/Decode.lean ====
section
/-! DEFINITION. Decode.lean: the command a word of the table's bits spells. -/
namespace Sys2Proof

/-- The rows of the table that give bits, each with the number of bits, a mask, a pattern and the command they spell.
The specification's table gives no row any bits (no `fields`, no width), so the list is empty. -/
def tableWords : List (Nat × Nat × Nat × Instr) := []

/-- The command a word of `nbits` bits spells, none where no row's bits match. -/
def decodeTableWord (nbits w : Nat) : Option Instr :=
  (tableWords.find? fun r => r.1 = nbits ∧ w &&& r.2.1 = r.2.2.1).map fun r => r.2.2.2

end Sys2Proof
end

