-- ==== Sys2Proof/Machine/State.lean ====
section
/-! DEFINITION. State.lean: everything the specification gives the device to hold, as plain data, the reasons a
command can stop, and the machine as it stands when RESET_N has just been asserted. A field's default value is its
reset value; the log entries named in INVENTORY.md say where the specification gives none. -/
namespace Sys2Proof.Machine

/-! ## Commands, completions and the timed-action table (group 0x0) -/

/-- The four change classes of R46 and R65. -/
inductive ChangeClass
  | local_
  | line
  | disruptive
  | outside
deriving DecidableEq, Repr

/-- The key of a command: queue, tag and sequence (R84). -/
structure CmdKey where
  q : Nat := 0
  tag : Nat := 0
  seq : Nat := 0
deriving DecidableEq, Repr

/-- A completion entry before its place in a CQ is known (R79); PHASE and SQ_HEAD are added when it is written. -/
structure Cpl where
  tag : Nat := 0
  seq : Nat := 0
  status : Nat := 0
  dup : Bool := false
  resultPtr : Bool := false
  lateExec : Bool := false
  opcode : Nat := 0
  detail : Nat := 0
  execTick : Nat := 0
  result : Nat := 0
deriving DecidableEq, Repr

/-- A completion entry as written into a CQ (R79). -/
structure CqEnt where
  cpl : Cpl
  phase : Bool
  sqHead : Nat
deriving DecidableEq, Repr

/-- A completion held until its CQ has room or the firmware runs (R56, R71). -/
structure Held where
  q : Nat
  cpl : Cpl
  timed : Bool
deriving DecidableEq, Repr

/-- An entry of the completion cache (R84). -/
structure CacheEnt where
  key : CmdKey
  crc : Nat
  cpl : Cpl
deriving DecidableEq, Repr

/-- An accepted command that waits for a result (R90): its packet, opcode, check value and device deadline in elapsed
ticks; for a timed one the tick at which it was executed, and whether late (R55). -/
structure OpenCmd where
  p : Packet
  opcode : Nat
  crc : Nat
  acceptTick : Nat
  deadline : Nat
  timed : Option (Nat × Bool) := none
deriving DecidableEq, Repr

/-- What a timed entry does when its tick comes (R48): run the timed command in its packet, apply a commit set, apply a
Solstice, or act on the device's own account (an automatic key switch, R265, or the switch an exchange schedules, R277). -/
inductive Action
  | cmd
  | commit (recs : SMap Bytes)
  | solstice (handle : Nat)
  | autoSwitch (c : Line) (mask : Nat)
  | keSwitch (c : Line) (mask : Nat)
deriving DecidableEq, Repr

/-- One entry of the timed-action table (R52, R53, R57). -/
structure Entry where
  p : Packet
  opcode : Nat := 0
  crc : Nat := 0
  action : Action := .cmd
  cls : ChangeClass := .local_
  atTick : Nat := 0
  execTick : Nat := 0
  acceptNo : Nat := 0
  acceptTick : Nat := 0
  frozen : Bool := false
  resched : Bool := false
  lateExec : Bool := false
  orphan : Bool := false
  internal : Bool := false
deriving DecidableEq, Repr

/-- The states of a Solstice (R61). -/
inductive SolState
  | prepared
  | armed
  | frozen
deriving DecidableEq, Repr

/-- A Solstice (R59 to R62): handle, owning session's queue (none once the session has ended), sealed values, class. -/
structure Solstice where
  handle : Nat
  owner : Option Nat
  recs : SMap Bytes
  cls : ChangeClass
  st : SolState := .prepared
deriving DecidableEq, Repr

/-- A session (R87): expert access and the open shadow, keyed by PID and instance (R44). -/
structure Session where
  expert : Bool := false
  shadow : SMap Bytes := []
deriving DecidableEq, Repr

/-- How a queue's present host read stands (R82): not retried; retried; retried, and the first read's late completion
has come; served by its retry, the first read's completion still out. -/
inductive Retry
  | none_
  | again
  | late
  | last
deriving DecidableEq, Repr

/-- One queue pair (R516 to R519). -/
structure Queue where
  enabled : Bool := false
  sqBase : Nat := 0
  cqBase : Nat := 0
  sqLatch : Option Nat := none
  cqLatch : Option Nat := none
  sqLog2 : Nat := 0
  cqLog2 : Nat := 0
  vector : Nat := 0
  coalCount : Nat := 0
  coalTime : Nat := 0
  sqTail : Nat := 0
  sqHead : Nat := 0
  cqHead : Nat := 0
  cqTail : Nat := 0
  phase : Bool := true
  ring : SMap (Option CqEnt) := []
  unsignalled : Nat := 0
  coalStart : Option Nat := none
  retry : Retry := .none_
deriving DecidableEq, Repr

/-- The SPI mailbox (R94, R95): request, result and completion bytes, and the status byte's flags. -/
structure Mailbox where
  req : SMap Byte := []
  res : SMap Byte := []
  cpl : Bytes := List.replicate 32 0
  busy : Bool := false
  taken : Bool := false
  done : Bool := false
  err : Bool := false
deriving DecidableEq, Repr

/-- The command protocol's state. -/
structure Cmd where
  queues : List Queue := List.replicate 8 {}
  sess : List (Option Session) := List.replicate 9 none
  newest : List (Option Nat) := List.replicate 9 none
  mb : Mailbox := {}
  cache : List CacheEnt := []
  opens : List OpenCmd := []
  expired : List CmdKey := []
  held : List Held := []
  entries : List Entry := []
  sols : List Solstice := []
  acceptNo : Nat := 0
  visitQ : Nat := 0
  visitN : Nat := 0
  timedHigh : Bool := true
  stalled : Bool := false
deriving DecidableEq, Repr

/-! ## Flash and boot (R99, R498 to R504) -/

/-- The kinds of flash operation. -/
inductive FlashKind
  | fwChunk
  | bootRecord
  | epochRecord
  | domainRecord
  | calStore
  | fallowRecord
deriving DecidableEq, Repr

/-- A flash operation accepted and not yet completed (R99: one at a time, in order of acceptance). -/
structure FlashOp where
  kind : FlashKind
  owner : Option CmdKey := none
  addr : Nat := 0
  data : Bytes := []
  aux : Nat := 0
  aux2 : Nat := 0
deriving DecidableEq, Repr

/-- The states of a firmware slot (R96). -/
inductive SlotState
  | erased
  | valid
  | invalid
  | writing
deriving DecidableEq, Repr

/-- A firmware slot: its state and, when valid, the versions its image carries. -/
structure FwSlot where
  st : SlotState := .erased
  fwVersion : Nat := 0
  secVersion : Nat := 0
deriving DecidableEq, Repr

/-- Flash contents (R499) and the operations on them. -/
structure Flash where
  mem : SMap Byte := []
  ops : List FlashOp := []
  slots : List FwSlot := [{}, {}]
  updateBy : Option Nat := none
  updateNext : Nat := 0
  updateSeq : Nat := 0
  lastErr : Nat := 0
  lastErrTick : Nat := 0
deriving DecidableEq, Repr

/-- Boot (R498 to R504): BOOT_STAT's fields, the staging window, the public key of the image that runs. -/
structure Boot where
  stage : Nat := 0
  source : Nat := 0
  slot : Nat := 0
  fallback : Bool := false
  strap : Nat := 0
  calValid : Bool := false
  boardValid : Bool := false
  error : Nat := 0
  inReset : Bool := true
  xoFound : Bool := false
  locked : Bool := false
  checking : Bool := false
  staging : SMap Byte := []
  loadLen : Nat := 0
  curVersion : Nat := 0
  curSecVersion : Nat := 0
  queueTouched : Bool := false
  tried : Bool := false
  firstSlot : Nat := 0
  pubKey : Bytes := []
deriving DecidableEq, Repr

/-! ## System registers, events and counters (R507 to R520, R445 to R456) -/

/-- A counter-high latch (R448): bits [47:32] and SAT. -/
structure CntLatch where
  hi : Nat := 0
  sat : Bool := false
deriving DecidableEq, Repr

/-- System registers and pins: `errSet` are the bits of SYS_ERR that the device has set in the present tick (R19). -/
structure Sys where
  err : BitVec 7 := 0
  locked : Bool := false
  deviceFault : Bool := false
  fwRunning : Bool := false
  fwRestarting : Bool := false
  fwActivate : Option CmdKey := none
  ready : Bool := false
  restarts : Nat := 0
  gpioDir : BitVec 16 := 0
  gpioOut : BitVec 16 := 0
  gpioIn : BitVec 16 := 0
  gpioWait : List (Nat × BitVec 16) := []
  harvHead : Nat := 0
  cntLatch : CntLatch := {}
  cntLatchSpi : CntLatch := {}
  tickLatch : Nat := 0
  tickLatchSpi : Nat := 0
  perst : Bool := false
  readOut : Bytes := []
  errSet : BitVec 7 := 0
deriving DecidableEq, Repr

/-- Output pins that are functions of registers: true is low (asserted). -/
structure Pins where
  intN : Bool := false
  svcReqN : Bool := false
  thermtripN : Bool := false
deriving DecidableEq, Repr

/-- Events (R455, R456): enable, vector, status, mask; the MSI-X table's mask bits, pending bits and the signals sent; `tickSet`
are the status bits that raisings of the present tick have set, or set again (R19). -/
structure Events where
  en : BitVec 256 := 0
  vec : SMap Nat := []
  stat : BitVec 256 := 0
  mask : BitVec 256 := BitVec.allOnes 256
  msixTable : SMap Byte := []
  msixPend : BitVec 64 := 0
  signals : SMap Nat := []
  tickSet : BitVec 256 := 0
deriving DecidableEq, Repr

/-- Counters, Harvest and sampling (R445 to R454): `cnt0` what of each count is from before the present tick and not cleared since, `cntH`
and `satH` counts and SAT flags as the tick began, `raised` how often each event has been raised in the present tick. -/
structure Obs where
  cnt : SMap Nat := []
  cnt0 : SMap Nat := []
  cntH : SMap Nat := []
  satH : SMap Bool := []
  raised : SMap Nat := []
  sat : SMap Bool := []
  harvSeq : Nat := 0
  harvTail : Nat := 0
  harvWriting : Bool := false
  harvLost : Bool := false
  harvRec : Bytes := []
  harvDropEpoch : Option Nat := none
  skipped : Nat := 0
  dropped : Nat := 0
  samples : List Bytes := []
  sampleCount : Nat := 0
  overflowTick : Option Nat := none
deriving DecidableEq, Repr

/-! ## Power (R462 to R484) -/

/-- A power-state move in progress (R463): the state and running carriers (bit 0 A, bit 1 B) it ends in and those it
began from, the Whisper flag, its command, when it was accepted, whether its stops and starts have begun. -/
structure PwrMove where
  target : Nat
  want : Nat
  source : Nat
  had : Nat
  whisper : Bool
  owner : Option CmdKey
  started : Nat
  begun : Bool := false
deriving DecidableEq, Repr

/-- A gating change waiting for its window (R470). -/
structure GateReq where
  owner : Option CmdKey
  due : Nat
  ungate : Bool
  clusters : Nat
  cores : Nat
deriving DecidableEq, Repr

/-- A PMBus transaction of the host waiting for its end (R474). -/
structure PmbReq where
  owner : CmdKey
  addr : Nat
  code : Nat
  kind : Nat
  data : Bytes
deriving DecidableEq, Repr

/-- Power manager and health. -/
structure Pwr where
  state : Nat := 2
  move : Option PwrMove := none
  aRun : Bool := false
  bRun : Bool := false
  whStby : Bool := false
  warn : Bool := false
  crit : Bool := false
  tripped : Bool := false
  tj : Int := 0
  vcore : Nat := 750
  powers : List Nat := []
  svcReq : Nat := 0
  wakeSource : Nat := 0
  wakeGpio : Nat := 0
  waking : Bool := false
  wakePending : Option (Nat × Nat) := none
  gatedClusters : Nat := 0
  gatedCores : Nat := 0
  gates : List GateReq := []
  pmb : List PmbReq := []
  pmbFailAddr : Nat := 0
  alertAddr : Nat := 0
  lastTel : Nat := 0
  railsOn : Nat := 0
  hiZ : Nat := 0
  stuck : Nat := 0
  avsLimitTick : Option Nat := none
  avsEpoch : Option Nat := none
  tjEpoch : Option Nat := none
deriving DecidableEq, Repr

/-! ## Line transmit and receive, per carrier (R103 to R164, R527) -/

/-- A carrier's transmitter: the effective output (0 DARK, 1 IDLE, 2 TRAFFIC), the disruptive sequence and the
converters' retune under way, the switch tick announced, the samples saturated in the last tick; the register of the IDLE
pattern (R121), the samples each filter of the pipeline still holds (R114: for each lane the pulse's symbols, then the
inputs of the dispersion filter, of the pre-emphasis and of the skew), and the DAC codes of the last tick, lane by lane. -/
structure Tx where
  eff : Nat := 0
  disrupt : Bool := false
  disruptTick : Nat := 0
  retune : Bool := false
  annT : Option Nat := none
  satLast : Nat := 0
  idle : Nat := 2 ^ 31 - 1
  hist : List (List Rat) := []
  dac : List (List Int) := []
deriving DecidableEq, Repr

/-- The states of a receiver (R153, codes of RX_STATUS). -/
inductive RxSt
  | off
  | signal
  | cdScan
  | timing
  | equalise
  | pilot
  | tracking
deriving DecidableEq, Repr

/-- A receive mode (R135): constellation code, entropy index, code-rate code, roll-off. -/
structure RxMode where
  const : Nat := 2
  k : Nat := 368
  rate : Nat := 1
  roll : Nat := 5
deriving DecidableEq, Repr

/-- A frame's received symbols as the carrier recovery hands them to the demapper (R151): each the values of XI, XQ, YI and
YQ; the noise variance estimated from the pilots, the pilots before which 63 payload positions are erased (R147), and the receive mode
of the frame (R136). -/
structure RxFrame where
  syms : List (List Rat) := []
  s2 : Rat := 0
  erase : List Nat := []
  mode : RxMode := {}
deriving DecidableEq, Repr

/-- The configuration the receive stages work under (R40, R41): front-end values applied, dispersion of the CD filter and its optical
frequency, bandwidth of timing recovery, roll-off of the matched filter, form, length and step of the equaliser, pilots to each side
and erasing of carrier recovery. -/
structure RxCfg where
  fe : SMap Int := []
  cd : Int := 0
  cdFreq : Nat := 193100000
  bw : Nat := 20
  roll : Nat := 5
  mimo : Nat := 0
  taps : Nat := 65
  mu : Int := -10
  window : Nat := 4
  slipErase : Bool := true
deriving DecidableEq, Repr

/-- A frame whose symbols are coming in (R136): its receive mode, the pilots to each side of its averages, whether slips erase. -/
structure RxStart where
  mode : RxMode := {}
  window : Nat := 4
  slipErase : Bool := true
deriving DecidableEq, Repr

/-- Timing recovery (R142): the place of the next symbol in samples from the tick's first, the symbol period's offset, the lanes'
values at the last symbol and half a symbol after it; whether the timing error's variance was below its limit in the last tick. -/
structure RxTr where
  pos : Rat := 0
  rate : Rat := 0
  sym : List Rat := []
  mid : List Rat := []
  good : Bool := false
deriving DecidableEq, Repr

/-- Frames coming in (R109, R146, R147, R198): the tick's first symbol counted modulo N; the place modulo N of the last alignment
sequence found, and of one that ended in the last tick, and whether one was due there; the equaliser's last outputs, in which a
sequence may have begun; the symbol of the last tick that began a frame. -/
structure RxAlign where
  symNo : Nat := 0
  at_ : Option Nat := none
  found : Option Nat := none
  due : Bool := false
  tail : List (List Rat) := []
  start : Option Nat := none
deriving DecidableEq, Repr

/-- An RX_CAPTURE that waits for its data (R162): its command, the point, samples or symbols asked for, and those taken. -/
structure RxCap where
  owner : CmdKey
  point : Nat
  n : Nat
  begun : Bool := false
  data : List (List Int) := []
deriving DecidableEq, Repr

/-- A carrier's receiver (R134 to R164). Times are elapsed ticks unless named as tick numbers. `scores` and `fine` are the
candidates scored so far in both passes of a scan; `cdTrack` is RX_CD_TRACK as used since the last entry to CD_SCAN or
TIMING (R160). Of the DSP it holds the taps as 16 real filters in row order (a complex-linear set in mode 0, R143), the
samples each filter still holds, the ADC codes and the symbols at the equaliser's and the carrier recovery's output of
the last tick, the quarter turns of R147, the symbols of the frames coming in with the places of erasing pilots
among them, and the frames not yet handed to the decoder pool; the carrier's angle in turns at the end of the last tick and its
frequency offset in 0.1 MHz, the pilots' phasor of each polarisation, RX_SOP_RATE of the last tick. `cfg` is what the stages work
under, `modeDue` a receive mode, with its source, that waits for the next frame boundary (R137), `cdHold` RX_CD_HOLD as latched
(R160), `less` a move of the CD filter still to be taken out of the taps (R141); `eqCount` and `eqGrad` the symbols and the gradient
since the last update (R144); `refs` the last pilots after correction, `past` those before the symbols held, oldest first (R146,
R147); `slips` the slips of the last tick, `lost` the payload positions they erased. -/
structure Rx where
  st : RxSt := .off
  reason : Nat := 0
  mode : RxMode := {}
  modeSrc : Nat := 0
  cdFilter : Int := 0
  cdResidual : Int := 0
  cands : List Int := []
  held : Bool := false
  scanMin : Int := 0
  scanMax : Int := 0
  scanStep : Nat := 1000
  scanFixed : Bool := false
  since : Nat := 0
  timer : Option Nat := none
  acqStart : Nat := 0
  leftAt : Option Nat := none
  heldVal : Int := 0
  heldMode : RxMode := {}
  above : Nat := 0
  below : Nat := 0
  light : Bool := false
  timingGood : Nat := 0
  cmaGood : Nat := 0
  snrLow : Nat := 0
  freqBad : Bool := false
  diverged : Bool := false
  convLost : Bool := false
  fasPos : Option Nat := none
  fasRun : Nat := 0
  noConv : Nat := 0
  lastAcq : Nat := 0
  lastLoss : Nat := 0
  acqTime : Nat := 0
  meas : SMap Int := []
  fe : SMap Int := []
  sopQuiet : Nat := 500
  muShift : Nat := 0
  slipTick : Option Nat := none
  nlcEpoch : Option Nat := none
  nlcOverrun : Bool := false
  engines : Nat := 0
  scores : List (Int × Nat) := []
  fine : List (Int × Nat) := []
  cdTrack : Bool := true
  measTick : Nat := 0
  taps : List (List Rat) := []
  hist : List (List Rat) := []
  adc : List (List Int) := []
  eqOut : List (List Rat) := []
  crOut : List (List Rat) := []
  rot : Nat := 0
  buf : List (List Rat) := []
  erase : List Nat := []
  frames : List RxFrame := []
  caps : List RxCap := []
  turn : Rat := 0
  phase : List (List Rat) := []
  sop : Nat := 0
  cfg : RxCfg := {}
  modeDue : Option (RxMode × Nat) := none
  cdHold : Nat := 10
  less : Int := 0
  tr : RxTr := {}
  eqCount : Nat := 0
  eqGrad : List (List Rat) := []
  align : RxAlign := {}
  freq : Rat := 0
  refs : List (List Rat) := []
  past : List (List Rat) := []
  starts : List RxStart := []
  slips : Nat := 0
  lost : Nat := 0
deriving DecidableEq, Repr

/-! ## The decoder pool (R165 to R188) -/

/-- How a codeword's decoding ends (R171). -/
inductive Outcome
  | converged
  | miscorrected
  | limit
  | starved
  | deadline
deriving DecidableEq, Repr

/-- A codeword in the pool: in its first decoding or waiting for it with its channel LLRs and the iterations it has run;
failed, with the same for its re-decode; decided with its outcome and the information bits it delivers; or released with
them (R171 to R173). -/
inductive CwSt
  | waiting (llr : List Int) (n : Nat)
  | failed (o : Outcome) (llr : List Int) (bits : List Bool) (n : Nat)
  | decided (o : Outcome) (good : Bool) (bits : List Bool)
  | released (good : Bool) (bits : List Bool)
deriving DecidableEq, Repr

/-- A frame in the pool: symbols per tick and receive mode it was demapped in, and its codewords in order. -/
structure DecFrame where
  n : Nat := 579584
  mode : RxMode := {}
  cws : List CwSt := []
deriving DecidableEq, Repr

/-- A carrier's part of a decode tick (R175 to R179): what FEC_STATUS reports of it, the guarantee and settings under which
its codewords are decoded, its frames. -/
structure Batch where
  charged : Nat := 0
  rate : Nat := 0
  reserveUsed : Nat := 0
  surplus : Nat := 0
  home : Nat := 0
  keep : Nat := 0
  lendable : Nat := 0
  homeLeft : Nat := 0
  drawn : Nat := 0
  borrowed : Nat := 0
  lent : Nat := 0
  failures : Nat := 0
  tick : Nat := 0
  g : Nat := 6
  maxIter : Nat := 24
  redecode : Bool := true
  redIter : Nat := 6
  offset : Nat := 1
  early : Bool := true
  prio : Nat := 4
  frames : List DecFrame := []
deriving DecidableEq, Repr

/-- A carrier's decoding: its part of the present decode tick, of the one before, whose codewords leave in this tick, and of
the last completed one; the frames that have left, for the line frame to take; the epoch's sums; and of the frame taken
last, whether it was in this tick, its uncorrected codewords, information bits per codeword and slots; the iterations drawn from
home shares and the common part in this tick and in the one before (R176). -/
structure FecC where
  cur : Batch := {}
  prev : Batch := {}
  last : Batch := {}
  ready : List DecFrame := []
  raised : List Nat := []
  borrowAt : Option Nat := none
  sumIter : Nat := 0
  sumCw : Nat := 0
  sumBits : Nat := 0
  sumGood : Nat := 0
  sumBad : Nat := 0
  avgIter : Option Nat := none
  ber : Option Nat := none
  epochBad : Nat := 0
  taken : Bool := false
  frameBad : List Nat := []
  frameK : Nat := 1
  frameSlots : Nat := 0
  drawnNow : Nat := 0
  drawnLast : Nat := 0
deriving DecidableEq, Repr

/-- The pool's common figures of a decode tick: P, active cores, g, L, the common part and what is left of it, iterations
used, the tick. -/
structure PoolRep where
  p : Nat := 6000
  cores : Nat := 48
  g : Nat := 6
  lend : Nat := 0
  common : Nat := 0
  left : Nat := 0
  used : Nat := 0
  tick : Nat := 0
deriving DecidableEq, Repr

/-- The pool: both carriers, its cores, the figures of the present decode tick, of the one before and of the last completed
one (FEC_POOL); `turn` is the carrier that goes first when both draw from the common part at equal priority (R178), `round` the rounds of iterations run in the
present tick (R172). -/
structure Fec where
  a : FecC := {}
  b : FecC := {}
  disabled : Nat := 0
  leaving : Nat := 0
  untested : Nat := 0
  tested : Nat := 0
  cur : PoolRep := {}
  prev : PoolRep := {}
  rep : PoolRep := {}
  turn : Line := .a
  short : Bool := false
  tests : List (CmdKey × Nat × Nat) := []
  round : Nat := 0
deriving DecidableEq, Repr

/-! ## Line frame (R189 to R220) -/

/-- A persistence check: the state held and how many frames in a row said otherwise. -/
structure Deb where
  on : Bool := false
  run : Nat := 0
deriving DecidableEq, Repr

/-- The dKEYX detector of a slot (R205): raw state and the runs of failed checks, KBLK bits and passes. -/
structure KeyDet where
  raw : Bool := false
  fails : Nat := 0
  blks : Nat := 0
  passes : Nat := 0
deriving DecidableEq, Repr

/-- What became of a received announcement (R200). -/
inductive AnnSt
  | seen
  | accepted
  | bad
deriving DecidableEq, Repr

/-- A received announcement: its NMA_TICK as a frame tick, its content, how many frames carried it, the frame tick of the
last that did, and whether the stages ahead of frame alignment have switched by it. -/
structure Ann where
  t : Nat
  content : Bytes
  count : Nat := 1
  st : AnnSt := .seen
  lastAt : Nat := 0
  switched : Bool := false
deriving DecidableEq, Repr

/-- A GCC channel in reassembly (R210): the message so far, and whether segments are discarded up to a message's end. -/
structure Reasm where
  msg : Option Bytes := none
  discard : Bool := false
deriving DecidableEq, Repr

/-- A complete GCC message: its channel, the frame tick of its last segment, its bytes. -/
structure GccMsg where
  chan : Nat
  tick : Nat
  bytes : Bytes
deriving DecidableEq, Repr

/-- The GCC of a carrier (R208 to R210): queued messages of both channels, the bytes sent of the first of each, whose
turn it is; reassembly, complete messages not yet passed on, the host's receive queue. -/
structure Gcc where
  host : List Bytes := []
  key : List Bytes := []
  hostOff : Option Nat := none
  keyOff : Option Nat := none
  lastKey : Bool := false
  rxHost : Reasm := {}
  rxKey : Reasm := {}
  done : List GccMsg := []
  queue : List GccMsg := []
deriving DecidableEq, Repr

/-- An overhead sequencer (R212): registers, persistent STATE, program counter, whether a run is under way, the SEQ bytes,
what LDT reads, and the code of the first EVT of the frame. -/
structure Seqr where
  g : List Nat := List.replicate 8 0
  st : List Nat := List.replicate 8 0
  pc : Nat := 0
  running : Bool := false
  bytes : Bytes := List.replicate 32 0
  tickLo : Nat := 0
  mfc : Nat := 0
  valid : Bool := false
  evt : Option Nat := none
deriving DecidableEq, Repr

/-- The parameters of the blocks that follow frame alignment (R41): the values in force in them, and the sets committed
for a tick that the carrier's frames have not reached yet. -/
structure Lag where
  view : SMap Bytes := []
  wait : List (Line × Nat × SMap Bytes) := []
deriving DecidableEq, Repr

/-- The line frame of a carrier. `counted` is whether the frames' ticks are counted from an overhead read under the present lock
(R136); `gap` the frames since the last valid one in IF, `oomNow` whether OOM began in this tick (R199). -/
structure Frm where
  inF : Bool := false
  pos : Option Nat := none
  run : Nat := 0
  miss : Nat := 0
  oof : Nat := 0
  lof : Bool := false
  inM : Bool := false
  good : Nat := 0
  bad : Nat := 0
  lastMfc : Option Nat := none
  gap : Nat := 0
  oom : Nat := 0
  oomNow : Bool := false
  lom : Bool := false
  frameTick : Nat := 0
  counted : Bool := false
  tickLo : Nat := 0
  fecf : Deb := {}
  bdi : Deb := {}
  ais : List Deb := List.replicate 24 {}
  keyx : List KeyDet := List.replicate 24 {}
  reported : Nat := 0
  repAis : Nat := 0
  repPlm : Nat := 0
  repKeyx : Nat := 0
  bei : Nat := 0
  btri : Nat := 0
  beiTx : Nat := 0
  accPt : Bytes := List.replicate 24 0
  accMap : Bytes := List.replicate 24 0xFF
  cand : SMap (Byte × Nat) := []
  expPt : Bytes := List.replicate 24 0
  anns : List Ann := []
  seqId : Nat := 0
  par1 : Option Nat := none
  par2 : Option Nat := none
  txPar1 : Nat := 0
  txPar2 : Nat := 0
  gcc : Gcc := {}
  apsTx : Nat := 0
  apsAcc : Nat := 0
  apsCand : Nat := 0
  apsRun : Nat := 0
  oh : Bytes := List.replicate 256 0
  ohTick : Nat := 0
  ohValid : Bool := false
  txOh : Bytes := List.replicate 256 0
  txPay : List Bytes := []
  txSeq : Seqr := {}
  rxSeq : Seqr := {}
deriving DecidableEq, Repr

/-! ## Host lanes and clients (R221 to R254) -/

/-- A 66-bit block: sync header and the 64 payload bits as a number, first bit least significant. -/
structure Blk where
  sync : Nat
  data : Nat
deriving DecidableEq, Repr

/-- A rate adapter (R228): the blocks held, whether the stream passed on is inside a packet, whether blocks are discarded up
to the next start block; whether the stream taken in is inside a packet, and whether the packet passed on has still to be
closed with an error block after an overflow (R230). -/
structure Adapter where
  buf : List Blk := []
  inPkt : Bool := false
  dropping : Bool := false
  inTake : Bool := false
  close : Bool := false
deriving DecidableEq, Repr

/-- A timestamp FIFO entry (R251). -/
structure TsEnt where
  seconds : Nat
  nanos : Nat
  frac : Nat
  filter : Nat
  oneStep : Bool
  sig : Nat
deriving DecidableEq, Repr

/-- A slot's scrambling and block lock at the receiver (R234, R237): descrambler state, valid headers in a row, the recent
invalid ones, lock, candidate boundary; the test pattern's state and synchronisation (R235). -/
structure RxSlot where
  scr : Nat := 2 ^ 58 - 1
  goodRun : Nat := 0
  window : List Bool := []
  locked : Bool := false
  cand : Nat := 0
  slip : Nat := 0
  prbs : Nat := 0
  prbsRun : Nat := 0
  prbsSync : Bool := false
  carry : List Bool := []
deriving DecidableEq, Repr

/-- A flow of a client's PCS toward the host (R243): scrambler, scrambled blocks of the unit under way with whether each is data,
units of the codewords under way, units since the markers, the symbols sent in the last tick. -/
structure TxFlow where
  scr : Nat := 2 ^ 58 - 1
  group : List (Bool × List Bool) := []
  units : List (List Bool) := []
  count : Nat := 0
  syms : List Nat := []
deriving DecidableEq, Repr

/-- A client's PCS toward the host: its flows, the first two of them at most in use, and the flow that takes the next block. -/
structure PcsTx where
  flows : List TxFlow := [{}, {}]
  next : Nat := 0
deriving DecidableEq, Repr

/-- A lane's search for its alignment markers (R225): its last symbols, whether it is locked, markers missed in a row, the symbols
since the last marker began, none while it hunts. -/
structure LaneRx where
  tail : List Nat := []
  lock : Bool := false
  missed : Nat := 0
  since : Option Nat := none
deriving DecidableEq, Repr

/-- A flow of a client's PCS from the host (R225): the descrambler, units since the markers. -/
structure RxFlow where
  scr : Nat := 2 ^ 58 - 1
  count : Nat := 0
deriving DecidableEq, Repr

/-- A client's PCS from the host (R225): its lanes' markers; whether they and the deskew hold; each lane's symbols that wait; its
flows; decoded block positions that wait, none where a marker stood; symbols come and positions gone since it holds; codewords
uncorrected in a row. -/
structure PcsRx where
  marks : List LaneRx := List.replicate 8 {}
  up : Bool := false
  lanes : List (List Nat) := []
  flows : List RxFlow := [{}, {}]
  held : List (Option Blk) := []
  come : Nat := 0
  gone : Nat := 0
  bad : Nat := 0
deriving DecidableEq, Repr

/-- A client (R222 to R247). `lanesUp` is whether its TX lanes run; `arr` the blocks the demapper
has handed over and the egress has not taken, each with whether it is of a frame with valid data, `arrAcc` and `takeAcc` what
is left over of the pace at which they come and at which the lanes take theirs; `reset_` asks for the adapter's return to its target
fill (R240); `lastPkt` is the last timestamped packet as passed on (R246); `out` what the TX lanes took last; `editIn` and
`editOut` the blocks of packets that one-step timestamps replace, old and new, in the streams from and to the host; `laneOut`
the symbols each TX lane sent in the last tick. -/
structure Client where
  aligned : Bool := false
  lanesUp : Bool := false
  disrupt : Bool := false
  disruptAt : Nat := 0
  pendUp : Bool := false
  ing : Adapter := {}
  egr : Adapter := {}
  faultSince : Option Nat := none
  squelch : Bool := false
  mismatch : Bool := false
  corrected : Nat := 0
  uncorr : Nat := 0
  ins : Nat := 0
  del : Nat := 0
  lastEpoch : Nat × Nat × Nat × Nat := (0, 0, 0, 0)
  tsIn : List TsEnt := []
  tsOut : List TsEnt := []
  arr : List (Bool × Blk) := []
  arrAcc : Nat := 0
  takeAcc : Nat := 0
  reset_ : Bool := false
  lastPkt : Bytes := []
  out : List Blk := []
  editIn : List (List (Blk × Blk)) := []
  editOut : List (List (Blk × Blk)) := []
  pcsTx : PcsTx := {}
  pcsRx : PcsRx := {}
  laneOut : List (List Nat) := []
deriving DecidableEq, Repr

/-- The client side of a carrier: each slot's transmit scrambler and test pattern, each slot's receiver. -/
structure Slots where
  txScr : List Nat := List.replicate 24 (2 ^ 58 - 1)
  txPrbs : List Nat := List.replicate 24 (2 ^ 31 - 1)
  rx : List RxSlot := List.replicate 24 {}
deriving DecidableEq, Repr

/-- Every client, lane and slot; of the lanes, by bits, which hold clock recovery, which are powered, which TX outputs are
driven and not held at common mode (R221, R242). `once` is what was raised already in this tick. -/
structure Cli where
  clients : List Client := List.replicate 12 {}
  a : Slots := {}
  b : Slots := {}
  laneOk : Nat := 0
  powered : Nat := 0
  driven : Nat := 0
  once : List Nat := []
deriving DecidableEq, Repr

/-! ## Encryption and key agreement (R255 to R286) -/

/-- A key with its salt and key epoch (R256). -/
structure Key where
  key : Bytes
  salt : Bytes
  epoch : Nat
deriving DecidableEq, Repr

/-- A transmit half (R256, R263, R264): BLOCKED while no current key is held; `limited` when the limit took it. -/
structure TxHalf where
  cur : Option Key := none
  next : Option Key := none
  phase : Bool := false
  count : Nat := 0
  limited : Bool := false
  warned : Bool := false
deriving DecidableEq, Repr

/-- A receive key with the phase assigned to it and the checks made under it (R256, R263). -/
structure RxKey where
  k : Key
  phase : Bool := false
  checks : Nat := 0
deriving DecidableEq, Repr

/-- A receive half (R256, R261). -/
structure RxHalf where
  cur : Option RxKey := none
  next : Option RxKey := none
  incoming : Option RxKey := none
  retired : Option RxKey := none
  retireAfter : Nat := 0
deriving DecidableEq, Repr

/-- A secure association (R255). -/
structure Sa where
  tx : TxHalf := {}
  rx : RxHalf := {}
deriving DecidableEq, Repr

/-- A key waiting to be installed (R273): its command, or none for the key engine; where it goes; and from which commit
window, none while its key epoch is being written. -/
structure Install where
  owner : Option CmdKey
  line : Line
  sa : Nat
  tx : Bool
  key : Key
  due : Option Nat
deriving DecidableEq, Repr

/-- The stages of a key exchange (R277). -/
inductive KeStage
  | keyGen
  | waitOffer
  | waitAnswer
  | agree
  | install
  | waitConfirm
  | waitDone
deriving DecidableEq, Repr

/-- An open exchange (R274 to R278). Times are elapsed ticks; `sentAt` is when the last segment of its last message
left. -/
structure Exch where
  owner : CmdKey
  init : Bool
  epoch : Nat
  mask : Nat
  t : Nat
  curve : Nat
  stage : KeStage := .keyGen
  started : Nat
  priv : Bytes := []
  pub : Bytes := []
  nonce : Bytes := []
  peerNonce : Bytes := []
  offer : Bytes := []
  answer : Bytes := []
  peerPub : Bytes := []
  mac : Bytes := []
  z : Bytes := []
  lastMsg : Bytes := []
  sentAt : Option Nat := none
  firstAt : Option Nat := none
  sends : Nat := 0
  resends : Nat := 0
deriving DecidableEq, Repr

/-- What a responder keeps for 500 ms after completion (R278). -/
structure KeRecord where
  peerNonce : Bytes
  answer : Bytes
  done : Bytes
  until_ : Nat
deriving DecidableEq, Repr

/-- Encryption and key engine of a carrier. `reply` is what KE_STATUS reads: stage, resends, status, epoch. -/
structure CryC where
  sas : List Sa := List.replicate 26 {}
  secret : Option Bytes := none
  exch : Option Exch := none
  record : Option KeRecord := none
  msgs : List Bytes := []
  lastStage : Nat := 0
  lastResends : Nat := 0
  lastStatus : Nat := 0
  lastEpoch : Nat := 0
  once : List Nat := []
  clear24 : Bool := false
  clear25 : Bool := false
deriving DecidableEq, Repr

/-- The operations of the public-key engine (R279, R280). -/
inductive PkKind
  | verify
  | ecdh (curve : Nat)
  | keGen (c : Line)
  | keEcdh (c : Line)
deriving DecidableEq, Repr

/-- A public-key operation in its queue: its command, its input, when it started. -/
structure PkOp where
  kind : PkKind
  owner : Option CmdKey := none
  p : Option Packet := none
  start : Option Nat := none
deriving DecidableEq, Repr

/-- Encryption: both carriers, waiting installations, the key-epoch record (floor F, mark H, usability), the public-key
queue, the random generator's health. -/
structure Cry where
  a : CryC := {}
  b : CryC := {}
  installs : List Install := []
  floor : Nat := 0
  high : Nat := 0
  recordBad : Bool := false
  pk : List PkOp := []
  drbgBad : Bool := false
  gcmTest : List (CmdKey × Nat × Bytes) := []
deriving DecidableEq, Repr

/-! ## The Whisper channel (R287 to R314) -/

/-- A Whisper frame waiting to be sent (R292, R294): channel, sequence number, its own mode if it names one, payload, and
when it was queued. -/
structure WFrame where
  chan : Nat
  seq : Nat
  mode : Option Nat
  payload : Bytes
  at_ : Nat
deriving DecidableEq, Repr

/-- The Whisper frame being sent: its mode, first tick number and elapsed tick, and its span in symbols (R293). -/
structure WCur where
  f : WFrame
  mode : Nat
  tick : Nat
  start : Nat
  span : Nat
deriving DecidableEq, Repr

/-- The header of a frame being received (R292): the four bytes and its fields. -/
structure WHdr where
  bytes : Bytes
  len : Nat
  chan : Nat
  seq : Nat
deriving DecidableEq, Repr

/-- A frame being received: the mode it was detected in, its header once read; the elements decided since the sync word or the
header, newest first, the sum of the element under way and over how many data positions. -/
structure WRx where
  mode : Nat
  hdr : Option WHdr := none
  bits : List Bool := []
  acc : Rat := 0
  cnt : Nat := 0
deriving DecidableEq, Repr

/-- A host frame received (R304, WH_RECV). -/
structure WMsg where
  mode : Nat
  seq : Nat
  tick : Nat
  wqf : Option Int
  payload : Bytes
deriving DecidableEq, Repr

/-- A decimation chain (R297 to R299): CIC registers, FIR histories (newest first), input samples not yet decimated, both
stages' banks (empty for the built-in set), the active bank, a swap waiting with its wait flag, and how many outputs are
still UNSETTLED. -/
structure Chain where
  ints : List Nat := List.replicate 5 0
  combs : List Nat := List.replicate 5 0
  got : Nat := 0
  h1 : List Int := []
  n1 : Nat := 0
  h2 : List Int := []
  bank : Nat := 0
  coef1 : List (List Int) := [[], []]
  coef2 : List (List Int) := [[], []]
  swap : Option Bool := none
  unsettled : Nat := 0
  unsNext : Nat := 0
  out : Int := 0
  outUns : Bool := false
deriving DecidableEq, Repr

/-- A WH_CAPTURE in progress: its command, point, entries still to take, bytes so far. -/
structure WCap where
  owner : CmdKey
  chain : Nat
  point : Nat
  left : Nat
  data : Bytes := []
deriving DecidableEq, Repr

/-- The demodulator of a W chain (R300 to R306). Of the detector: sum and number of the samples of the symbol under way and of
the last 64. Of the AGC: the last 128 chain outputs (none when UNSETTLED), the fraction of its rise. Of the DFE: its inputs
newest first, the output count, the pilots' place `grid` in it, the value of the next pilot, the last symbol's place in its
group of 32, the taps c, b and t, the decisions d, the last output; its outputs at data positions newest first, and of the
last settled pilots a(v) y, the value and the chain's output. `weak` counts pilots below half the limit; `lightNow` and
`lockNow` are what the measures say; `tests` are the sync words' differences by mode at the boundary just tested. -/
structure WDemod where
  sum : Nat := 0
  num : Nat := 0
  lights : List (Nat × Nat) := []
  outs : List (Option Int) := []
  frac : Nat := 0
  xs : List (Option Rat) := []
  pos : Nat := 0
  grid : Nat := 0
  next : Bool := false
  last : Nat := 0
  c : List Rat := [0, 0, 0, 0, 0, 0, 0, 0, 1, 0, 0, 0, 0, 0, 0, 0]
  b : List Rat := [0, 0, 0, 0]
  t : Rat := 0
  d : List Rat := [0, 0, 0, 0]
  y : Rat := 0
  fresh : Bool := false
  agcOut : Rat := 0
  data : List Rat := []
  pilots : List (Rat × Bool × Int) := []
  weak : Nat := 0
  lightNow : Bool := false
  lockNow : Bool := false
  tests : Option (List Nat) := none
deriving DecidableEq, Repr

/-- The Whisper channel of a carrier. `gain` is the envelope gain of stage 7 in 0.1 % (R288). -/
structure WhC where
  host : List WFrame := []
  dev : List WFrame := []
  cur : Option WCur := none
  lastEnd : Option Nat := none
  seq : Nat := 0
  pendMode : Option Nat := none
  pendDepth : Option Nat := none
  gain : Nat := 1000
  light : Bool := false
  lock : Bool := false
  rx : Option WRx := none
  frost : Bool := false
  queue : List WMsg := []
  lastGood : Nat := 0
  lastSent : Nat := 0
  lastSentSeq : Nat := 0
  lastGoodSeq : Nat := 0
  wqf : Option Int := none
  wqfGood : Nat := 0
  depthEst : Option Int := none
  agc : Nat := 0
  clockOff : Int := 0
  w : Chain := {}
  m : Chain := {}
  satTick : Bool := false
  running : Bool := false
  dem : WDemod := {}
deriving DecidableEq, Repr

/-- The Whisper channel. -/
structure Wh where
  a : WhC := {}
  b : WhC := {}
  caps : List WCap := []
deriving DecidableEq, Repr

/-! ## Domains and the mate link (R315 to R340) -/

/-- An entry of the domain receive queue (R321): kind 1 host, 2 call. -/
structure DmEnt where
  kind : Nat
  origin : Nat
  msgId : Nat
  tick : Nat
  body : Bytes
deriving DecidableEq, Repr

/-- What is known of a neighbour (Line A, Line B, mate): member ID, adopted version, key epoch; since when its version or
epoch has differed, and whether that was reported; when its identity beacon last came. -/
structure Nbr where
  member : Nat := 0
  version : Nat := 0
  epoch : Nat := 0
  skewSince : Option Nat := none
  skewed : Bool := false
  epochSince : Option Nat := none
  epochSkew : Bool := false
  seenAt : Option Nat := none
deriving DecidableEq, Repr

/-- A time check (R325): local lag, offset and delay, the runs of beacons beyond and within the limits, whether skewed. -/
structure TimeChk where
  lag : Option Int := none
  offset : Option Int := none
  delay : Option Int := none
  badRun : Nat := 0
  goodRun : Nat := 0
  skewed : Bool := false
deriving DecidableEq, Repr

/-- A document fetch (R324): the path it asks, the version, the bytes received by offset, when it started, requests sent
again. -/
structure Fetch where
  path : Nat
  version : Nat
  parts : SMap Byte := []
  started : Nat
  again : Nat := 0
deriving DecidableEq, Repr

/-- A CALL that has arrived (R328). -/
structure Call where
  origin : Nat
  number : Nat
  version : Nat
  t : Nat
deriving DecidableEq, Repr

/-- A DM_CALL_BIND that waits for its call (R328): `limit` is D, a tick number. -/
structure Bind where
  p : Packet
  crc : Nat
  handle : Nat
  origin : Nat
  number : Nat
  limit : Nat
deriving DecidableEq, Repr

/-- A version being written ahead and adopted (R323): the document, the DM_PUBLISH that waits, and from when it is
adopted. -/
structure Adopt where
  version : Nat
  doc : Bytes
  owner : Option CmdKey
  due : Option Nat := none
deriving DecidableEq, Repr

/-- Messages leaving by a path, and how much of the first has gone. -/
structure OutQ where
  msgs : List Bytes := []
  off : Option Nat := none
deriving DecidableEq, Repr

/-- Domain membership and messages. Paths are numbered as the bits of DM_LINKS. -/
structure Dm where
  member : Bool := false
  joinedOnce : Bool := false
  domain : Nat := 0
  id : Nat := 0
  key : Bytes := []
  doc : Bytes := []
  msgId : Nat := 0
  sent : List (Nat × Nat) := []
  seen : List (Nat × Nat × Nat) := []
  queue : List DmEnt := []
  inbox : List (Nat × Bytes) := []
  up : List Bool := List.replicate 5 false
  whAt : List (Option Nat) := [none, none]
  whBeacon : List (Option Nat) := [none, none]
  out : List OutQ := List.replicate 3 {}
  reasm : List Reasm := List.replicate 3 {}
  nbrs : List Nbr := List.replicate 3 {}
  time : List TimeChk := List.replicate 3 {}
  fetch : Option Fetch := none
  adopt : Option Adopt := none
  calls : List Call := []
  binds : List Bind := []
  conflict : Option Nat := none
  recDomain : Nat := 0
  recVersion : Nat := 0
deriving DecidableEq, Repr

/-- A lane of the mate link (R330). -/
structure MateLane where
  up : Bool := false
  good : Nat := 0
  quiet : Nat := 0
deriving DecidableEq, Repr

/-- A switch of roles under way (R334). -/
structure Switch where
  mine : Bool
  owner : Option CmdKey
  t : Nat
  acked : Bool := false
  done : Bool := false
deriving DecidableEq, Repr

/-- The mate link and the device's role (R329 to R335). Times are elapsed ticks unless named as tick numbers. `want` is
the tick number of a decision to become ACTIVE, `idleAt` when a frame that shows ACTIVE = 0 and was sent at or after it
came; `anyAt` the last message of any kind from the peer, `heardAt` the last with HEARD; `peer` the code of
MATE_STATUS; `down` whether MATE_DOWN was raised since the loss; `seen` whether a frame was taken in this tick. -/
structure Mate where
  active : Bool := false
  lanes : List MateLane := [{}, {}]
  link : Bool := false
  rxLost : Nat := 0
  confirmRun : Nat := 0
  confirmed : Bool := false
  activateAt : Option Nat := none
  want : Option Nat := none
  idleAt : Option Nat := none
  peerFlags : Nat := 0
  peerMember : Option Nat := none
  peerDie : Bytes := []
  peerClients : Nat := 0
  peerTick : Nat := 0
  conflict : Bool := false
  switch : Option Switch := none
  healthRun : Nat := 0
  lostAt : Option Nat := none
  heardAt : Option Nat := none
  anyAt : Option Nat := none
  heardTick : Nat := 0
  peer : Nat := 0
  grantTick : Option Nat := none
  probeAt : Option Nat := none
  seen : Bool := false
  down : Bool := false
  outF : Bytes := []
deriving DecidableEq, Repr

/-! ## Timing (R341 to R366) -/

/-- The states of the digital PLL (R350, codes of R359). -/
inductive Pll
  | freerun
  | acquiring
  | locked
  | holdover
  | thaw
  | stopped
deriving DecidableEq, Repr

/-- One of the nine references (R343, R344, R347): what is measured of it, the last 1PPS edge in ps of elapsed time, and its
qualification. -/
structure Ref where
  qualified : Bool := false
  present : Bool := false
  freq : Option Int := none
  edge : Option Nat := none
  rate : Option Int := none
  goodSince : Option Nat := none
  hadDisq : Bool := false
  wtrEnd : Option Nat := none
  priority : Nat := 0
deriving DecidableEq, Repr

/-- A PPS output (R357, R358): times are elapsed ticks; `lastPs` is the last edge's place in its tick in ps, `since` the tick
from which an aligned edge is awaited. -/
structure Pps where
  enabled : Bool := false
  aligned : Bool := false
  waiting : Bool := false
  lastEdge : Option Nat := none
  lastPs : Nat := 0
  since : Nat := 0
  highUntil : Nat := 0
  width : Nat := 100000
  offset : Int := 0
deriving DecidableEq, Repr

/-- The timing subsystem. `loop` is the PLL's own part of the control value, from `base` and the sum `errSum` of phase errors
since the loop closed (R349); `recent` the control values of the last second, each with the elapsed tick from which it held,
newest first (R352); `ahead` how far the timescale has run ahead of the nominal rate of XO_IN, in attoseconds (R341); `quads` the
rates of the host lanes' TX PLLs by quad in 0.001 ppb (R361). -/
structure Tm where
  timescaleSet : Bool := false
  pll : Pll := .freerun
  sel : Option Nat := none
  auto : Bool := false
  manual : Nat := 0
  selWait : Option (Nat × Bool × Nat × Bool) := none
  prioWait : Option (Nat × List Nat) := none
  refs : List Ref := List.replicate 9 {}
  control : Int := 0
  loop : Int := 0
  base : Int := 0
  errSum : Int := 0
  edgeAt : Option Int := none
  recent : List (Nat × Int) := []
  ahead : Int := 0
  quads : List Int := List.replicate 8 0
  holdVal : Int := 0
  holdQual : Nat := 0
  forced : Bool := false
  forceWait : Option Bool := none
  phaseErr : Option Int := none
  alarmed : Bool := false
  inBandSince : Option Nat := none
  limitFreeSince : Option Nat := none
  history : List (Nat × Int) := []
  adjFs : Int := 0
  adjActive : Bool := false
  lastStep : Nat := 0
  lastSteer : Nat := 0
  steerAt : Option Nat := none
  steerOffset : Int := 0
  steerTick : Nat := 0
  pps : List Pps := [{}, {}]
  todSent : Option Nat := none
  todOut : List Bool := []
  todRate : Nat := 1
  todTick : Nat := 0
  todMsg : Bytes := List.replicate 16 0
deriving DecidableEq, Repr

/-! ## Calibration (R367 to R387) -/

/-- The calibration states of a carrier (R370, codes of CAL_STATE). -/
inductive CalSt
  | off
  | boot
  | service
  | test
  | recovery
deriving DecidableEq, Repr

/-- A trim on its way (R375): slice and trim, start and target, ramp ticks so far, the ramp length and step limit it
started with. -/
structure Ramp where
  slice : Nat
  trim : Nat
  from_ : Int
  goal : Int
  j : Nat := 0
  len : Nat
  step : Nat
  asked : Bool := false
deriving DecidableEq, Repr

/-- A position whose slice is to be replaced (R373, R376): because the slice failed, or because its required trims are
beyond the threshold. -/
structure Subst where
  pos : Nat
  failed : Bool
  req : List Int
deriving DecidableEq, Repr

/-- A substitution under way (R376): the spare, and the crossfade's ticks so far and length, none while the spare is
being calibrated. -/
structure Fade where
  sub : Subst
  spare : Nat
  fade : Option (Nat × Nat) := none
deriving DecidableEq, Repr

/-- A converter (R367 to R369): the applied trims of its 68 slices and those of the last foreground calibration, the slice
map, the out-of-service slices, the filled positions, the position of the next sample and the last code; ramps and substitutions; temperature, and temperature and tick of the
last completed calibration; whether its drift has been reported since. -/
structure Conv where
  trims : List (List Int) := List.replicate 68 [0, 0, 0, 0]
  fore : List (List Int) := List.replicate 68 [0, 0, 0, 0]
  map : List Nat := List.range 64
  out : Nat := 0
  filled : Nat := 0
  ramps : List Ramp := []
  subs : List Subst := []
  cur : Option Fade := none
  phase : Nat := 0
  last : Int := 0
  held : Int := 0
  temp : Option Int := none
  readIn : Option Nat := none
  calTemp : Option Int := none
  calTick : Nat := 0
  calRate : Nat := 0
  drifted : Bool := false
deriving DecidableEq, Repr

/-- A calibration run (R373, R376): who waits for it, its converters, those whose measurement has not ended, when it
began, whether it stores at its end, what it changed, whether the store write is under way. A substitution asked for by
CAL_SPARE_SET is a run without a measurement. -/
structure CalRun where
  owner : Option CmdKey := none
  mask : Nat
  meas : Nat
  start : Nat
  store : Bool := false
  changed : Bool := false
  storing : Bool := false
  noSpare : Bool := false
  no : Nat := 0
deriving DecidableEq, Repr

/-- Converters and calibration: the states of both carriers, the 16 converters, the runs in order; the converters whose
foreground calibration (of BOOT or of a retune) is awaited and the repeats of this BOOT; the copy of the store and
whether a valid slot has been found or written. -/
structure Cal where
  stA : CalSt := .off
  stB : CalSt := .off
  convs : List Conv := List.replicate 16 {}
  runs : List CalRun := []
  runNo : Nat := 0
  left : Nat := 0
  repeats : List Nat := List.replicate 16 0
  bootChanged : List Bool := [false, false]
  copy : Option Bytes := none
  valid : Bool := false
deriving DecidableEq, Repr

/-! ## Engines and the Steward (R388 to R422) -/

/-- A run of an engine (R389): tenant and image handle, slot index, cold start or not, registers, program counter and that of the last instruction executed,
the cycles used of the budget; the cycle from which each register is ready (S, V, P in turn), the ends of outstanding Store
accesses (true for a write); the bytes passed on each port; a sample taken whose PC is still to come (R453): instructions
until then, cycle, stalled; the status once it has ended (R399). -/
structure Run where
  tenant : Nat
  image : Nat
  slot : Nat
  cold : Bool
  sr : List (BitVec 64) := List.replicate 16 0
  vr : List (BitVec 512) := List.replicate 32 0
  pr : List (BitVec 64) := List.replicate 8 0
  pc : Nat
  lastPc : Nat := 0
  cycle : Nat
  ready : SMap Nat := []
  pend : List (Nat × Bool) := []
  pos : List Nat := [0, 0, 0, 0, 8, 8, 8, 8]
  ahead : List Bytes := [[], [], [], []]
  samp : Option (Nat × Nat × Bool) := none
  ended : Option Nat := none
deriving DecidableEq, Repr

/-- An engine: the tenant and image of its previous run while that can make the next one warm, local memory, this
tick's run. -/
structure Eng where
  last : Option (Nat × Nat) := none
  mem : SMap Byte := []
  run : Option Run := none
deriving DecidableEq, Repr

/-- The states of a tenant (R402). -/
inductive TenSt
  | off
  | active
  | quarantined
deriving DecidableEq, Repr

/-- A tenant (R402 to R419): state; renewal of its page lease and the boundaries missed; refusals of this epoch and the
last one (tick, space, engine, address); overruns of this tick and the last; ring bases; the last EVT code and the
engine it came from in this tick; grants and requests of the last arbitration. -/
structure Tenant where
  st : TenSt := .off
  renewed : Bool := false
  missed : Nat := 0
  renewTick : Nat := 0
  refusals : Nat := 0
  refTick : Nat := 0
  refSpace : Nat := 0
  refEng : Nat := 0
  refAddr : Nat := 0
  overs : Nat := 0
  overLast : Nat := 0
  bases : List Nat := List.replicate 8 0
  evt : Nat := 0
  evtEng : Option Nat := none
  granted : Nat := 0
  grantedLast : Nat := 0
  requested : Nat := 0
deriving DecidableEq, Repr

/-- A stored program image (R400, R401). -/
structure Image where
  handle : Nat
  tenant : Nat
  code : Bytes
  data : Bytes
  entry : Nat
  ports : Nat
  pages : List Nat
deriving DecidableEq, Repr

/-- A waiting page request (R407): its command, tenant, pages asked for, flags, place in the order of acceptance, elapsed
tick of acceptance, whether a window has passed over it. -/
structure PageReq where
  owner : CmdKey
  tenant : Nat
  n : Nat
  wait : Bool
  consec : Bool
  order : Nat
  at_ : Nat
  waited : Bool := false
deriving DecidableEq, Repr

/-- A page of the Store (R407, R410, R428 to R431): the tenant that holds it and whether as an image page; since when it
is being zeroised; poisoned, quarantined (with the elapsed tick), fallow, waiting for the fallow record, held out of
service, marked to be fallowed. All at default, it is free. -/
structure Pg where
  owner : Option Nat := none
  image : Bool := false
  zero : Option Nat := none
  poison : Bool := false
  quar : Option Nat := none
  fallow : Bool := false
  fallowing : Bool := false
  retired : Bool := false
  marked : Bool := false
deriving DecidableEq, Repr

/-- The Steward: engines, tenants, round-robin pointers, whether a guarantee is short, images, requests and loads that
wait, revocations and quarantines for the next window, engine tests asked for, disabled engines, pages, whether
STW_PAGES_FREE is below STW_PAGE_LOW, what was raised in this tick. -/
structure Stw where
  engs : SMap Eng := []
  tenants : List Tenant := List.replicate 2 ({ st := .active } : Tenant) ++ List.replicate 62 ({} : Tenant)
  rr : List Nat := List.replicate 8 0
  short : Bool := false
  images : List Image := []
  reqs : List PageReq := []
  loads : List (CmdKey × Nat × Bytes) := []
  revokes : List (Option CmdKey × Nat × Bool) := []
  tests : List (CmdKey × Nat) := []
  disabled : Nat := 0
  tested : Nat := 0
  pages : SMap Pg := []
  low : Bool := false
  noEng : Bool := true
  once : List Nat := []
deriving DecidableEq, Repr

/-! ## The Store, DMA and CRC units (R423 to R444) -/

/-- A merge buffer entry (R426): its page, the bytes written by offset, the elapsed tick of the last write. -/
structure Merge where
  page : Nat
  bytes : SMap Byte
  at_ : Nat
deriving DecidableEq, Repr

/-- A scrub in progress (R430): its command (none for the periodic one), range, next page, and its summary so far. -/
structure Scrub where
  owner : Option CmdKey
  first : Nat
  count : Nat
  done : Nat := 0
  began : Nat
  checked : Nat := 0
  clean : Nat := 0
  fixed : Nat := 0
  bits : Nat := 0
  worst : Nat := 0
  worstBits : Nat := 0
  poisoned : Nat := 0
  skipped : Nat := 0
  firstBad : Nat := 0xFFFF
deriving DecidableEq, Repr

/-- A descriptor's fields (R433). -/
structure Desc where
  source : Nat
  target : Nat
  len : Nat
  dir : Nat
  srcFixed : Bool
  tgtFixed : Bool
  intr : Bool
  feed : Bool
  shuffle : Nat
  elem : Nat
  crc : Nat
  next : Nat
deriving DecidableEq, Repr

/-- A descriptor being moved (R433, R436): its fields, what the host reads of its source bring, the bytes read so far, and those of
them that wait for a reshuffle. -/
structure DmaCur where
  desc : Desc
  data : Bytes := []
  done : Nat := 0
  buf : Bytes := []
deriving DecidableEq, Repr

/-- A DMA channel (R433 to R437): the tenant that holds it, its chain's command, next descriptor address, index, bytes
moved, the descriptor whose writes are out, an abort's status, the last forbidden or poisoned address and status. -/
structure Dma where
  tenant : Option Nat := none
  run : Option CmdKey := none
  next : Nat := 0
  index : Nat := 0
  moved : Nat := 0
  cur : Option DmaCur := none
  abort : Option Nat := none
  addr : Nat := 0
  status : Nat := 0
  pages : List Nat := []
deriving DecidableEq, Repr

/-- A CRC unit (R438, R439): algorithm, fold mode, running value, sequence, the channel that claims it. -/
structure Crc where
  alg : Nat := 0
  fold : Nat := 0
  run : Nat := 0xFFFFFFFF
  seq : Nat := 0
  claim : Option Nat := none
deriving DecidableEq, Repr

/-- The Store: stored content, merge buffer (most recently written first), decode cache (most recently used first), the
bit errors in stored codewords and those STORE_INJECT has still to make; scrubs, the periodic scrub's last start; flush
commands that wait; the fallow list as recorded; last poisoned page; channels and CRC units; what was raised in this
tick. -/
structure Str where
  mem : SMap Byte := []
  merge : List Merge := []
  cache : List Nat := []
  errs : SMap Nat := []
  inject : SMap Nat := []
  scrubs : List Scrub := []
  periodic : Option Scrub := none
  lastScrub : Nat := 0
  fallowList : List Nat := []
  lastPoison : Option Nat := none
  ch : List Dma := List.replicate 16 ({} : Dma)
  crc : List Crc := List.replicate 8 ({} : Crc)
  once : List Nat := []
deriving DecidableEq, Repr

/-! ## The whole -/

/-- The reasons a command stops the model. -/
inductive Fault
  /-- Raised by every meaning of a host command whose packet is not well formed (the buffer bytes handed over are not
  the PARAM_LEN bytes the header names), and by NOP with the opcode of another row. No such packet can be read by the
  device as this command, so stopping is safe. -/
  | illFormed
deriving DecidableEq, Repr

/-- The reasons a command is refused by the model. -/
inductive Refusal
  /-- The command has no meaning in this model; named by its mnemonic. Safe: nothing can be proved of its effect. -/
  | notModelled (mnemonic : String)
deriving DecidableEq, Repr

/-- The device: every piece of state the specification gives it, and the queue of commands that wait. -/
structure State where
  tick : Nat := 0
  elapsed : Nat := 0
  windowDone : Bool := false
  harvestDone : Bool := false
  leaseDone : Bool := false
  satTick : Bool := false
  params : SMap Bytes := []
  cfgVersion : Nat := 0
  cmd : Cmd := {}
  flash : Flash := {}
  boot : Boot := {}
  sys : Sys := {}
  ev : Events := {}
  obs : Obs := {}
  pwr : Pwr := {}
  tm : Tm := {}
  tx : Pair Tx := { a := {}, b := {} }
  rx : Pair Rx := { a := {}, b := {} }
  fec : Fec := {}
  frm : Pair Frm := { a := {}, b := {} }
  lag : Lag := {}
  cli : Cli := {}
  cry : Cry := {}
  wh : Wh := {}
  dm : Dm := {}
  mate : Mate := {}
  cal : Cal := {}
  stw : Stw := {}
  str : Str := {}
  pins : Pins := {}
  hostMem : List Host.Cell := []
  free : Nat := 0
  pending : List Instr := []
deriving DecidableEq, Repr

/-- The machine right after RESET_N is asserted (R495, R496): every register at its reset value, nothing enabled, the
queue of commands empty. The default values above are these reset values. -/
def State.reset : State := {}

end Sys2Proof.Machine
end

