-- ==== Sys2Proof/Config.lean ====
section
/-! DEFINITION. Config.lean: what a die, a board or an outside algorithm fixes, and the free values of what the
specification leaves open. Nothing here has a value a proof could see. -/
namespace Sys2Proof.Config

/-- Silicon revision fused into the die (R513, IDENTIFY). -/
opaque siliconRev : BitVec 16

/-- The 16-byte die ID (R96, IDENTIFY). -/
opaque dieId : BitVec 128

/-- The 48-byte key hash fused into the die (R500). -/
opaque keyHash : BitVec 384

/-- The fused security floor (R500). -/
opaque securityFloor : Nat

/-- The fused start voltage of the die in mV (R471). -/
opaque startVoltage : Nat

/-- A value the specification does not give, drawn afresh with the State's counter. -/
opaque freeValue : Nat → Nat

/-- A byte string the specification does not give (captured samples and the like), drawn with the State's counter. -/
opaque freeBytes : Nat → Nat → Bytes

/-- The built-in coefficient set of stage FIR1 or FIR2 of the Whisper chains (R297), which the specification describes by its
response only; `whFir` holds it to that. -/
opaque whFirSet : Nat → List Int

/-- The internal limit of the timing error's variance (R142). -/
opaque timingLimit : Rat

/-- The correlation above which the alignment sequence counts as found (R146, R198). -/
opaque fasLimit : Rat

/-- The modulus of the blind adaptation (R144). -/
opaque cmaModulus : Rat

/-- The angular speed in krad/s that a change of the equaliser's taps shows (R145). -/
opaque sopSpeed : List (List Rat) → List (List Rat) → Nat

/-- Taps with a dispersion in ps/nm taken out of them (R141). -/
opaque tapsLess : Int → List (List Rat) → List (List Rat)

/-- The unit of captured symbols (R162). -/
opaque captureScale : Rat

/-- The coefficient of a perturbation term from the spans of a line (R148): spans (length, dispersion, attenuation, launch
power, nonlinearity), offsets. -/
opaque spanCoef : List (List Int) → Int → Int → Rat × Rat

/-- Unit `i` of the alignment markers of a client type, those of its second flow after those of the first (R225, R243): the spec
names them and does not give them. -/
opaque markerUnit : Nat → Nat → BitVec 257

/-- The limit of the pilots' correlation (R302): the specification names a limit and gives no value. -/
opaque pilotLimit : Rat

/-- The scale of WH_CAPTURE's DFE outputs (R311). -/
opaque dfeScale : Rat

/-- The damping of the PLL's loop (R349), which the specification bounds by its gain peaking; `pllDamping` holds it to that. -/
opaque pllDamping : Rat

/-- Does the engines' ROT move lane contents toward higher lane numbers (R393 does not say)? -/
opaque rotUp : Bool

/-- Does REDADD take its lanes as signed numbers (R393 does not say)? -/
opaque redSigned : Bool

/-- Does EXT extend its lane's sign (R393 does not say)? -/
opaque extSigned : Bool

end Sys2Proof.Config
end

