-- ==== Sys2Proof/Machine/Bits.lean ====
section
/-! DEFINITION. Bits.lean: byte order, bit fields, two's complement, sparse maps and the check-value arithmetic that
every other definition of the model shares. -/
namespace Sys2Proof

/-- The byte that holds the low 8 bits of `n`. -/
def byteOf (n : Nat) : Byte := BitVec.ofNat 8 n

/-- `k` bytes of `n`, little-endian (R4). -/
def le : Nat → Nat → Bytes
  | 0, _ => []
  | k + 1, n => byteOf n :: le k (n / 256)

/-- `k` bytes of `n`, most significant first. -/
def be (k n : Nat) : Bytes := (le k n).reverse

/-- The number a little-endian byte string holds (R4). -/
def unle : Bytes → Nat
  | [] => 0
  | b :: bs => b.toNat + 256 * unle bs

/-- The number a big-endian byte string holds. -/
def unbe (bs : Bytes) : Nat := unle bs.reverse

/-- The bytes [off : off + n - 1] of a string. -/
def slice (bs : Bytes) (off n : Nat) : Bytes := (bs.drop off).take n

/-- The little-endian field of `n` bytes at offset `off`. -/
def fld (bs : Bytes) (off n : Nat) : Nat := unle (slice bs off n)

/-- Byte `off` as a number, 0 beyond the end. -/
def byteAt (bs : Bytes) (off : Nat) : Nat := (bs.getD off 0).toNat

/-- Bit `i` of a number (R3). -/
def bit (n i : Nat) : Bool := n.testBit i

/-- Bits [hi:lo] of a number (R3). -/
def bits (n hi lo : Nat) : Nat := (n >>> lo) % 2 ^ (hi + 1 - lo)

/-- A Bool as the number of its bit. -/
def b2n (b : Bool) : Nat := if b then 1 else 0

/-- The two's complement reading of the low `w` bits of `n`. -/
def sx (w n : Nat) : Int :=
  let m := n % 2 ^ w
  if m < 2 ^ (w - 1) then (m : Int) else (m : Int) - (2 ^ w : Nat)

/-- The low `w` bits of an integer in two's complement. -/
def ux (w : Nat) (i : Int) : Nat := (i % ((2 ^ w : Nat) : Int)).toNat

/-- `n` zero bytes. -/
def zeros (n : Nat) : Bytes := List.replicate n 0

/-- A string cut or zero-padded to `n` bytes. -/
def padTo (n : Nat) (bs : Bytes) : Bytes := bs.take n ++ zeros (n - bs.length)

/-- Are all of these bytes 0? -/
def allZero (bs : Bytes) : Bool := bs.all (· == 0)

/-- Overwrite a string at `off` with `v` (bytes outside the string are dropped). -/
def patch (bs : Bytes) (off : Nat) (v : Bytes) : Bytes :=
  bs.take off ++ v.take (bs.length - off) ++ bs.drop (off + v.length)

/-- The number with bit `i` of width-free `n` set or cleared. -/
def setBit (n i : Nat) (v : Bool) : Nat :=
  if v then n ||| (1 <<< i) else if n.testBit i then n - (1 <<< i) else n

/-- The set bits of `n` below `w`, lowest first. -/
def bitsSet (w n : Nat) : List Nat := (List.range w).filter (n.testBit ·)

/-- How many bits of `n` below `w` are set. -/
def popcount (w n : Nat) : Nat := (bitsSet w n).length

/-- The smallest multiple of `k` that is at least `n`. -/
def roundUp (k n : Nat) : Nat := (n + (k - 1)) / k * k

/-- Floor division of an integer by a positive number. -/
def ifloor (n : Int) (d : Nat) : Int := n.fdiv d

/-- Integer clamped to [lo, hi]. -/
def clampI (lo hi v : Int) : Int := max lo (min hi v)

/-! Check values. -/

/-- One bit step of a reflected CRC. -/
def crcStepR (poly c : Nat) : Nat := if c % 2 = 1 then (c / 2) ^^^ poly else c / 2

/-- One byte of a reflected CRC. -/
def crcByteR (poly c : Nat) (b : Byte) : Nat :=
  (List.range 8).foldl (fun c _ => crcStepR poly c) (c ^^^ b.toNat)

/-- A reflected CRC register run over a byte string. -/
def crcRefl (poly seed : Nat) (bs : Bytes) : Nat := bs.foldl (crcByteR poly) seed

/-- One bit step of a `w`-bit CRC, most significant bit first. -/
def crcStepM (w poly c : Nat) : Nat :=
  if c.testBit (w - 1) then ((2 * c) % 2 ^ w) ^^^ poly else (2 * c) % 2 ^ w

/-- One byte of a `w`-bit CRC, most significant bit first (`w` at least 8). -/
def crcByteM (w poly c : Nat) (b : Byte) : Nat :=
  (List.range 8).foldl (fun c _ => crcStepM w poly c) (c ^^^ (b.toNat <<< (w - 8)))

/-- A `w`-bit CRC register run over a byte string, most significant bit first. -/
def crcMsb (w poly seed : Nat) (bs : Bytes) : Nat := bs.foldl (crcByteM w poly) seed

/-- CRC-32C with the given seed, final XOR applied (R77). -/
def crc32cSeed (seed : Nat) (bs : Bytes) : Nat := crcRefl 0x82F63B78 seed bs ^^^ 0xFFFFFFFF

/-- CRC-32C with the usual seed of all ones. -/
def crc32c (bs : Bytes) : Nat := crc32cSeed 0xFFFFFFFF bs

/-- The number whose bit `i`, for `i` below `n`, is `f i`. -/
def maskOf (n : Nat) (f : Nat → Bool) : Nat := (List.range n).foldl (fun m i => if f i then m ||| 2 ^ i else m) 0

/-! Sparse maps. -/

/-- The entry of key `k`, if listed. -/
def SMap.find {α : Type} (m : SMap α) (k : Nat) : Option α := List.lookup k m

/-- What key `k` reads as, `d` being what an unlisted key reads as. -/
def SMap.get {α : Type} (d : α) (m : SMap α) (k : Nat) : α := (SMap.find m k).getD d

/-- The map without key `k`. -/
def SMap.del {α : Type} (k : Nat) : SMap α → SMap α
  | [] => []
  | (j, v) :: m => if j = k then m else if k < j then (j, v) :: m else (j, v) :: SMap.del k m

/-- The map with key `k` listed with `x`, in its place. -/
def SMap.ins {α : Type} (k : Nat) (x : α) : SMap α → SMap α
  | [] => [(k, x)]
  | (j, v) :: m =>
    if k < j then (k, x) :: (j, v) :: m
    else if k = j then (k, x) :: m
    else (j, v) :: SMap.ins k x m

/-- Write key `k`: writing what an unlisted key reads as removes the entry. -/
def SMap.put {α : Type} [DecidableEq α] (d : α) (m : SMap α) (k : Nat) (x : α) : SMap α :=
  if x = d then SMap.del k m else SMap.ins k x m

/-- The canonical form: strictly rising keys, no entry equal to the default. -/
def SMap.wf {α : Type} [DecidableEq α] (d : α) : SMap α → Bool
  | [] => true
  | [(_, v)] => v ≠ d
  | (j, v) :: (k, w) :: m => v ≠ d && j < k && SMap.wf d ((k, w) :: m)

/-- Write a byte string at consecutive keys. -/
def SMap.putAll {α : Type} [DecidableEq α] (d : α) (m : SMap α) (k : Nat) : List α → SMap α
  | [] => m
  | x :: xs => SMap.putAll d (SMap.put d m k x) (k + 1) xs

/-- Read `n` consecutive keys. -/
def SMap.getAll {α : Type} (d : α) (m : SMap α) (k n : Nat) : List α :=
  (List.range n).map fun i => SMap.get d m (k + i)

/-! Per-line pairs. -/

/-- The value of line `c`. -/
def Pair.get {α : Type} (p : Pair α) : Line → α
  | .a => p.a
  | .b => p.b

/-- The pair with line `c`'s value changed by `f`. -/
def Pair.upd {α : Type} (p : Pair α) (c : Line) (f : α → α) : Pair α :=
  match c with
  | .a => { p with a := f p.a }
  | .b => { p with b := f p.b }

/-- The other line. -/
def Line.other : Line → Line
  | .a => .b
  | .b => .a

/-- The instance number of a line (R97): 1 for Line A, 2 for Line B. -/
def Line.inst : Line → Nat
  | .a => 1
  | .b => 2

/-- 0 for Line A, 1 for Line B: the order in which per-carrier lists are laid out (R446). -/
def Line.ix : Line → Nat
  | .a => 0
  | .b => 1

/-- The line an instance or CARRIER code names. -/
def lineOf (n : Nat) : Line := if n = 2 then .b else .a

/-- Both lines in order. -/
def bothLines : List Line := [.a, .b]

/-- Update entry `i` of a list, if it exists. -/
def lmod {α : Type} (l : List α) (i : Nat) (f : α → α) : List α := l.modify i f

/-- The bits of a number, least significant first. -/
def bitsLsb (w n : Nat) : List Bool := (List.range w).map n.testBit

end Sys2Proof
end

