-- ==== Sys2Proof/Machine/Real.lean ====
section
/-! DEFINITION. Real.lean: the functions of real numbers the signal processing names (R111 to R119, R138, R139, R151): roots, powers
of ten, angles, the root-raised cosine, the fractional delay, dispersion, the inverse of the sine. The spec names the functions and
no precision: each is computed by its series far beyond the 12 bits of a sample (DESIGN CHOICE, log entry 169). -/
namespace Sys2Proof.Machine

/-- The sum of a list of numbers. -/
def ratSum (l : List Rat) : Rat := l.foldl (· + ·) 0

/-- A number to 96 binary places, so that sums of many terms stay of one size. -/
def trim96 (x : Rat) : Rat := ((x * 2 ^ 96).floor : Rat) / 2 ^ 96

/-- The integer part of a square root, bit by bit. -/
def natRoot (n : Nat) : Nat :=
  (List.range (Nat.log2 n / 2 + 1)).foldr (fun i r => if (r + 2 ^ i) ^ 2 ≤ n then r + 2 ^ i else r) 0

/-- The square root to 60 binary places; 0 for what is not positive. -/
def rootOf (x : Rat) : Rat := (natRoot (x * 2 ^ 120).floor.toNat : Rat) / 2 ^ 60

/-- ln((1 + z) / (1 - z)) by `k` terms of its series. -/
def atanhTwice (k : Nat) (z : Rat) : Rat :=
  2 * ratSum ((List.range k).map fun i => z ^ (2 * i + 1) / (2 * i + 1 : Nat))

/-- The exponential of a number of magnitude below 3: 60 terms of its series. -/
def expOf (x : Rat) : Rat :=
  ((List.range 60).foldl (fun (a : Rat × Rat) i => (a.1 + a.2, trim96 (a.2 * x / (i + 1 : Nat)))) (0, 1)).1

/-- The natural logarithm of 10, as three times that of 2 and that of 5/4. -/
def ln10 : Rat := 3 * atanhTwice 100 (1 / 3) + atanhTwice 100 (1 / 9)

/-- 10 to a power. -/
def pow10 (x : Rat) : Rat := (10 : Rat) ^ x.floor * expOf (trim96 ((x - x.floor) * ln10))

/-- The arc whose tangent is the reciprocal of `n`, by 80 terms of its series. -/
def arcInv (n : Nat) : Rat :=
  ratSum ((List.range 80).map fun i => (-1) ^ i / ((2 * i + 1 : Nat) * (n : Rat) ^ (2 * i + 1)))

/-- The number π. -/
def piOf : Rat := 16 * arcInv 5 - 4 * arcInv 239

/-- Cosine and sine of a small angle, by 30 terms of each series. -/
def cosSinSmall (x : Rat) : Rat × Rat :=
  let t := (List.range 60).foldl (fun (a : Rat × Rat × Rat) i =>
    let (c, s, p) := a
    let (c, s) := match i % 4 with
      | 0 => (c + p, s)
      | 1 => (c, s + p)
      | 2 => (c - p, s)
      | _ => (c, s - p)
    (c, s, trim96 (p * x / (i + 1 : Nat)))) (0, 0, 1)
  (t.1, t.2.1)

/-- Cosine and sine of an angle in degrees: the nearest right angle, and the rest by series. -/
def cosSin (deg : Rat) : Rat × Rat :=
  let q := (deg / 90 + 1 / 2).floor
  let (c, s) := cosSinSmall (trim96 ((deg / 90 - q) * piOf / 2))
  match q % 4 with
  | 0 => (c, s)
  | 1 => (-s, c)
  | 2 => (-c, -s)
  | _ => (s, -c)

/-- The arc of a tangent between 0 and 1, in turns: halved three times, then 40 terms of its series. -/
def arcTan (x : Rat) : Rat :=
  let half (x : Rat) : Rat := x / (1 + rootOf (1 + x * x))
  let z := half (half (half x))
  8 * ratSum ((List.range 40).map fun i => (-1) ^ i * z ^ (2 * i + 1) / (2 * i + 1 : Nat)) / (2 * piOf)

/-- The angle of a point in turns, from -1/2 to 1/2. -/
def angleOf (x : Rat × Rat) : Rat :=
  let a := if x.1 < 0 then -x.1 else x.1
  let b := if x.2 < 0 then -x.2 else x.2
  let t := if a = 0 ∧ b = 0 then 0 else if b ≤ a then arcTan (b / a) else 1 / 4 - arcTan (a / b)
  let t := if x.1 < 0 then 1 / 2 - t else t
  if x.2 < 0 then -t else t

/-- The sine of `x` half turns over `x` half turns. -/
def sinc (x : Rat) : Rat := if x = 0 then 1 else (cosSin (180 * x)).2 / (piOf * x)

/-- The root-raised-cosine pulse (R115): roll-off in 0.01, time in symbol periods. -/
def rrc (roll : Nat) (t : Rat) : Rat :=
  let b : Rat := (roll : Rat) / 100
  if t = 0 then 1 - b + 4 * b / piOf
  else if (4 * b * t) ^ 2 = 1 then
    let (c, s) := cosSin (45 / b)
    b / rootOf 2 * ((1 + 2 / piOf) * s + (1 - 2 / piOf) * c)
  else
    ((cosSin (180 * t * (1 - b))).2 + 4 * b * t * (cosSin (180 * t * (1 + b))).1) / (piOf * t * (1 - (4 * b * t) ^ 2))

/-- Tap `k` of 33 of the filter that delays by 16 + d samples (R117, R138), before normalisation: the band-limited pulse there,
under a raised-cosine window of eight samples to each side. -/
def delayTap (d : Rat) (k : Nat) : Rat :=
  let u : Rat := (k : Nat) - 16 - d
  if u ≤ -8 ∨ 8 ≤ u then 0 else sinc u * (1 + (cosSin (180 * u / 8)).1) / 2

/-- The phase in turns by which a dispersion of `disp` ps/nm at an optical frequency of `f0` MHz turns the part of the signal `f` Hz
from the carrier (R119, R139): the group delay falls by D c f / f0² with the frequency. -/
def cdTurn (disp : Int) (f0 : Nat) (f : Rat) : Rat :=
  (disp : Rat) / 1000 * 299792458 * f ^ 2 / (2 * ((f0 : Rat) * 1000000) ^ 2)

/-- Tap `k` of `len` of the all-pass filter of a dispersion, `n` samples in a tick of 2 µs: the response of unit magnitude at `len`
equal steps of frequency, delayed by half its length (R119, R139). -/
def cdTap (len : Nat) (disp : Int) (f0 n k : Nat) : Rat × Rat :=
  let sum := (List.range len).foldl (fun (a : Rat × Rat) m =>
    let m' : Int := if 2 * m < len then m else (m : Int) - len
    let f : Rat := m' * (n * 500000 : Nat) / len
    let (c, s) := cosSin (360 * (cdTurn disp f0 f + m' * ((k : Int) - (len / 2 : Nat)) / len))
    (a.1 + c, a.2 + s)) (0, 0)
  (sum.1 / len, sum.2 / len)

/-- The second tap, negative, of the first-order pre-emphasis with a peak in 0.1 dB at half the symbol rate (R116): with unit gain at
DC the taps are 1 + b and −b, and half the symbol rate is 32/77 of the sample rate. -/
def preemphSide (peak : Nat) : Rat :=
  let g2 := pow10 ((peak : Rat) / 100)
  (rootOf (1 + 2 * (g2 - 1) / (1 - (cosSin (180 * 64 / 77)).1)) - 1) / 2

/-- Entry `j` of the table that inverts the sine of a modulator at null for a swing in percent of Vπ, peak to peak (R118): the drive,
in 1/8192 of its largest value, whose sine is nearest to the wanted part of the largest field. -/
def pdEntry (swing j : Nat) : Int :=
  let at_ (u : Rat) : Rat := (cosSin (9 * (swing : Rat) / 20 * u)).2
  let want : Rat := (16 * (j : Rat) - 2048) / 2048 * at_ 1
  ((List.range 15).foldr (fun i v =>
    let w := v + 2 ^ i
    if w ≤ 16384 ∧ at_ (((w : Nat) - 8192 - 1 / 2) / 8192) ≤ want then w else v) 0 : Nat) - 8192

/-! ## The built-in coefficient sets of the Whisper chains (R297) -/

/-- The gain of a coefficient set, squared, at `k` sixteen-hundredths of half its input rate. -/
def firGain (h : List Int) (k : Nat) : Rat :=
  let at_ (n : Nat) (c : Int) : Rat × Rat :=
    let (x, y) := cosSin (180 * (n * k % 3200 : Nat) / 1600)
    (x * c, y * c)
  let l := List.zipWith at_ (List.range h.length) h
  let re := ratSum (l.map (·.1))
  let im := ratSum (l.map (·.2))
  (re * re + im * im) / 2 ^ 34

/-- Is a set one that R297 allows for a stage: 64 or 128 coefficients of 18 bits whose sum is 131,072, flat within 0.1 dB up to
93.75 kHz of 2 MHz or 31.25 kHz of 250 kHz, 60 dB down from 406.25 kHz or 93.75 kHz? The response is held to at 1,601
frequencies. -/
def firOk (stage : Nat) (h : List Int) : Bool :=
  let (taps, pass, stop) := if stage = 1 then (64, 75, 325) else (128, 200, 600)
  h.length == taps && h.all (fun c => -131072 ≤ c && c < 131072) && h.foldl (· + ·) 0 == 131072
    && (List.range 1601).all fun k =>
      (pass < k || (pow10 (-1 / 100) ≤ firGain h k && firGain h k ≤ pow10 (1 / 100)))
        && (k < stop || firGain h k ≤ 1 / 1000000)

/-- The first half of a symmetric FIR1 set that meets the response. -/
def fir1Half : List Int :=
  [-4, -19, -43, -73, -102, -116, -102, -46, 58, 206, 379, 545, 658, 668, 531, 221, -260, -868, -1519, -2092, -2442,
   -2418, -1892, -782, 927, 3170, 5798, 8596, 11300, 13636, 15355, 16266]

/-- The first half of a symmetric FIR2 set that meets the response. -/
def fir2Half : List Int :=
  [-1, -5, -7, -4, 5, 15, 19, 10, -12, -33, -40, -19, 23, 63, 73, 35, -40, -109, -123, -58, 65, 175, 196, 91, -101,
   -269, -298, -136, 150, 398, 437, 198, -217, -573, -625, -282, 307, 807, 878, 395, -430, -1127, -1224, -551, 599,
   1574, 1715, 775, -847, -2241, -2463, -1125, 1247, 3358, 3772, 1772, -2035, -5732, -6840, -3491, 4517, 15342,
   25652, 31931]

/-- A symmetric set that meets the response of a stage. -/
def firSet (stage : Nat) : List Int := if stage = 1 then fir1Half ++ fir1Half.reverse else fir2Half ++ fir2Half.reverse

/-- Coefficient `i` of a stage's built-in set (R297): a set that the specification does not give, of those that meet what it says
of it. DESIGN CHOICE: the set that stands here where the free one does not is a windowed ideal low pass (log entry 183). -/
def whFir (stage i : Nat) : Int :=
  (if firOk stage (Config.whFirSet stage) then Config.whFirSet stage else firSet stage).getD i 0

end Sys2Proof.Machine
end

