-- ==== Sys2Proof/Machine/Params.lean ====
section
/-! DEFINITION. Params.lean: the parameters (PIDs) of every group (R11, R521 to R524): instances, value length and range,
change class, expert and lock marks, reset value; and the read of an active value. -/
namespace Sys2Proof.Machine

/-- One PID's row: its instances, the lengths its value may have (R523), the values its range admits (R524), the
values marked expert (R89), its reset value, class (R46) and marks. -/
structure ParamRow where
  pid : Nat
  insts : List Nat
  len : Nat → Bool
  ok : Nat → Bytes → Bool
  reset : Nat → Bytes
  cls : ChangeClass := .local_
  expert : Bool := false
  ro : Bool := false
  rwl : Bool := false
  expertVal : Bytes → Bool := fun _ => false

/-- The number a scalar value holds: two's complement where its range includes negative values (R523). -/
def scalarOf (lo : Int) (v : Bytes) : Int := if lo < 0 then sx 32 (unle v) else unle v

/-- A scalar PID: 4 bytes, from `lo` to `hi`. -/
def sc (pid : Nat) (insts : List Nat) (cls : ChangeClass) (lo hi rst : Int) : ParamRow :=
  { pid := pid, insts := insts, cls := cls, len := (· == 4), reset := fun _ => le 4 (ux 32 rst),
    ok := fun _ v => decide (lo ≤ scalarOf lo v ∧ scalarOf lo v ≤ hi) }

/-- A scalar PID whose codes are a list. -/
def cd (pid : Nat) (insts : List Nat) (cls : ChangeClass) (codes : List Nat) (rst : Nat) : ParamRow :=
  { pid := pid, insts := insts, cls := cls, len := (· == 4), reset := fun _ => le 4 rst,
    ok := fun _ v => codes.contains (unle v) }

/-- A PID of a fixed byte layout of `n` bytes, checked by `ok`. -/
def ly (pid : Nat) (insts : List Nat) (cls : ChangeClass) (n : Nat) (ok : Bytes → Bool) (rst : Bytes) : ParamRow :=
  { pid := pid, insts := insts, cls := cls, len := (· == n), reset := fun _ => padTo n rst, ok := fun _ v => ok v }

/-- A read-only PID of `n` bytes. -/
def rd (pid : Nat) (insts : List Nat) (n : Nat) : ParamRow :=
  { pid := pid, insts := insts, len := (· == n), reset := fun _ => zeros n, ok := fun _ _ => true, ro := true }

/-- The 16-bit elements of a layout, as numbers. -/
def elems16 (v : Bytes) : List Nat := (List.range (v.length / 2)).map fun i => fld v (2 * i) 2

/-- The signed 16-bit elements of a layout. -/
def elems16s (v : Bytes) : List Int := (elems16 v).map (sx 16)

/-- The entries of `k` bytes of a layout. -/
def chunks (k : Nat) (v : Bytes) : List Bytes := (List.range (v.length / k)).map fun i => slice v (k * i) k

/-- Do the bytes [lo, hi) of a layout all hold 0 (reserved bytes)? -/
def rsv (v : Bytes) (lo hi : Nat) : Bool := allZero (slice v lo (hi - lo))

/-- Instances 1 and 2: the lines. -/
def iLines : List Nat := [1, 2]

/-- Group 0x1 (R480). The map takes its value from the board record at boot (R499). -/
def par1 : List ParamRow := [
  cd 0x1000 [0] .local_ [0, 1] 1,
  { ly 0x1001 [0] .local_ 64 (fun v => (chunks 8 v).all fun e => byteAt e 2 ≤ 8 && rsv e 3 8)
      ((List.range 7).flatMap fun i => [byteOf (0x40 + i), 0, byteOf (i + 1), 0, 0, 0, 0, 0]) with rwl := true },
  cd 0x1002 [0] .local_ [0, 1, 2] 1,
  sc 0x1003 [0] .local_ 0 0xFFFF 0,
  sc 0x1004 [0] .local_ 0 0xFFFF 0,
  sc 0x1005 [0] .local_ 10 1000 100,
  sc 0x1006 [0] .local_ 1 10 5,
  rd 0x1100 [0] 4, rd 0x1101 [0] 4, rd 0x1102 [0] 4]

/-- Group 0x2 (R362): references 0x10 to 0x18, PPS outputs 0x20 and 0x21, quads 0x30 to 0x37. -/
def par2 : List ParamRow :=
  let refin := [0x10, 0x11, 0x12, 0x13]
  let marker (pid : Nat) (insts : List Nat) : ParamRow := { rd pid insts 4 with reset := fun _ => le 4 0x80000000 }
  [ sc 0x2000 refin .local_ 0 5 0,
    sc 0x2001 refin .local_ (-1000000) 1000000 0,
    sc 0x2002 [0] .local_ 0 31 0,
    sc 0x2003 [0] .local_ 1 600 10,
    sc 0x2004 [0] .local_ 0 1800 300,
    sc 0x2005 [0] .local_ 100 12000 7500,
    sc 0x2006 [0] .local_ 10 1000000 1000,
    sc 0x2007 [0] .local_ 1 60 4,
    sc 0x2010 [0x20, 0x21] .local_ 0 1 0,
    sc 0x2011 [0x20, 0x21] .local_ 1 500000 100000,
    sc 0x2012 [0x20, 0x21] .local_ (-1000000) 1000000 0,
    sc 0x2013 [0] .local_ 0 3 0,
    sc 0x2014 [0] .local_ 0 2 1,
    sc 0x2015 ((List.range 8).map (0x30 + ·)) .local_ 0 1 0,
    rd 0x2100 [0] 4,
    { rd 0x2101 [0] 4 with reset := fun _ => le 4 0xFF },
    rd 0x2102 [0] 4,
    rd 0x2103 [0] 4,
    marker 0x2104 [0],
    marker 0x2105 ((List.range 9).map (0x10 + ·)) ]

/-- Lane instances of the converters' parameters (R128). -/
def iLanes : List Nat := [0x11, 0x12, 0x13, 0x14, 0x21, 0x22, 0x23, 0x24]

/-- Polarisation instances (R128). -/
def iPols : List Nat := [0x18, 0x19, 0x28, 0x29]

/-- The identity predistortion table (R118). -/
def identityLut : Bytes := (List.range 257).flatMap fun (j : Nat) => le 2 (ux 16 (64 * (j : Int) - 8192))

/-- Group 0x3 (R128). -/
def par3 : List ParamRow :=
  let expertCode (r : ParamRow) (n : Nat) : ParamRow := { r with expertVal := fun v => unle v == n }
  [ sc 0x3000 iLines .local_ 0 2 0,
    { sc 0x3010 iLines .disruptive 120832 579584 579584 with
      ok := fun _ v => 120832 ≤ unle v && unle v ≤ 579584 && unle v % 256 == 0 },
    sc 0x3011 iLines .line 0 2 2,
    sc 0x3012 iLines .line 192 368 368,
    sc 0x3013 iLines .line 1 20 5,
    sc 0x3014 iLines .line 0 12 0,
    sc 0x3015 iLines .disruptive (-20000) 20000 0,
    sc 0x3016 iLines .disruptive 184500000 197000000 193100000,
    expertCode (sc 0x3020 iLines .local_ 0 2 1) 2,
    sc 0x3021 iLines .local_ 0 120 0,
    sc 0x3022 iLanes .local_ (-500) 500 0,
    sc 0x3023 iPols .local_ (-100) 100 0,
    sc 0x3024 iPols .local_ (-1000) 1000 0,
    expertCode (sc 0x3025 iLines .local_ 0 2 0) 2,
    sc 0x3026 iLines .local_ 20 90 60,
    sc 0x3027 iLines .local_ 10 50 28,
    sc 0x3028 iLines .local_ 0 65535 64,
    rd 0x3030 iLines 4,
    rd 0x3031 iLines 4,
    { ly 0x3100 iLanes .local_ 128 (fun _ => true) (zeros 62 ++ le 2 16384) with expert := true },
    { ly 0x3101 iLanes .local_ 514 (fun v => (elems16s v).all fun x => -8192 ≤ x && x ≤ 8192) identityLut with
      expert := true },
    { sc 0x3102 iLines .local_ 0 2 0 with expert := true } ]

/-- Group 0x4 (R157, R160). -/
def par4 : List ParamRow :=
  let odd (v : Bytes) : Bool := 9 ≤ unle v && unle v ≤ 97 && unle v % 2 == 1
  [ { sc 0x4000 iLines .disruptive 120832 579584 579584 with
      ok := fun _ v => 120832 ≤ unle v && unle v ≤ 579584 && unle v % 256 == 0 },
    sc 0x4001 iLines .local_ 0 2 2,
    sc 0x4002 iLines .local_ 192 368 368,
    sc 0x4003 iLines .local_ 1 20 5,
    sc 0x4004 iLines .local_ 0 2 1,
    sc 0x4010 iLines .local_ (-400) (-50) (-300),
    sc 0x4011 iLines .local_ 31000 100000 100000,
    sc 0x4012 iLines .local_ 0 200 40,
    sc 0x4013 iLines .local_ 1 256 16,
    sc 0x4014 iLines .local_ 0 3600 10,
    sc 0x4020 iLines .local_ 0 1 0,
    sc 0x4021 iLines .local_ (-160000) 160000 (-160000),
    sc 0x4022 iLines .local_ (-160000) 160000 160000,
    { sc 0x4023 iLines .local_ 100 5000 1000 with
      ok := fun _ v => 100 ≤ unle v && unle v ≤ 5000 && unle v % 50 == 0 },
    sc 0x4024 iLines .local_ (-160000) 160000 0,
    sc 0x4025 iLines .local_ 0 1 1,
    sc 0x4026 iLines .disruptive 184500000 197000000 193100000,
    sc 0x4030 iLines .local_ 0 1 1,
    sc 0x4031 iLanes .local_ (-500) 500 0,
    sc 0x4032 iPols .local_ (-100) 100 0,
    sc 0x4033 iPols .local_ (-1000) 1000 0,
    sc 0x4040 iLines .local_ 1 100 20,
    sc 0x4050 iLines .local_ 0 1 0,
    { sc 0x4051 iLines .local_ 9 97 65 with ok := fun _ v => odd v },
    sc 0x4052 iLines .local_ (-16) (-4) (-10),
    sc 0x4053 iLines .local_ 0 1 1,
    sc 0x4054 iLines .local_ 1000 30000 20000,
    sc 0x4060 iLines .local_ 1 16 4,
    sc 0x4061 iLines .local_ 0 1 1,
    { sc 0x4070 iLines .local_ 0 2 0 with expertVal := fun v => unle v == 2 },
    sc 0x4071 iLines .local_ 0 192 0,
    sc 0x4072 iLines .local_ 0 64 0,
    sc 0x4073 iLines .local_ 8 128 64,
    sc 0x4074 iLines .local_ 0 200 100,
    sc 0x4080 iLines .local_ 4 64 16,
    ly 0x4100 iLines .local_ 1024 (fun v => (chunks 16 v).all fun e => fld e 0 4 ≤ 250000 && rsv e 12 16) [],
    { ly 0x4101 iLines .local_ 4080 (fun _ => true) [] with expert := true },
    rd 0x4200 iLanes 4 ]
    ++ ((List.range 11).map fun i => rd (0x4201 + i) iLines 4)
    ++ [rd 0x420C iLanes 4, rd 0x420D iPols 4, rd 0x420E iPols 4]

/-- Group 0x5 (R183). -/
def par5 : List ParamRow :=
  let marker (pid : Nat) : ParamRow := { rd pid iLines 4 with reset := fun _ => le 4 0x80000000 }
  [ sc 0x5000 iLines .line 0 2 1,
    sc 0x5001 iLines .local_ 6 24 24,
    sc 0x5002 iLines .local_ 0 100 50,
    sc 0x5003 iLines .local_ 0 7 4,
    sc 0x5004 iLines .local_ 0 1 1,
    sc 0x5005 iLines .local_ 1 12 6,
    sc 0x5006 iLines .local_ 600 2400 1600,
    { sc 0x5100 [0] .local_ 0 3 1 with expert := true },
    { sc 0x5101 [0] .local_ 0 1 1 with expert := true },
    rd 0x5200 [0] 4, rd 0x5201 [0] 4, marker 0x5202, marker 0x5203 ]

/-- The payload type's slots per client (R194), none for a reserved code. -/
def ptSlots : Nat → Option Nat
  | 0x00 => some 0
  | 0x01 => some 4
  | 0x02 => some 8
  | 0x03 => some 16
  | 0xFD => some 1
  | 0xFE => some 1
  | _ => none

/-- An empty program image (R216): ID 0, length 1, END. -/
def emptyProg : Bytes := [0, 0, 1, 0, 0, 0, 0, 0]

/-- Group 0x6 (R216). A program's reserved bits are 0: byte 3 of its header, bits [17:16] of each word (R213, R215). -/
def par6 : List ParamRow :=
  let prog (pid : Nat) (cls : ChangeClass) : ParamRow := {
    pid := pid, insts := iLines, cls := cls, expert := true, reset := fun _ => emptyProg,
    len := fun n => 8 ≤ n && n ≤ 260 && n % 4 == 0,
    ok := fun _ v => 1 ≤ byteAt v 2 && byteAt v 2 ≤ 64 && v.length == 4 + 4 * byteAt v 2 && byteAt v 3 == 0
      && (List.range (byteAt v 2)).all fun i => byteAt v (4 + 4 * i + 2) % 4 == 0 }
  let codes (v : Bytes) : Bool := (List.range 24).all fun i => (ptSlots (byteAt v i)).isSome
  [ ly 0x6000 iLines .line 48 (fun v => (List.range 24).all fun i => (ptSlots (byteAt v (2 * i))).isSome)
      ((List.replicate 24 [0x00, 0xFF]).flatten),
    sc 0x6001 iLines .local_ 0 0xFFFFFF 0,
    sc 0x6002 iLines .local_ 0 1 1,
    sc 0x6010 iLines .local_ 0 2 2,
    ly 0x6011 iLines .local_ 24 codes (zeros 24),
    sc 0x6012 iLines .local_ 1 64 8,
    sc 0x6013 iLines .local_ 1 64 8,
    prog 0x6020 .line,
    prog 0x6021 .local_,
    ly 0x6022 iLines .local_ 64 (fun _ => true) (zeros 64),
    { rd 0x6100 iLines 48 with reset := fun _ => (List.replicate 24 [0x00, 0xFF]).flatten } ]

/-- Client instances and lane instances (R249). -/
def iClients : List Nat := (List.range 12).map (0x40 + ·)

/-- Lane instances (R249). -/
def iHostLanes : List Nat := (List.range 32).map (0x80 + ·)

/-- One CLI_TS_FILTER entry (R250, R524). -/
def tsFilterOk (e : Bytes) : Bool :=
  byteAt e 0 < 8 && byteAt e 1 ≤ 63 && byteAt e 2 ≤ 16 && (byteAt e 2 ≠ 0 || byteAt e 0 % 4 == 0)
    && byteAt e 3 ≤ 62 && byteAt e 4 ≤ 245 && rsv e 5 8

/-- Group 0x7 (R249). -/
def par7 : List ParamRow :=
  [ sc 0x7000 iClients .disruptive 0 3 0,
    cd 0x7001 iClients .disruptive [1, 2] 1,
    sc 0x7002 iClients .disruptive 0 31 0,
    sc 0x7003 iClients .disruptive 0 1 1,
    { sc 0x7004 iClients .local_ 0 11 0 with reset := fun i => le 4 (i - 0x40) },
    sc 0x7005 iClients .local_ 0 2 0,
    sc 0x7006 iClients .local_ 1 65535 500,
    { sc 0x7007 iClients .local_ 0 1 0 with expert := true },
    sc 0x7008 iClients .local_ 0 4294967295 0,
    ly 0x7010 iClients .local_ 160 (fun v => (chunks 40 v).all tsFilterOk) (zeros 160),
    { ly 0x7100 iHostLanes .local_ 3 (fun v =>
        let f (i : Nat) : Int := sx 8 (byteAt v i)
        decide (-32 ≤ f 0 ∧ f 0 ≤ 32 ∧ 32 ≤ f 1 ∧ f 1 ≤ 127 ∧ -32 ≤ f 2 ∧ f 2 ≤ 32)) [0xF8, 120, 0] with
      expert := true },
    sc 0x7101 iHostLanes .local_ 0 3 0 ]

/-- Groups 0x8 and 0x9 (R282). CRY_USE_LIMIT takes 8 bytes, since its range needs more than 32 bits. -/
def par8 : List ParamRow :=
  [ { pid := 0x8000, insts := iLines, len := (· == 8), reset := fun _ => le 8 2147483648,
      ok := fun _ v => 1048576 ≤ unle v && unle v ≤ 8589934592 },
    sc 0x8001 iLines .local_ 0 1 1,
    sc 0x9000 iLines .local_ 0 1 0,
    sc 0x9001 iLines .local_ 25 125 125,
    rd 0x9100 [0] 4,
    rd 0x9101 [0] 4 ]

/-- Whisper chains as instances (R310): WA, WB, MA, MB. -/
def iChains : List Nat := [0xA1, 0xA2, 0xA3, 0xA4]

/-- A coefficient value of `n` words (R310): bank, reserved bytes, words in range. -/
def coefOk (n : Nat) (v : Bytes) : Bool :=
  byteAt v 0 ≤ 1 && rsv v 1 4 && (List.range n).all fun i =>
    let x := sx 32 (fld v (4 + 4 * i) 4)
    decide (-131072 ≤ x ∧ x ≤ 131071)

/-- The built-in coefficient set of a stage, as bank 0's value. -/
def coefBuiltin (stage n : Nat) : Bytes :=
  zeros 4 ++ (List.range n).flatMap fun i => le 4 (ux 32 (whFir stage i))

/-- Group 0xA (R310). -/
def par10 : List ParamRow :=
  let coef (pid stage n : Nat) : ParamRow := {
    pid := pid, insts := iChains, expert := true, len := (· == 4 + 4 * n), ok := fun _ => coefOk n,
    reset := fun _ => coefBuiltin stage n }
  let marker (pid : Nat) : ParamRow := { rd pid iLines 4 with reset := fun _ => le 4 0x80000000 }
  [ sc 0xA000 iLines .local_ 0 2 1,
    sc 0xA001 iLines .outside 0 3 2,
    sc 0xA002 iLines .outside 10 40 20,
    sc 0xA003 iLines .local_ 1 15 15,
    sc 0xA004 iLines .local_ (-400) (-100) (-350),
    sc 0xA005 iLines .local_ 0 3 1,
    sc 0xA010 iLines .local_ 100 900 250,
    sc 0xA011 iLines .local_ 256 65535 1024,
    sc 0xA012 iLines .local_ 0 8 3,
    sc 0xA013 iLines .local_ (-16) (-4) (-9),
    sc 0xA014 iLines .local_ 0 1 1,
    sc 0xA015 iLines .local_ (-200) 400 20,
    { sc 0xA100 iChains .local_ 38 62 50 with expert := true },
    { sc 0xA101 iChains .local_ 0 31 17 with expert := true },
    { sc 0xA102 iChains .local_ 0 31 17 with expert := true },
    coef 0xA103 1 64, coef 0xA104 2 128,
    marker 0xA200, marker 0xA201, rd 0xA202 iLines 4 ]

/-- Group 0xB (R336). -/
def par11 : List ParamRow :=
  let marker (pid : Nat) : ParamRow := { rd pid [1, 2, 3] 4 with reset := fun _ => le 4 0x80000000 }
  [ sc 0xB000 [0] .local_ 1 64 64,
    sc 0xB001 [0] .local_ 0 31 31,
    sc 0xB002 [0] .local_ 4 600 60,
    sc 0xB003 [0] .local_ 1 3600 60,
    sc 0xB010 [0] .local_ 0 1 0,
    sc 0xB011 [0] .local_ 0 1 0,
    sc 0xB012 [0] .local_ 0 4095 0,
    sc 0xB013 [0] .local_ 0 5000 100,
    { sc 0xB014 [0] .local_ 400 30000 3000 with
      ok := fun _ v => 400 ≤ unle v && unle v ≤ 30000 && unle v % 2 == 0 },
    sc 0xB015 [0] .local_ 0 1 1,
    marker 0xB100, marker 0xB101, rd 0xB102 [0] 4 ]

/-- The instances of the 16 converters (R383). -/
def iConvs : List Nat := (List.range 16).map (0x50 + ·)

/-- Group 0xC (R383). -/
def par12 : List ParamRow :=
  [ sc 0xC000 iConvs .local_ 0 2 2,
    { sc 0xC001 iConvs .local_ 50 100 90 with expert := true },
    sc 0xC002 [0] .local_ 10 200 40,
    sc 0xC003 [0] .local_ 16 4096 256,
    sc 0xC004 [0] .local_ 1 64 4,
    sc 0xC005 [0] .local_ 0 1 1,
    rd 0xC200 iLines 4, { rd 0xC201 iConvs 4 with reset := fun _ => le 4 0x80000000 }, rd 0xC202 iConvs 4, rd 0xC203 iConvs 4 ]

/-- Instances of the tenants whose settings the host writes (R403, R418): 2 to 63. -/
def iTen : List Nat := (List.range 62).map (0xC2 + ·)

/-- Instances of the device tenants. -/
def iDev : List Nat := [0xC0, 0xC1]

/-- A TEN_PORTS entry (R418, R524). -/
def portOk (e : Bytes) : Bool :=
  let n := fld e 4 2
  let z := fld e 6 2
  let okN : Bool := 1 ≤ n && n ≤ 4096
  let okZ : Bool := 64 ≤ z && z ≤ 8192 && z % 64 == 0
  rsv e 1 2 && rsv e 8 16 && (match byteAt e 0 with
    | 0 => (n == 0 || okN) && (z == 0 || okZ)
    | 1 => okN && okZ
    | _ => false)

/-- Group 0xD (R418); the settings of the device tenants are read-only (R403). -/
def par13 : List ParamRow :=
  let dev (pid n : Nat) (v : Nat) : ParamRow := { rd pid iDev n with reset := fun _ => le n v }
  [ cd 0xD000 iTen .local_ [0, 1, 2] 0, dev 0xD000 4 3,
    sc 0xD001 iTen .local_ 0 7 4, dev 0xD001 4 0,
    sc 0xD002 iTen .local_ 0 256 0, dev 0xD002 4 0,
    sc 0xD003 iTen .local_ 0 256 0, dev 0xD003 4 0,
    sc 0xD004 iTen .local_ 0 32768 0, dev 0xD004 4 0,
    sc 0xD005 iTen .local_ 0 32768 0, dev 0xD005 4 0,
    sc 0xD006 iTen .local_ 0 16 0, dev 0xD006 4 0,
    sc 0xD007 iTen .local_ 0 65535 16, dev 0xD007 4 16,
    sc 0xD008 iTen .local_ 0 1 1, dev 0xD008 4 1,
    ly 0xD009 iTen .local_ 8 (fun v => fld v 0 2 ≤ 256 && fld v 2 2 ≤ 256 && rsv v 4 8) (zeros 8), dev 0xD009 8 0,
    ly 0xD00A iTen .local_ 128 (fun v => (chunks 16 v).all portOk) (zeros 128), dev 0xD00A 128 0,
    sc 0xD010 [0] .local_ 0 32768 1024,
    { rd 0xD100 [0] 4 with reset := fun _ => le 4 256 }, { rd 0xD101 [0] 4 with reset := fun _ => le 4 32768 },
    rd 0xD102 (iDev ++ iTen) 4, rd 0xD103 (iDev ++ iTen) 4, rd 0xD104 (iDev ++ iTen) 4 ]

/-- Group 0xE (R440). -/
def par14 : List ParamRow :=
  [ ly 0xE000 [0] .local_ 128 (fun v => v.all (·.toNat ≤ 3)) (List.replicate 128 1),
    sc 0xE001 [0] .local_ 1 32 4,
    sc 0xE002 [0] .local_ 0 86400 3600,
    sc 0xE003 [0] .local_ 0 1 1,
    ly 0xE010 iTen .local_ 64 (fun _ => true) (zeros 64), { rd 0xE010 iDev 64 with ok := fun _ _ => true },
    ly 0xE011 [0] .local_ 16 (fun v => v.all (·.toNat ≤ 63)) (zeros 16),
    rd 0xE100 [0] 4, rd 0xE101 [0] 4, rd 0xE102 [0] 4 ]

/-- Is this an OBS_HARVEST_DEST value within its range (R459, R524)? -/
def harvestDestOk (v : Bytes) : Bool :=
  let s := fld v 4 2
  byteAt v 0 ≤ 2 && rsv v 6 8 && ((2 ≤ s && s ≤ 1024) || (s == 0 && byteAt v 0 == 0))
    && (byteAt v 0 != 1 || fld v 8 8 % 4096 == 0)

/-- Group 0xF (R459). -/
def par15 : List ParamRow := [
  ly 0xF000 [0] .local_ 128 (fun v => (elems16 v).all fun e => bits e 14 8 == 0) [],
  sc 0xF001 [0] .local_ 1 65535 500,
  ly 0xF002 [0] .local_ 16 harvestDestOk [],
  { cd 0xF003 [0] .local_ [0] 0 with ok := fun _ v => unle v == 0 || (64 ≤ unle v && unle v ≤ 65535) },
  ly 0xF004 [0] .local_ 8 (fun _ => true) []]

/-- Every PID of the device (R522). -/
def paramRows : List ParamRow := par1 ++ par2 ++ par3 ++ par4 ++ par5 ++ par6 ++ par7 ++ par8 ++ par10 ++ par11 ++ par12 ++ par13 ++ par14 ++ par15

/-- The row of a PID, if it exists. -/
def findPid (pid : Nat) : Option ParamRow := paramRows.find? fun r => r.pid == pid

/-- The row of a PID that has this instance (R521). -/
def findRow (pid inst : Nat) : Option ParamRow := paramRows.find? fun r => r.pid == pid && r.insts.contains inst

/-- The key a PID and instance are kept under. -/
def pkey (pid inst : Nat) : Nat := pid * 256 + inst

/-- The reset value under a key. -/
def resetVal (key : Nat) : Bytes :=
  match findRow (key / 256) (key % 256) with
  | some r => r.reset (key % 256)
  | none => []

/-- An active parameter table read under a key. -/
def tableVal (m : SMap Bytes) (key : Nat) : Bytes := SMap.get (resetVal key) m key

/-- A parameter table with the values of a set applied over it. -/
def tableApply (m : SMap Bytes) (recs : SMap Bytes) : SMap Bytes :=
  recs.foldl (fun m r => SMap.put (resetVal r.1) m r.1 r.2) m

/-- A prospective configuration: the active table with sets of values laid over it. -/
abbrev View := SMap Bytes

/-- The value of a PID and instance in a view. -/
def View.par (v : View) (pid inst : Nat) : Bytes := tableVal v (pkey pid inst)

/-- The unsigned number of a PID and instance in a view. -/
def View.parN (v : View) (pid inst : Nat) : Nat := unle (tableVal v (pkey pid inst))

/-- The signed number of a PID and instance in a view. -/
def View.parI (v : View) (pid inst : Nat) : Int := sx 32 (unle (tableVal v (pkey pid inst)))

/-- The active value of a PID and instance. -/
def State.par (s : State) (pid inst : Nat) : Bytes := tableVal s.params (pkey pid inst)

/-- The active value as an unsigned number. -/
def State.parN (s : State) (pid inst : Nat) : Nat := unle (s.par pid inst)

/-- The active value as a signed number. -/
def State.parI (s : State) (pid inst : Nat) : Int := sx 32 (s.parN pid inst)

/-- Write the active table directly (values the device itself adopts). -/
def State.setPar (pid inst : Nat) (v : Bytes) (s : State) : State :=
  { s with params := SMap.put (resetVal (pkey pid inst)) s.params (pkey pid inst) v }

end Sys2Proof.Machine
end

