-- ==== Sys2Proof/Machine/Flags.lean ====
section
/-! DEFINITION. Flags.lean: events, their MSI-X signals, and the counters: every chapter's effects report through
these (R445 to R458). -/
namespace Sys2Proof.Machine

/-- A counter's present value (R447). -/
def State.count (s : State) (n : Nat) : Nat := SMap.get 0 s.obs.cnt n

/-- The largest value a counter holds (R447). -/
def cntMax : Nat := 2 ^ 48 - 1

/-- Add to a counter; a count that would pass 2^48 − 1 holds there and sets the sticky SAT flag (R447). -/
def bumpRaw (n k : Nat) (s : State) : State :=
  let c := s.count n + k
  if c > cntMax then
    { s with obs := { s.obs with cnt := SMap.put 0 s.obs.cnt n cntMax, sat := SMap.put false s.obs.sat n true } }
  else { s with obs := { s.obs with cnt := SMap.put 0 s.obs.cnt n c } }

/-- Is MSI-X vector `v` masked in the MSI-X table (bit 0 of its vector control word)? -/
def msixMasked (s : State) (v : Nat) : Bool :=
  (SMap.get (1 : Byte) s.ev.msixTable (16 * v + 12)).getLsbD 0

/-- Signal MSI-X vector `v` (R456), or set its pending bit while the table masks it. -/
def signal (v : Nat) (s : State) : State :=
  if msixMasked s v then { s with ev := { s.ev with msixPend := s.ev.msixPend ||| BitVec.ofNat 64 (2 ^ v) } }
  else { s with ev := { s.ev with signals := SMap.put 0 s.ev.signals v (SMap.get 0 s.ev.signals v + 1) } }

/-- Set the status bit of event `e`, if it is enabled, and signal its vector when the bit is a gain and unmasked
(R455, R456). -/
def raiseStat (e : Nat) (s : State) : State :=
  if s.ev.en.getLsbD e then
    let gain := !s.ev.stat.getLsbD e && !s.ev.mask.getLsbD e
    let b := BitVec.ofNat 256 (2 ^ e)
    let s := { s with ev := { s.ev with stat := s.ev.stat ||| b, tickSet := s.ev.tickSet ||| b } }
    if gain then signal (SMap.get 0 s.ev.vec e) s else s
  else s

/-- The selectable counters SEL0 to SEL63 that OBS_SEL makes count event `e` (R450). -/
def selsOf (s : State) (e : Nat) : List Nat :=
  let v := s.par 0xF000 0
  (List.range 64).filter fun k => byteAt v (2 * k) = e ∧ byteAt v (2 * k + 1) ≥ 128

/-- One more raising of event `e` in the present tick (R49). -/
def noteRaised (e : Nat) (s : State) : State :=
  { s with obs := { s.obs with raised := SMap.put 0 s.obs.raised e (SMap.get 0 s.obs.raised e + 1) } }

/-- COUNTER_SATURATED, at most once per tick (R447). -/
def raiseSaturated (s : State) : State :=
  if s.satTick then s
  else raiseStat 0xF3 ((selsOf s 0xF3).foldl (fun s k => bumpRaw (1856 + k) 1 s) (noteRaised 0xF3 { s with satTick := true }))

/-- Add `k` to counter `n`, reporting a saturation (R447). -/
def bumpBy (n k : Nat) (s : State) : State :=
  if s.count n + k > cntMax then raiseSaturated (bumpRaw n k s) else bumpRaw n k s

/-- Add 1 to counter `n`. -/
def bump (n : Nat) (s : State) : State := bumpBy n 1 s

/-- Raise event `e` (R450, R455, R456): every SEL counter that names it counts, enabled or masked or not. -/
def raise (e : Nat) (s : State) : State :=
  raiseStat e ((selsOf s e).foldl (fun s k => bump (1856 + k) s) (noteRaised e s))

/-- Raise an event when a condition holds. -/
def raiseIf (c : Bool) (e : Nat) (s : State) : State := if c then raise e s else s

/-- A fresh value of the model's free counter: the value, and the state with the counter advanced. -/
def State.fresh (s : State) : Nat × State := (Config.freeValue s.free, { s with free := s.free + 1 })

/-- The output pins that are functions of registers: INT_N is low while any enabled, unmasked status bit is set (R456),
SVC_REQ_N while SVC_REQ holds a bit (R476), THERMTRIP_N after a trip (R475). -/
def pinsOf (s : State) : Pins :=
  { intN := s.ev.stat &&& s.ev.en &&& ~~~s.ev.mask != 0, svcReqN := s.pwr.svcReq != 0, thermtripN := s.pwr.tripped }

/-- The state with its output pins at what its registers make them: every command ends here. -/
def settle (s : State) : State := { s with pins := pinsOf s }

/-- What a command answers. -/
abbrev Out := Host.Outcome State Fault Refusal

/-- Are the device's clocks stopped: in reset, before the PLLs lock, in PARK or after a thermal trip (R462, R475,
R495)? -/
def stopped (s : State) : Bool := s.pwr.tripped || s.boot.inReset || !s.boot.locked || s.pwr.state == 1

/-- The effect of something that is due in the commit window itself: nothing while the clocks are stopped. -/
def within (f : State → State) (s : State) : Out := if stopped s then .next s else .next (settle (f s))

end Sys2Proof.Machine
end

