-- ==== Sys2Proof/Machine/Opcodes.lean ====
section
/-! DEFINITION. Opcodes.lean: the opcodes of the command table (R76). -/
namespace Sys2Proof.Machine

/-- Every assigned opcode (R76, R81 step 6). -/
def assigned : List Nat :=
  [0x0000, 0x0001, 0x0002, 0x0003, 0x0004, 0x0008, 0x0010, 0x0011, 0x0012, 0x0013, 0x0014, 0x0015, 0x0018, 0x0020, 0x0021,
    0x0030, 0x0A00, 0x0A01, 0x0A02, 0x0A03]
    ++ (List.range 5).map (0x0100 + ·) ++ (List.range 8).map (0x0200 + ·) ++ (List.range 3).map (0x0300 + ·)
    ++ (List.range 3).map (0x0400 + ·) ++ (List.range 2).map (0x0500 + ·) ++ (List.range 4).map (0x0600 + ·)
    ++ (List.range 2).map (0x0700 + ·) ++ (List.range 4).map (0x0800 + ·) ++ (List.range 5).map (0x0900 + ·)
    ++ (List.range 9).map (0x0B00 + ·) ++ [0x0B10, 0x0B11] ++ (List.range 3).map (0x0C00 + ·)
    ++ (List.range 12).map (0x0D00 + ·) ++ (List.range 8).map (0x0E00 + ·) ++ (List.range 3).map (0x0F00 + ·)
    ++ [0x4200, 0x4400, 0x4401, 0x4500, 0x4600, 0x4700, 0x4800, 0x4900, 0x4901, 0x4A00, 0x4A01, 0x4C00, 0x4C01, 0x4C02,
      0x4C03, 0x4D00, 0x4E00]

end Sys2Proof.Machine
end

