-- ==== Sys2Proof/WellFormed.lean ====
section
/-! DEFINITION. WellFormed.lean: which commands can be sent: the relations between operands that their types do not state,
that of a packet to the parameter bytes handed over with it and that of NOP's opcode to the other rows. -/
namespace Sys2Proof.Machine

/-- Is the packet well formed: the buffer handed over is the PARAM_LEN bytes that the pointer form reads, and empty with
inline parameters? -/
def packetWf (p : Packet) : Bool := if p.paramInline then p.buf.isEmpty else p.buf.length == p.paramLen.toNat

end Sys2Proof.Machine

namespace Sys2Proof

/-- The command packet that a command carries (R75). The header that PCIE_READ_TIMEOUT gives is no packet read whole: the
read of its parameter buffer is what failed. -/
def Instr.packet? (i : Instr) : Option Packet :=
  match i with
  | .nop _ p => some p
  | .identify p => some p
  | .stateGet p => some p
  | .sessionOpen p => some p
  | .sessionClose p => some p
  | .expertEnable p => some p
  | .paramGet p => some p
  | .paramSet p => some p
  | .commit p => some p
  | .solsticePrepare p => some p
  | .solsticeArm p => some p
  | .solsticeCancel p => some p
  | .timedList p => some p
  | .fwUpdate p _ => some p
  | .fwActivate p => some p
  | .flashStatus p => some p
  | .entryFreeze => none
  | .timedActionExecute => none
  | .commandDeadline _ _ _ => none
  | .lateResult _ _ _ => none
  | .pcieReadTimeout _ _ _ => none
  | .pcieLateCpl _ => none
  | .cqCompletionWrite _ => none
  | .coalTimeExpiry _ => none
  | .watchdogExpiry _ => none
  | .fwRestartDone => none
  | .flashOpDone _ => none
  | .sqTail _ _ => none
  | .cqHead _ _ => none
  | .queueEnable _ => none
  | .queueDisable _ => none
  | .qCfg _ _ => none
  | .stagingFieldWrite _ _ _ => none
  | .triggerFieldWrite _ _ _ => none
  | .sysLock _ => none
  | .bootLoad _ => none
  | .gpioOut _ => none
  | .shadowApply => none
  | .harvHead _ => none
  | .cntLoRead _ _ => none
  | .tickNowLoRead _ => none
  | .evtMask _ _ => none
  | .evtVec _ _ => none
  | .registerWrite _ _ _ => none
  | .spiWrite _ _ => none
  | .spiRead _ _ => none
  | .spiStatusRead => none
  | .mailboxDoorbell => none
  | .reset => none
  | .resetRelease _ => none
  | .xoFound => none
  | .xoAbsent => none
  | .pllLock => none
  | .imageReadDone _ => none
  | .imageCheckDone => none
  | .standbyReady _ _ => none
  | .perstN => none
  | .perstNDeassert => none
  | .pcieFunctionReset => none
  | .powerLoss => none
  | .xoInLoss => none
  | .thermtrip => none
  | .tjReading _ => none
  | .alertN _ => none
  | .gpioWakeEdge _ _ => none
  | .wakeDone => none
  | .pinContention _ => none
  | .openDrainStuck _ => none
  | .tick _ => none
  | .epochBoundary => none
  | .pwrStatus p => some p
  | .pwrSet p => some p
  | .pwrTransitionDone _ => none
  | .pwrGate p => some p
  | .gatingApply => none
  | .pinRearm p => some p
  | .pmbusXfer p => some p
  | .pmbusTransactionDone _ _ => none
  | .telemetryRead _ => none
  | .avsStep _ _ _ => none
  | .tmStatus p => some p
  | .tmSelect p => some p
  | .tmPriority p => some p
  | .tmStep p => some p
  | .tmPhaseAdj p => some p
  | .tmSteer p => some p
  | .ppsAlign p => some p
  | .tmTodRead p => some p
  | .tmForceHoldover p => some p
  | .refQualify _ => none
  | .refDisqualify _ => none
  | .wtrExpiry _ => none
  | .pllLocked => none
  | .phaseAdjComplete => none
  | .ppsEdge _ => none
  | .todTxMessage => none
  | .todRxMessage _ => none
  | .txStatus p => some p
  | .txModePreset p => some p
  | .txCapacity p => some p
  | .converterRetuneDone _ => none
  | .automaticSwitch _ => none
  | .rxStatus p => some p
  | .rxAcquire p => some p
  | .rxMeasure p => some p
  | .rxTapDump p => some p
  | .rxCapture p => some p
  | .signalPresent _ => none
  | .signalLost _ => none
  | .cdScanDone _ _ _ => none
  | .timingLocked _ => none
  | .equaliserConverged _ => none
  | .timingTimeout _ => none
  | .equaliseTimeout _ => none
  | .acquisitionTimeout _ => none
  | .fasLock _ => none
  | .lockLoss _ => none
  | .modeRevertTimeout _ => none
  | .fecStatus p => some p
  | .fecPool p => some p
  | .fecCoreTest p => some p
  | .decodeEnd _ _ _ => none
  | .redecodeStart _ _ => none
  | .codewordRelease _ _ => none
  | .coreSelfTest _ _ => none
  | .frmStatus p => some p
  | .frmGccSend p => some p
  | .frmGccRecv p => some p
  | .frmApsSet p => some p
  | .frmOhCapture p => some p
  | .lineFrameRx _ _ => none
  | .frameAlignmentGain _ => none
  | .frameAlignmentLoss _ => none
  | .lofTimer _ => none
  | .lomTimer _ => none
  | .gccMessageRx _ => none
  | .seqEnd _ _ => none
  | .seqLdi _ _ => none
  | .seqLdh _ _ => none
  | .seqAdd _ _ => none
  | .seqAddi _ _ => none
  | .seqAnd _ _ => none
  | .seqOr _ _ => none
  | .seqXor _ _ => none
  | .seqShl _ _ => none
  | .seqShr _ _ => none
  | .seqLdt _ _ => none
  | .seqLdp _ _ => none
  | .seqLds _ _ => none
  | .seqSts _ _ => none
  | .seqRdb _ _ => none
  | .seqWrb _ _ => none
  | .seqCrc8 _ _ => none
  | .seqSkeq _ _ => none
  | .seqSkne _ _ => none
  | .seqSklt _ _ => none
  | .seqCnt _ _ => none
  | .seqEvt _ _ => none
  | .cliStatus p => some p
  | .cliTsRead p => some p
  | .clientBitslip p => some p
  | .ingressAlignment _ _ => none
  | .laneClockChange _ _ => none
  | .laneRetuneDone _ => none
  | .squelchDelayExpiry _ => none
  | .tsPacket _ _ _ _ _ => none
  | .cryStatus p => some p
  | .keyInstall p => some p
  | .keyInstallApply => none
  | .keySwitch p => some p
  | .keyZeroise p => some p
  | .cryGcmTest p _ => some p
  | .keStart p => some p
  | .keStatus p => some p
  | .keAbort p => some p
  | .keSecretSet p => some p
  | .pkVerify p => some p
  | .pkEcdh p => some p
  | .keEpochFloor p => some p
  | .epochRecordWritten _ => none
  | .keyUseLimit _ _ => none
  | .retiredKeyZeroise _ _ => none
  | .rxKeyCheckLimit _ _ => none
  | .offer _ => none
  | .answer _ => none
  | .confirm _ => none
  | .done _ => none
  | .abort _ => none
  | .keResendExpiry _ => none
  | .noPeerTimeout _ => none
  | .pkOpDone => none
  | .drbgReseed _ => none
  | .whStatus p => some p
  | .whSend p => some p
  | .whRecv p => some p
  | .whConfig p => some p
  | .whBankSwap p => some p
  | .whBankSwapApply _ => none
  | .whCapture p => some p
  | .whFrameStart _ => none
  | .whFrameSent _ => none
  | .whSyncDetect _ _ => none
  | .whHeader _ _ => none
  | .whFrameRx _ _ => none
  | .whLightChange _ _ => none
  | .pilotLock _ _ => none
  | .dmStatus p => some p
  | .dmJoin p => some p
  | .dmLeave p => some p
  | .dmPublish p => some p
  | .dmCfgRead p => some p
  | .dmSend p => some p
  | .dmRecv p => some p
  | .dmCall p => some p
  | .dmCallBind p => some p
  | .callWaitLimit => none
  | .cfgReq => none
  | .cfgPart => none
  | .call => none
  | .host => none
  | .probe => none
  | .probeReply => none
  | .beacon => none
  | .domainRecordWritten _ => none
  | .cfgAdopt => none
  | .fetchTimeout => none
  | .cfgSkewTimeout _ => none
  | .epochGraceExpiry _ => none
  | .pathTimeout _ => none
  | .whisperBeaconSend _ => none
  | .mateStatus p => some p
  | .mateSwitch p => some p
  | .mateFrameRx _ _ _ => none
  | .mateLaneDown _ => none
  | .mateActivate => none
  | .mateSwitchTick => none
  | .mateAutoSwitch => none
  | .mateHoldoffExpiry => none
  | .probeTimer => none
  | .juniorLeaseExpiry => none
  | .seniorTakeover => none
  | .peerLostTimeout => none
  | .calStatus p => some p
  | .calRun p => some p
  | .calStore p => some p
  | .calTest p => some p
  | .calTrimSet p => some p
  | .calSpareSet p => some p
  | .calDump p => some p
  | .foregroundCalDone _ _ => none
  | .calMeasurementDone _ _ => none
  | .spareCalDone _ _ => none
  | .spareSwap _ => none
  | .calStoreWritten _ => none
  | .tempSensorRead _ _ => none
  | .stwStatus p => some p
  | .tenStatus p => some p
  | .engImageLoad p _ => some p
  | .engImageFree p => some p
  | .stwPageAlloc p => some p
  | .pageRequestTimeout => none
  | .stwPageFree p => some p
  | .stwRenew p => some p
  | .stwDmaGrant p => some p
  | .stwDmaRelease p => some p
  | .tenantRevoke p => some p
  | .stwQuarantine p => some p
  | .stwRelease p => some p
  | .engTest p => some p
  | .runBudgetExpiry _ => none
  | .engineSelfTest _ _ => none
  | .zeroiseDone _ => none
  | .engEnd _ => none
  | .engNop _ => none
  | .engBr _ => none
  | .engEvt _ => none
  | .engSys _ => none
  | .engAdd _ => none
  | .engSub _ => none
  | .engAnd _ => none
  | .engOr _ => none
  | .engXor _ => none
  | .engShl _ => none
  | .engShr _ => none
  | .engSar _ => none
  | .engMovi _ => none
  | .engAddi _ => none
  | .engCmpeq _ => none
  | .engCmplt _ => none
  | .engCmpltu _ => none
  | .engMul _ => none
  | .engMulh _ => none
  | .engMulhu _ => none
  | .engVadd _ => none
  | .engVsub _ => none
  | .engVadds _ => none
  | .engVsubs _ => none
  | .engVmin _ => none
  | .engVmax _ => none
  | .engVand _ => none
  | .engVor _ => none
  | .engVxor _ => none
  | .engVshl _ => none
  | .engVshr _ => none
  | .engVsar _ => none
  | .engVcmpeq _ => none
  | .engVcmplt _ => none
  | .engVmul _ => none
  | .engMac _ => none
  | .engCmul _ => none
  | .engCmac _ => none
  | .engCmacc _ => none
  | .engBcast _ => none
  | .engShuf _ => none
  | .engRot _ => none
  | .engRedadd _ => none
  | .engIns _ => none
  | .engExt _ => none
  | .engPand _ => none
  | .engPor _ => none
  | .engPnot _ => none
  | .engPmov _ => none
  | .engLd _ => none
  | .engSt _ => none
  | .engVld _ => none
  | .engVst _ => none
  | .engVin _ => none
  | .engVout _ => none
  | .engSin _ => none
  | .engSout _ => none
  | .engSld _ => none
  | .engSst _ => none
  | .engSwait _ => none
  | .storeStatus p => some p
  | .storeScrub p => some p
  | .storeFallow p => some p
  | .storeFlush p => some p
  | .dmaStart p => some p
  | .dmaStatus p => some p
  | .dmaAbort p => some p
  | .crcUnit p => some p
  | .storeInject p => some p
  | .dmaDescriptor _ _ _ => none
  | .descriptorComplete _ => none
  | .mergeFlushTimeout => none
  | .quarantineTest _ _ _ => none
  | .fallowRecordWritten _ => none
  | .periodicScrub => none
  | .obsClear p => some p
  | .obsHarvestNow p => some p
  | .obsSampleRead p => some p
  | .harvest => none
  | .harvestRecordWritten => none
  | .equaliserConvergenceLost _ => none
  | .exchangeRecordExpiry _ => none
  | .missingOffsetRequest => none
  | .conflictFlagExpiry => none

/-- Is the command one that can be sent: its packet, if it carries one, is well formed, and does NOP's opcode, when it is not 0,
belong to no other row? -/
def Instr.wf (i : Instr) : Bool :=
  i.packet?.all Machine.packetWf && match i with
    | .nop op _ => op == 0 || !Machine.assigned.contains op.toNat
    | _ => true

end Sys2Proof
end

