-- ==== Sys2Proof/Machine/Operands.lean ====
section
/-! DEFINITION. Operands.lean: the operand forms of a command packet (R75 to R77): its bytes, key, check value and
parameter area. -/
namespace Sys2Proof.Machine

/-- The header bytes 0 to 59 of a packet with its opcode (R75): what the CRC covers before the pointer buffer. -/
def headBytes (op : Nat) (p : Packet) : Bytes :=
  le 2 op
    ++ le 2 (b2n p.latePolicy + 2 * b2n p.allowHit + 4 * b2n p.paramInline + 8 * b2n p.crcPresent
        + 16 * p.flagsRsvd.toNat)
    ++ le 2 (p.tag.toNat + 4096 * p.tagRsvd.toNat) ++ le 2 p.seq.toNat ++ le 8 p.atTick.toNat
    ++ le 2 (p.paramLen.toNat + 8192 * p.lenRsvd.toNat) ++ le 2 (p.carrier.toNat + 4 * p.carRsvd.toNat)
    ++ le 4 p.reqCfgVer.toNat ++ le 32 p.params.toNat ++ le 4 p.rsvd56.toNat

/-- The parameter bytes: inline, or the pointer buffer (R75). -/
def paramBytes (p : Packet) : Bytes :=
  if p.paramInline then (le 32 p.params.toNat).take p.paramLen.toNat else p.buf

/-- The check value the device computes for every command (R77). -/
def packetCrc (op : Nat) (p : Packet) : Nat :=
  crc32cSeed (0xFFFFFFFF ^^^ (p.q.val * 65536 + p.seq.toNat))
    (headBytes op p ++ if p.paramInline then [] else p.buf)

/-- The command's key (R84). -/
def packetKey (p : Packet) : CmdKey := { q := p.q.val, tag := p.tag.toNat, seq := p.seq.toNat }

/-- Does opcode `op` belong to a group whose commands must carry CRC_PRESENT, or come through the mailbox with none of
the three exceptions (R77)? -/
def crcRequired (op : Nat) (p : Packet) : Bool :=
  let g := bits op 13 8
  g == 8 || g == 9 || op == 0x20 || op == 0x21 || (p.q.val == 8 && op != 0 && op != 1 && op != 2)

/-- The parameter lengths an opcode allows (R81 step 8). -/
inductive LenRule
  | fixed (n : Nat)
  | range (lo hi step : Nat)
  | oneOf (ls : List Nat)
deriving DecidableEq, Repr

/-- Does the rule allow this length? -/
def LenRule.ok : LenRule → Nat → Bool
  | .fixed n, l => l == n
  | .range lo hi k, l => lo ≤ l && l ≤ hi && (l - lo) % k == 0
  | .oneOf ls, l => ls.contains l

/-- The DETAIL of a BAD_LENGTH at step 8 (R526): the fixed length; else the smallest allowed length above PARAM_LEN, or
the largest allowed length. -/
def LenRule.detail : LenRule → Nat → Nat
  | .fixed n, _ => n
  | .range lo hi k, l =>
    let top := lo + (hi - lo) / k * k
    if l < lo then lo else if l ≥ top then top else lo + ((l - lo) / k + 1) * k
  | .oneOf ls, l =>
    match ls.filter (l < ·) with
    | [] => ls.foldl max 0
    | b :: bs => bs.foldl min b

/-- What the chapters say of an opcode (R76, R81, R90): whether AT_TICK may be nonzero, whether it belongs to the long
class, needs a session, which CARRIER codes it takes, its parameter length, whether it carries a result descriptor, whether the power state must be
a LINE state. -/
structure CmdInfo where
  op : Nat
  timed : Bool := false
  long : Bool := false
  session : Bool := true
  carriers : List Nat := [0]
  len : LenRule := .fixed 0
  desc : Bool := false
  line : Bool := false
deriving DecidableEq, Repr

/-- Is the opcode an expert opcode (R10)? -/
def CmdInfo.expert (i : CmdInfo) : Bool := i.op.testBit 14

end Sys2Proof.Machine
end

