-- ==== Sys2Proof/Machine/Ops.lean ====
section
/-! DEFINITION. Ops.lean: the operations every command shares: writing completions (R71, R78, R79), the completion cache
(R84), results, sessions (R88), the timed-action table's bookkeeping (R52) and host memory. -/
namespace Sys2Proof.Machine

/-! ## Host memory as the device writes it -/

/-- Write bytes to host memory at `addr` (addresses are 64 bits wide). -/
def hostWrite (addr : Nat) (bs : Bytes) (s : State) : State :=
  { s with hostMem := SMap.putAll (0 : Byte) s.hostMem addr bs }

/-! ## Queues -/

/-- Change queue `q`. -/
def updQ (q : Nat) (f : Queue → Queue) (s : State) : State :=
  { s with cmd := { s.cmd with queues := lmod s.cmd.queues q f } }

/-- Queue `q`. -/
def getQ (s : State) (q : Nat) : Queue := s.cmd.queues.getD q {}

/-- Does queue `q`'s CQ have no free entry (R71)? -/
def cqFull (s : State) (q : Nat) : Bool :=
  let u := getQ s q
  (u.cqTail + 1) % 2 ^ u.cqLog2 == u.cqHead

/-- Signal the vector of queue `q` for the completions that wait (R518). -/
def cqSignal (q : Nat) (s : State) : State :=
  signal (getQ s q).vector (updQ q (fun u => { u with unsignalled := 0, coalStart := none }) s)

/-- The 32 bytes of a completion entry (R79) with its PHASE and SQ_HEAD. -/
def entBytes (c : Cpl) (phase : Bool) (sqHead : Nat) : Bytes :=
  le 2 c.tag ++ le 2 c.seq ++ le 2 c.status
    ++ le 2 (b2n phase + 2 * b2n c.dup + 4 * b2n c.resultPtr + 8 * b2n c.lateExec) ++ le 2 sqHead ++ le 2 c.opcode
    ++ le 4 c.detail ++ le 8 c.execTick ++ le 8 c.result

/-- Write one completion entry into CQ `q`, at its place from the CQ base on in host memory (R71, R79), signal when COAL_COUNT
is reached (R518), and report a CQ that has become full (event 0x07). -/
def cqWrite (q : Nat) (c : Cpl) (s : State) : State :=
  let u := getQ s q
  let s := hostWrite (u.cqBase + 32 * u.cqTail) (entBytes c u.phase u.sqHead) s
  let s := updQ q (fun u =>
    { u with
      ring := SMap.put none u.ring u.cqTail (some { cpl := c, phase := u.phase, sqHead := u.sqHead }),
      cqTail := (u.cqTail + 1) % 2 ^ u.cqLog2,
      phase := if u.cqTail + 1 = 2 ^ u.cqLog2 then !u.phase else u.phase,
      unsignalled := u.unsignalled + 1,
      coalStart := if u.unsignalled = 0 then some s.elapsed else u.coalStart }) s
  let s := if max 1 u.coalCount ≤ u.unsignalled + 1 then cqSignal q s else s
  raiseIf (cqFull s q) 0x07 s

/-- The 32 bytes of a mailbox completion entry (R79, R95): PHASE and SQ_HEAD read as 0. -/
def cplBytes (c : Cpl) : Bytes := entBytes c false 0

/-- Write a completion into the mailbox: BUSY ends, DONE is set, event 0x0D is raised (R94, R101). -/
def mailboxWrite (c : Cpl) (s : State) : State :=
  raise 0x0D { s with cmd := { s.cmd with mb := { s.cmd.mb with
    cpl := cplBytes c, busy := false, taken := false, done := true } } }

/-- Hold a completion until it can be written (R56, R71). -/
def holdCpl (q : Nat) (c : Cpl) (timed : Bool) (s : State) : State :=
  { s with cmd := { s.cmd with held := s.cmd.held ++ [{ q := q, cpl := c, timed := timed }] } }

/-- Write a completion of queue `q`, hold it while the firmware restarts, while earlier ones of the queue wait or while
its CQ is full; a disabled queue's completion is discarded (R71, R73). -/
def post (q : Nat) (c : Cpl) (timed : Bool) (s : State) : State :=
  if !s.sys.fwRunning then holdCpl q c timed s
  else if q = 8 then mailboxWrite c s
  else if !(getQ s q).enabled then s
  else if s.cmd.held.any (·.q == q) || cqFull s q then holdCpl q c timed s
  else cqWrite q c s

/-- Does the entry take a place in the timed-action table: any but an automatic switch (R265)? -/
def Entry.tabled (e : Entry) : Bool :=
  !e.internal || (match e.action with
    | .keSwitch _ _ => true
    | _ => false)

/-- Entries of the timed-action table in use: from acceptance until the completion is written (R52), those executed that wait
for their data among them. -/
def timedUsed (s : State) : Nat :=
  (s.cmd.entries.filter (·.tabled)).length + (s.cmd.opens.filter (·.timed.isSome)).length
    + (s.cmd.held.filter (·.timed)).length

/-- Re-arm TIMED_TABLE_HIGH once the table has fallen below 820 (R101). -/
def rearmHigh (s : State) : State :=
  if timedUsed s < 820 then { s with cmd := { s.cmd with timedHigh := true } } else s

/-- Write the oldest held completion of queue `q` if it can be written now (R71). -/
def writeHeld (q : Nat) (s : State) : State :=
  match s.cmd.held.find? (·.q == q) with
  | none => s
  | some h =>
    if !s.sys.fwRunning || (q != 8 && cqFull s q) then s
    else
      let s := rearmHigh { s with cmd := { s.cmd with held := s.cmd.held.erase h } }
      if q = 8 then mailboxWrite h.cpl s else cqWrite q h.cpl s

/-! ## The completion cache -/

/-- Enter a completion into the cache, BUSY ones apart; the oldest entry is dropped when it is full (R84). -/
def cacheAdd (key : CmdKey) (crc : Nat) (c : Cpl) (s : State) : State :=
  if c.status = 0x32 then s else { s with cmd := { s.cmd with cache := ({ key := key, crc := crc, cpl := c } :: s.cmd.cache).take 4096 } }

/-- The completion of a command with the given outcome, decided in the present tick (R55, R79). -/
def cplOf (s : State) (op : Nat) (p : Packet) (st detail result : Nat) : Cpl :=
  { tag := p.tag.toNat, seq := p.seq.toNat, status := st, opcode := op, detail := detail, execTick := s.tick,
    result := result }

/-- Decide and write the completion of a command: it enters the cache and is posted. -/
def decide_ (op crc : Nat) (p : Packet) (c : Cpl) (timed : Bool) (s : State) : State :=
  post p.q.val c timed (cacheAdd (packetKey p) crc c s)

/-! ## Results -/

/-- Write a result through the command's descriptor (R78): in the mailbox to the result area, else to host memory. The
result is the RESULT field of the completion. DESIGN CHOICE: of a mailbox result longer than the result area's 4,096 bytes the
excess cannot be read (R95). -/
def putResult (p : Packet) (bs : Bytes) (s : State) : Nat × State :=
  if p.q.val = 8 then
    (0x80002020, { s with cmd := { s.cmd with mb := { s.cmd.mb with
      res := SMap.putAll (0 : Byte) s.cmd.mb.res 0 bs } } })
  else
    let a := fld (paramBytes p) 0 8
    (a, hostWrite a bs s)

/-- The outcome of a command that has run: a status with its DETAIL and inline result, result bytes for the descriptor's
buffer, or still open. -/
inductive Reply
  | st (status : Nat) (detail : Nat := 0) (result : Nat := 0)
  | data (bs : Bytes)
  | wait
deriving DecidableEq, Repr

/-- OK with an inline result. -/
def Reply.ok (result : Nat := 0) : Reply := .st 0 0 result

/-- Turn a reply into the completion and the state with its result written (R78): a result above the descriptor's
capacity gives BAD_LENGTH with the required length and nothing is written. -/
def replyCpl (op : Nat) (p : Packet) (r : Reply) (s : State) : Option (Cpl × State) :=
  match r with
  | .st st d res => some (cplOf s op p st d res, s)
  | .data bs =>
    if fld (paramBytes p) 8 4 < bs.length then some (cplOf s op p 0x12 bs.length 0, s)
    else
      let (a, s) := putResult p bs s
      some ({ cplOf s op p 0 bs.length a with resultPtr := true }, s)
  | .wait => none

/-! ## Open commands -/

/-- Is this the key of an open command? -/
def openCmd (s : State) (k : CmdKey) : Option OpenCmd := s.cmd.opens.find? fun o => packetKey o.p == k

/-- Remove an open command. -/
def dropOpen (k : CmdKey) (s : State) : State :=
  { s with cmd := { s.cmd with opens := s.cmd.opens.filter fun o => packetKey o.p != k } }

/-- A result that arrives after its command's deadline: discarded, counted and reported by event 0x0A (R91). -/
def lateResult (k : CmdKey) (s : State) : State :=
  if s.cmd.expired.contains k then
    raise 0x0A (bump 23 { s with cmd := { s.cmd with expired := s.cmd.expired.erase k } })
  else s

/-- A result for an open command: its completion is decided and written; when the command has already been completed
at its deadline, the result is a late one (R91). -/
def finish (k : CmdKey) (r : Reply) (s : State) : State :=
  match openCmd s k with
  | none => lateResult k s
  | some o =>
    match replyCpl o.opcode o.p r s with
    | none => s
    | some (c, s) =>
      let c := match o.timed with
        | some (t, late) => { c with lateExec := late && c.status == 0, execTick := t }
        | none => c
      rearmHigh (decide_ o.opcode o.crc o.p c o.timed.isSome (dropOpen k s))

/-- A result for a command that may have no owner (the device's own operations have none). -/
def finishOpt (k : Option CmdKey) (r : Reply) (s : State) : State :=
  match k with
  | none => s
  | some k => finish k r s

/-! ## The timed-action table's bookkeeping -/

/-- Accepted commands whose completion is not yet decided (R72). DESIGN CHOICE: one that is decided and held for want of a CQ entry
counts no longer. -/
def inFlight (s : State) : Nat :=
  s.cmd.opens.length + (s.cmd.entries.filter (!·.internal)).length + s.dm.binds.length

/-- Report the table's rise to 922 entries, once per rise (R101). -/
def checkHigh (s : State) : State :=
  if s.cmd.timedHigh && 922 ≤ timedUsed s then raise 0x09 { s with cmd := { s.cmd with timedHigh := false } } else s

/-- Complete a timed entry that has left the table (R55, R73), its completion giving tick `t`: an orphan's completion is
discarded and counted. DESIGN CHOICE: a discarded completion does not enter the cache, whose entries of the queue the disable
has dropped (R73, R84). -/
def entryReply (e : Entry) (t : Nat) (r : Reply) (s : State) : State :=
  if e.internal then rearmHigh s
  else if e.orphan then rearmHigh (bump 22 s)
  else
    match replyCpl e.opcode e.p r s with
    | none => s
    | some (c, s) =>
      let c := { c with lateExec := e.lateExec && c.status == 0, execTick := t }
      rearmHigh (decide_ e.opcode e.crc e.p c true s)

/-- Complete a timed entry in the present tick with a status. -/
def entryCpl (e : Entry) (st detail result : Nat) (s : State) : State := entryReply e s.tick (.st st detail result) s

/-! ## Sessions -/

/-- The session of queue `q`, if open. -/
def getSess (s : State) (q : Nat) : Option Session := s.cmd.sess.getD q none

/-- Set the session of queue `q`. -/
def setSess (q : Nat) (v : Option Session) (s : State) : State :=
  { s with cmd := { s.cmd with sess := s.cmd.sess.set q v } }

/-- End queue `q`'s session (R88): the open shadow and expert access go with it, PREPARED Solstices are cancelled, armed
ones are held by no session, an unfinished firmware update ends with its slot invalid. -/
def endSession (q : Nat) (s : State) : State :=
  let sols := (s.cmd.sols.filter fun x => !(x.owner == some q && x.st == .prepared)).map fun x =>
    if x.owner == some q then { x with owner := none } else x
  let s := setSess q none { s with cmd := { s.cmd with sols := sols } }
  if s.flash.updateBy == some q then { s with flash := { s.flash with updateBy := none } } else s

/-- A session that ends other than by SESSION_CLOSE raises SESSION_LOST (R88). DESIGN CHOICE: an event carries no data of its own
(16_observability.md), so the queue number that R88 names with the event is kept nowhere (log entry 188). -/
def loseSession (q : Nat) (s : State) : State :=
  if (getSess s q).isSome then raise 0x00 (endSession q s) else s

/-- Disable queue pair `q` (R73): its session closes, its untimed commands abort unwritten, its timed entries stay with
their completions to be discarded, completions of timed commands that are held or wait for data are discarded and counted, its cache entries are
dropped, waiting completions are signalled at once (R518). DESIGN CHOICE: of what an aborted untimed command has set going,
opens and binds end here; a page request, a gating and a power move run on, their results discarded; the specification
does not say. -/
def disableQueue (q : Nat) (s : State) : State :=
  if !(getQ s q).enabled then s
  else
    let s := if (getQ s q).unsignalled = 0 then s else cqSignal q s
    let s := loseSession q s
    let n := (s.cmd.held.filter fun h => h.q == q && h.timed).length
      + (s.cmd.opens.filter fun o => o.p.q.val == q && o.timed.isSome).length
    let s := if n = 0 then s else bumpBy 22 n s
    rearmHigh { updQ q (fun u => { u with enabled := false, retry := .none_ }) s with
      cmd := { (updQ q (fun u => { u with enabled := false, retry := .none_ }) s).cmd with
        opens := s.cmd.opens.filter fun o => o.p.q.val != q,
        entries := s.cmd.entries.map fun e => if e.p.q.val = q && !e.internal then { e with orphan := true } else e,
        held := s.cmd.held.filter (·.q != q),
        cache := s.cmd.cache.filter fun c => c.key.q != q },
      dm := { s.dm with binds := s.dm.binds.filter fun b => b.p.q.val != q } }

/-! ## Flash operations -/

/-- Queue a flash operation; operations run one at a time in order of acceptance (R99). -/
def flashAdd (op : FlashOp) (s : State) : State := { s with flash := { s.flash with ops := s.flash.ops ++ [op] } }

/-- Read flash bytes; an erased byte reads 0xFF. -/
def flashRead (s : State) (addr n : Nat) : Bytes := SMap.getAll (0xFF : Byte) s.flash.mem addr n

/-- Program flash bytes (the sector is erased first by every writer of this model). -/
def flashProgram (addr : Nat) (bs : Bytes) (s : State) : State :=
  { s with flash := { s.flash with mem := SMap.putAll (0xFF : Byte) s.flash.mem addr bs } }

/-- Erase `n` bytes of flash at `addr`. -/
def flashErase (addr n : Nat) (s : State) : State :=
  { s with flash := { s.flash with mem := s.flash.mem.filter fun c => c.1 < addr || addr + n ≤ c.1 } }

/-- A flash operation has ended (R101, R102, R96): counted, its failure noted, FLASH_DONE raised. -/
def flashEnded (st : Nat) (s : State) : State :=
  let s := bump 29 s
  let s := if st = 0 then s
    else bump 30 { s with flash := { s.flash with lastErr := st, lastErrTick := s.tick } }
  raise 0x0C { s with flash := { s.flash with ops := s.flash.ops.tail } }

/-! ## Health -/

/-- A Replace Request cause: its SVC_REQ bits are set until reset; SVC_REQUEST is raised when it first arises (R476). -/
def svcCause (mask : Nat) (s : State) : State :=
  if s.pwr.svcReq &&& mask = mask then s
  else raise 0x15 { s with pwr := { s.pwr with svcReq := s.pwr.svcReq ||| mask } }

/-- Set a bit of SYS_ERR (R513). -/
def sysErr (b : Nat) (s : State) : State :=
  let m := BitVec.ofNat 7 (2 ^ b)
  { s with sys := { s.sys with err := s.sys.err ||| m, errSet := s.sys.errSet ||| m } }

/-- A lock violation (R17). -/
def lockViol (s : State) : State := raise 0x06 (sysErr 0 s)

end Sys2Proof.Machine
end

