-- ==== Sys2Proof/Machine/Command.lean ====
section
/-! DEFINITION. Command.lean: how a command packet is fetched, validated, accepted and answered (R68 to R92, R526, R528):
one pipeline that every host command runs through. -/
namespace Sys2Proof.Machine

/-! ## Status codes (R92) -/

/-- BAD_OPCODE. -/
def stBadOpcode : Nat := 0x10
/-- BAD_PARAM. -/
def stBadParam : Nat := 0x11
/-- BAD_LENGTH. -/
def stBadLength : Nat := 0x12
/-- BAD_CRC. -/
def stBadCrc : Nat := 0x13
/-- LATE. -/
def stLate : Nat := 0x20
/-- TOO_FAR. -/
def stTooFar : Nat := 0x21
/-- LOCKED. -/
def stLocked : Nat := 0x30
/-- WRONG_STATE. -/
def stWrongState : Nat := 0x31
/-- BUSY. -/
def stBusy : Nat := 0x32
/-- TAG_CONFLICT. -/
def stTagConflict : Nat := 0x40
/-- STALE. -/
def stStale : Nat := 0x41
/-- NO_RESOURCE. -/
def stNoResource : Nat := 0x50
/-- AUTH_FAIL. -/
def stAuthFail : Nat := 0x60
/-- VERSION_SKEW. -/
def stVersionSkew : Nat := 0x70
/-- TIMEOUT_INTERNAL. -/
def stTimeout : Nat := 0x80
/-- ABORTED. -/
def stAborted : Nat := 0x81
/-- DISRUPTIVE_REQUIRED. -/
def stDisruptive : Nat := 0x82
/-- DEVICE_FAULT. -/
def stDeviceFault : Nat := 0xF0

/-! ## Fetching (R70 to R72) -/

/-- May SQ `q` be fetched from: enabled, not empty, its CQ not full, no completion of it held (R69, R71)? -/
def sqReady (s : State) (q : Nat) : Bool :=
  let u := getQ s q
  u.enabled && u.sqHead != u.sqTail && !cqFull s q && !(s.cmd.held.any (·.q == q))

/-- The SQ the device fetches from next: the one under visit for up to 8 consecutive entries, then the next in turn
(R70). -/
def nextVisit (s : State) : Option Nat :=
  let v := s.cmd.visitQ
  if sqReady s v && s.cmd.visitN < 8 then some v
  else ((List.range 8).map fun i => (v + 1 + i) % 8).find? (sqReady s)

/-- Does the device fetch commands: firmware running, not at the in-flight limit (R72), not in PARK? -/
def fetching (s : State) : Bool := s.sys.fwRunning && inFlight s < 4096 && s.pwr.state != 1

/-- Do the bytes in the mailbox spell this packet (R94, R95)? -/
def mailboxHolds (s : State) (op : Nat) (p : Packet) : Bool :=
  SMap.getAll (0 : Byte) s.cmd.mb.req 0 64 == headBytes op p ++ le 4 p.crc.toNat
    && (p.paramInline || SMap.getAll (0 : Byte) s.cmd.mb.req 0x40 p.paramLen.toNat == p.buf)

/-- Fetch one SQ entry: the SQ head and the visit advance. -/
def takeSq (q : Nat) (s : State) : State :=
  let s := updQ q (fun u => { u with
    sqHead := (u.sqHead + 1) % 2 ^ u.sqLog2, retry := if u.retry = .again then .last else .none_ }) s
  { s with cmd := { s.cmd with
    visitN := if q = s.cmd.visitQ ∧ s.cmd.visitN < 8 then s.cmd.visitN + 1 else 1, visitQ := q } }

/-- The device's fetch of this packet: the state after it, or none while it does not fetch it (the packet then stays
where the host put it). -/
def fetch (op : Nat) (p : Packet) (s : State) : Option State :=
  if !fetching s then none
  else if p.q.val = 8 then
    if s.cmd.mb.busy && !s.cmd.mb.taken && mailboxHolds s op p then
      some { s with cmd := { s.cmd with mb := { s.cmd.mb with taken := true } } }
    else none
  else if nextVisit s = some p.q.val then some (takeSq p.q.val s)
  else none

/-! ## Validation (R81) -/

/-- A refusal: the step of R81 that failed, the status and DETAIL. -/
structure Refuse where
  step : Nat
  st : Nat
  detail : Nat := 0
deriving DecidableEq, Repr

/-- Refuse with a status unless a condition holds. -/
def need (c : Bool) (r : Refuse) : Option Refuse := if c then none else some r

/-- The first refusal of a list of checks. -/
def firstOf : List (Option Refuse) → Option Refuse
  | [] => none
  | some r :: _ => some r
  | none :: rs => firstOf rs

/-- Step 2: PARAM_LEN within its limits (R76, R526). -/
def checkLen (op : Nat) (p : Packet) : Option Refuse :=
  let lim := if p.paramInline then 32 else if op = 0x0B05 then 4100 else 4096
  need (p.paramLen.toNat ≤ lim) { step := 2, st := stBadLength, detail := lim }

/-- The DETAIL of a header field (R526). -/
def hdr (off : Nat) : Nat := 0x80000000 + off

/-- A BAD_PARAM at step 8 with this DETAIL. -/
def badParam (detail : Nat) : Refuse := { step := 8, st := stBadParam, detail := detail }

/-- Step 8's header checks in the order R81 gives: reserved bits, flags, CARRIER, AT_TICK, alignment (R76, R77). -/
def checkHeader (i : CmdInfo) (p : Packet) : List (Option Refuse) :=
  let ptr := p.params.toNat % 2 ^ 64
  [ need (p.flagsRsvd == 0) (badParam (hdr 2)),
    need (p.tagRsvd == 0) (badParam (hdr 4)),
    need (p.lenRsvd == 0) (badParam (hdr 0x10)),
    need (p.carRsvd == 0) (badParam (hdr 0x12)),
    need (p.paramInline || p.params.toNat / 2 ^ 64 == 0) (badParam (hdr 0x20)),
    need (p.rsvd56 == 0) (badParam (hdr 0x38)),
    need (p.crcPresent || !crcRequired i.op p) (badParam (hdr 2)),
    need (i.carriers.contains p.carrier.toNat) (badParam (hdr 0x12)),
    need (i.timed || p.atTick == 0) (badParam (hdr 8)),
    need (p.paramInline || p.paramLen == 0 || (if p.q.val = 8 then ptr == 0 else ptr % 8 == 0))
      (badParam (hdr 0x18)) ]

/-- Step 8's parameter length and result descriptor (R78, R95). -/
def checkParams (i : CmdInfo) (p : Packet) : List (Option Refuse) :=
  let bs := paramBytes p
  let a := fld bs 0 8
  [ need (i.len.ok bs.length) { step := 8, st := stBadLength, detail := i.len.detail bs.length },
    need (!i.desc || (if p.q.val = 8 then a == 0 else a % 8 == 0)) (badParam 0),
    need (!i.desc || fld bs 12 4 == 0) (badParam 12) ]

/-- Has the issuing queue a session, with expert access where the opcode needs it, and does the power state permit the opcode
(R81 step 7, R87, R89)? -/
def checkSession (i : CmdInfo) (p : Packet) (s : State) : Option Refuse :=
  let r : Refuse := { step := 7, st := stWrongState }
  let power : Bool := !i.line || s.pwr.state == 3 || s.pwr.state == 4
  match getSess s p.q.val with
  | none => need (!i.session && !i.expert && power) r
  | some x => need ((!i.expert || x.expert) && power) r

/-- Step 9: the required domain config version (R81). -/
def checkVersion (p : Packet) (s : State) : Option Refuse :=
  need (p.reqCfgVer == 0 || p.reqCfgVer.toNat == s.cfgVersion) { step := 9, st := stVersionSkew }

/-- Steps 7 to 9, with the opcode's own checks of its parameter values. -/
def checks (i : CmdInfo) (p : Packet) (chk : State → Option Refuse) (s : State) : Option Refuse :=
  firstOf (checkSession i p s :: checkHeader i p ++ checkParams i p ++ [chk s, checkVersion p s])

/-! ## Duplicates (R85) -/

/-- What step 5 makes of a command. -/
inductive Dup
  | fresh
  | replay (c : Cpl)
  | refuse (st : Nat)
deriving DecidableEq, Repr

/-- The keys and check values of accepted commands whose completion is not yet decided. -/
def undecided (s : State) : List (CmdKey × Nat) :=
  (s.cmd.opens.map fun o => (packetKey o.p, o.crc))
    ++ ((s.cmd.entries.filter (!·.internal)).map fun e => (packetKey e.p, e.crc))
    ++ s.dm.binds.map fun b => (packetKey b.p, b.crc)

/-- Step 5: the rows of R85 in order. -/
def dupOf (s : State) (k : CmdKey) (crc : Nat) : Dup :=
  match s.cmd.cache.find? (·.key == k) with
  | some c => if c.crc = crc then .replay c.cpl else .refuse stTagConflict
  | none =>
    match (undecided s).find? (·.1 == k) with
    | some x => if x.2 = crc then .refuse stBusy else .refuse stTagConflict
    | none =>
      if (undecided s).any (fun x => x.1.q == k.q && x.1.tag == k.tag) then .refuse stTagConflict
      else
        match s.cmd.newest.getD k.q none with
        | none => .fresh
        | some n => if (n + 65536 - k.seq) % 65536 ≥ 32768 then .fresh else .refuse stStale

/-! ## Answers -/

/-- A set refused with SLOT_FIT is counted for the carrier its DETAIL names (R133). -/
def countSlotFit (st detail : Nat) (s : State) : State :=
  if st = 0x1301 then bump (192 + 9 * (detail / 65536 - 1) + 8) s else s

/-- Write a refusal's completion and count it under its step (R81, R102). -/
def refuse (op : Nat) (p : Packet) (r : Refuse) (s : State) : State :=
  let c := cplOf s op p r.st r.detail 0
  let s := countSlotFit r.st r.detail s
  let s := bump (8 + r.step) s
  if r.step ≥ 6 then decide_ op (packetCrc op p) p c false s else post p.q.val c false s

/-- Accept a command: counted for its queue, with its place in the order of acceptance (R48, R102). -/
def accept (p : Packet) (s : State) : State :=
  let s := bump p.q.val s
  { s with cmd := { s.cmd with acceptNo := s.cmd.acceptNo + 1 } }

/-- Report the in-flight limit when the total has reached 4,096 (R72). -/
def checkInFlight (s : State) : State := raiseIf (inFlight s == 4096) 0x08 s

/-- What becomes of an accepted immediate or long command: its completion is decided at once, or it stays open until its
result or its device deadline, 40 or 900,000 ticks on (R90). -/
def answer (i : CmdInfo) (p : Packet) (r : Reply) (s : State) : State :=
  let crc := packetCrc i.op p
  match replyCpl i.op p r s with
  | some (c, s) => decide_ i.op crc p c false s
  | none =>
    checkInFlight { s with cmd := { s.cmd with opens := s.cmd.opens ++
      [{ p := p, opcode := i.op, crc := crc, acceptTick := s.tick,
         deadline := s.elapsed + if i.long then 900000 else 40 }] } }

/-- Run an accepted immediate or long command. -/
def runNow (i : CmdInfo) (p : Packet) (h : State → Reply × State) (s : State) : State :=
  let (r, s) := h (accept p s)
  answer i p r s

/-- Step 5 passed: the sequence is the queue's newest (R85). -/
def noted (p : Packet) (s : State) : State :=
  { s with cmd := { s.cmd with newest := s.cmd.newest.set p.q.val (some p.seq.toNat) } }

/-- Steps 2 to 5 and what follows: `pre` is every later check, `act` the accepted command's effect. -/
def handle (op : Nat) (p : Packet) (pre : State → Option Refuse) (act : State → State) (s : State) : State :=
  match checkLen op p with
  | some r => refuse op p r s
  | none =>
    let crc := packetCrc op p
    if p.crcPresent && crc != p.crc.toNat then raise 0x0E (refuse op p { step := 4, st := stBadCrc } s)
    else
      match dupOf s (packetKey p) crc with
      | .replay c => post p.q.val { c with dup := true } false (bump 21 s)
      | .refuse st => refuse op p { step := 5, st := st } s
      | .fresh =>
        let s := noted p s
        if s.sys.deviceFault then decide_ op crc p (cplOf s op p stDeviceFault 0 0) false (bump 31 s)
        else
          match pre s with
          | some r => refuse op p r s
          | none => act s

/-! ## Timed commands (R50 to R52, R66) -/

/-- The earliest tick a change class permits from acceptance tick `now` (R50). -/
def earliest (cls : ChangeClass) (now : Nat) : Nat :=
  match cls with
  | .line => roundUp 256 (now + 264)
  | _ => now + 8

/-- The execution tick of an at-tick, and whether it is later than asked; or the refusal of step 10 (R50, R51). -/
def placeAt (cls : ChangeClass) (p : Packet) (now : Nat) : Except Refuse (Nat × Bool) :=
  let a := p.atTick.toNat
  if cls = .line ∧ a % 256 ≠ 0 then .error { step := 10, st := stBadParam, detail := hdr 8 }
  else if 2 ^ 32 < a - now then .error { step := 10, st := stTooFar }
  else if a = 0 then .ok (earliest cls now, false)
  else if earliest cls now ≤ a then .ok (a, false)
  else if p.latePolicy then .ok (earliest cls now, true)
  else .error { step := 10, st := stLate }

/-- Steps 10 to 12 for a command of class `cls` (R66, R52). -/
def checkTimed (cls : ChangeClass) (p : Packet) (s : State) : Option Refuse :=
  match placeAt cls p s.tick with
  | .error r => some r
  | .ok _ =>
    if cls = .disruptive ∧ !p.allowHit then some { step := 11, st := stDisruptive }
    else need (timedUsed s < 1024) { step := 12, st := stNoResource }

/-- The entry of the timed-action table that an accepted command takes (R52): its execution tick `t`, and whether that is
later than asked (R51). The state is the one in which its acceptance has been counted. -/
def entryOf (op : Nat) (p : Packet) (action : Action) (cls : ChangeClass) (t : Nat) (late : Bool) (s : State) : Entry :=
  { p := p, opcode := op, crc := packetCrc op p, action := action, cls := cls,
    atTick := if p.atTick = 0 then t else p.atTick.toNat, execTick := t, acceptNo := s.cmd.acceptNo,
    acceptTick := s.tick, lateExec := late }

/-- Put an entry into the timed-action table. -/
def enter (e : Entry) (s : State) : State :=
  checkInFlight (checkHigh { s with cmd := { s.cmd with entries := s.cmd.entries ++ [e] } })

/-- Take an entry of the timed-action table for an accepted command (R52). -/
def schedule (op : Nat) (p : Packet) (action : Action) (cls : ChangeClass) (s : State) : State :=
  match placeAt cls p s.tick with
  | .error _ => s
  | .ok (t, late) =>
    let s := accept p s
    enter (entryOf op p action cls t late s) s

end Sys2Proof.Machine
end

