-- ==== Sys2Proof/Machine/Observe.lean ====
section
/-! DEFINITION. Observe.lean: counters, Harvest and samples (group 0xF, R445 to R461). -/
namespace Sys2Proof.Machine

/-- The reply and state of a command whose result removes what it returns: nothing is removed when the result exceeds
the descriptor's capacity (R78). -/
def takeData (p : Packet) (bs : Bytes) (s s' : State) : Reply × State :=
  (.data bs, if fld (paramBytes p) 8 4 < bs.length then s else s')

/-- Clear counters [first, first + n) and their SAT flags (R449): what the present tick has counted so far belongs to the new
period (R49). -/
def clearCounters (first n : Nat) (s : State) : State :=
  let out (k : Nat) : Bool := k < first || first + n ≤ k
  { s with obs := { s.obs with
    cnt := s.obs.cnt.filterMap fun c =>
      if out c.1 then some c
      else if c.2 ≤ SMap.get 0 s.obs.cnt0 c.1 then none else some (c.1, c.2 - SMap.get 0 s.obs.cnt0 c.1),
    cnt0 := s.obs.cnt0.filter fun c => out c.1,
    sat := s.obs.sat.filter fun c => out c.1 } }

/-- Counter `k` starts anew for another selection (R450), with what the present tick has counted of that selection so far: it
belongs to the new period (R49). -/
def restartCounter (k now : Nat) (s : State) : State :=
  { s with obs := { s.obs with
    cnt := SMap.put 0 s.obs.cnt k now,
    cnt0 := s.obs.cnt0.filter fun c => c.1 != k,
    sat := s.obs.sat.filter fun c => c.1 != k } }

/-- OBS_CLEAR (R460): timed, local. -/
def infoObsClear : CmdInfo := { op := 0x0F00, timed := true, len := .fixed 4 }

/-- The range checks of OBS_CLEAR. -/
def chkObsClear (p : Packet) (_ : State) : Option Refuse :=
  let b := paramBytes p
  let f := fld b 0 2
  let n := fld b 2 2
  firstOf [need (f ≤ 2047) (badParam 0), need (1 ≤ n && n ≤ 2048 && f + n ≤ 2048) (badParam 2)]

/-- OBS_HARVEST_NOW (R460): timed, local. -/
def infoObsHarvestNow : CmdInfo := { op := 0x0F01, timed := true }

/-- OBS_SAMPLE_READ (R460). -/
def infoObsSampleRead : CmdInfo := { op := 0x0F02, len := .fixed 18, desc := true }

/-! ## Harvest -/

/-- The 8 bytes of counter `n` in a record (R451): as the tick began, whatever its commit window has counted or cleared (R449). -/
def counterBytes (s : State) (n : Nat) : Bytes :=
  le 6 (SMap.get 0 s.obs.cntH n) ++ le 2 (b2n (SMap.get false s.obs.satH n))

/-- A Harvest record for tick H (R451). -/
def harvestRecord (s : State) : Bytes :=
  let head := le 4 0x48520001 ++ le 4 s.obs.harvSeq ++ le 8 s.tick ++ le 2 (s.parN 0xF001 0)
    ++ le 1 (byteAt (s.par 0xF002 0) 0) ++ zeros 1 ++ le 4 s.obs.skipped ++ le 4 s.obs.dropped ++ zeros 32
  let body := (List.range 2048).flatMap (counterBytes s)
  head ++ le 4 (crc32c (head ++ body)) ++ body

/-- Is the host ring full (R452)? -/
def ringFull (s : State) : Bool :=
  let d := s.par 0xF002 0
  byteAt d 0 == 1 && (s.obs.harvTail + 1) % fld d 4 2 == s.sys.harvHead

/-- Take a Harvest in the present commit window (R451, R452): without a destination, or while its destination is lost,
none is taken. -/
def takeHarvest (s : State) : State :=
  let d := s.par 0xF002 0
  if byteAt d 0 = 0 || s.obs.harvLost then s
  else
    let s := { s with obs := { s.obs with harvSeq := (s.obs.harvSeq + 1) % 2 ^ 32 } }
    if s.obs.harvWriting then
      bump 1921 { s with obs := { s.obs with skipped := s.obs.skipped + 1 } }
    else if ringFull s then
      let s := bump 1922 { s with obs := { s.obs with dropped := s.obs.dropped + 1 } }
      if s.obs.harvDropEpoch = some (s.tick / 500) then s
      else raise 0xF1 { s with obs := { s.obs with harvDropEpoch := some (s.tick / 500) } }
    else { s with obs := { s.obs with harvWriting := true, harvRec := harvestRecord s } }

/-- Is a Harvest due in this tick and not yet taken (R451)? -/
def harvestDue (s : State) : Bool := !s.harvestDone && s.tick % max 1 (s.parN 0xF001 0) == 0

/-- Take the Harvest that is due in this tick, once. -/
def harvestNow (s : State) : State :=
  if harvestDue s then takeHarvest { s with harvestDone := true } else s

/-- HARVEST: in the commit window of its tick. -/
def execHarvest (s : State) : Out := within harvestNow s

/-! ## Sampling -/

/-- Put a sample into the buffer (R454). -/
def addSample (b : Bytes) (s : State) : State :=
  if s.obs.samples.length < 4096 then
    let empty := s.obs.samples.isEmpty
    raiseIf empty 0xF4 (bump 1923 { s with obs := { s.obs with samples := s.obs.samples ++ [b] } })
  else
    let s := bump 1924 s
    if s.obs.overflowTick = some s.tick then s
    else raise 0xF5 { s with obs := { s.obs with overflowTick := some s.tick } }

/-- The result of OBS_SAMPLE_READ for at most `m` samples: how many, how many stay, and the samples, oldest first (R454). -/
def samplesOut (m : Nat) (s : State) : Bytes :=
  le 2 (s.obs.samples.take m).length ++ le 2 (s.obs.samples.drop m).length ++ zeros 12 ++ (s.obs.samples.take m).flatten

end Sys2Proof.Machine
end

