-- ==== Sys2Proof/Machine/Store.lean ====
section
/-! DEFINITION. Store.lean: the Shared Store (group 0xE, R423 to R432): pages, codes, merge buffer, decode cache, poison,
quarantine, scrubs, the fallow record. -/
namespace Sys2Proof.Machine

/-- Change the Store. -/
def updStr (f : Str → Str) (s : State) : State := { s with str := f s.str }

/-- Change the Steward. -/
def updStw (f : Stw → Stw) (s : State) : State := { s with stw := f s.stw }

/-- Page `g`. -/
def getPg (s : State) (g : Nat) : Pg := SMap.get {} s.stw.pages g

/-- Set page `g`. -/
def setPg (g : Nat) (p : Pg) (s : State) : State := updStw (fun x => { x with pages := SMap.put {} x.pages g p }) s

/-- Raise an event of group 0xE at most once per tick. -/
def strOnce (e : Nat) (s : State) : State :=
  if s.str.once.contains e then s else raise e (updStr (fun x => { x with once := e :: x.once }) s)

/-- The correction strength t of page `g`'s region (R423). -/
def pageT (s : State) (g : Nat) : Nat := 8 * (byteAt (s.par 0xE000 0) (g / 256) + 1)

/-- How many pages satisfy a test. -/
def countPg (s : State) (f : Pg → Bool) : Nat := (s.stw.pages.filter fun x => f x.2).length

/-- The free pages: those in no other state. -/
def freePages (s : State) : Nat := 32768 - s.stw.pages.length

/-- PAGES_LOW when STW_PAGES_FREE falls below STW_PAGE_LOW (R418). -/
def lowCheck (s : State) : State :=
  let v : Bool := freePages s < s.parN 0xD010 0
  raiseIf (v && !s.stw.low) 0xDA (updStw (fun x => { x with low := v }) s)

/-! ## Decoding and poison (R425, R428) -/

/-- The bit flips STORE_INJECT has left for page `g` are made. -/
def applyInject (g : Nat) (s : State) : State :=
  match SMap.find s.str.inject g with
  | none => s
  | some n => updStr (fun x => { x with
      inject := SMap.del g x.inject, errs := SMap.put 0 x.errs g (SMap.get 0 x.errs g + n) }) s

/-- The merge entry of page `g`. -/
def mergeOf (s : State) (g : Nat) : Option Merge := s.str.merge.find? (·.page == g)

/-- Forget page `g`'s merge entry and cached copy. -/
def dropCopies (g : Nat) (s : State) : State :=
  updStr (fun x => { x with merge := x.merge.filter (·.page != g), cache := x.cache.filter (· != g) }) s

/-- A page is poisoned: its copies go, the discarded bytes are counted; a free page is quarantined at once (R428,
R429). -/
def poisonPage (g : Nat) (s : State) : State :=
  let n := ((mergeOf s g).map (·.bytes.length)).getD 0
  let s := if n = 0 then s else bumpBy 1733 n s
  let p := getPg s g
  let s := setPg g (if p = {} then { p with quar := some s.elapsed } else { p with poison := true }) (dropCopies g s)
  raise 0xE1 (bump 1732 (updStr (fun x => { x with lastPoison := some g }) s))

/-- Decode page `g`'s codeword: errors are corrected, counted and, from STORE_REPAIR_BITS on, repaired; more than t
poison the page (R425, R428). -/
def decodePg (g : Nat) (s : State) : Bool × State :=
  let s := bump 1728 (applyInject g s)
  let e := SMap.get 0 s.str.errs g
  if pageT s g < e then (false, poisonPage g s)
  else
    let s := if e = 0 then s else bumpBy 1730 e s
    if s.parN 0xE001 0 ≤ e then
      (true, strOnce 0xE0 (bump 1731 (updStr (fun x => { x with errs := SMap.del g x.errs }) s)))
    else (true, s)

/-- The read of bytes of page `g` (R425): merge buffer, decode cache, or a decode whose result enters the cache; false
when the page is poisoned. -/
def touchPg (g off n : Nat) (s : State) : Bool × State :=
  if (getPg s g).poison then (false, s)
  else
    let s := applyInject g s
    let held := match mergeOf s g with
      | some e => (List.range n).all fun i => (SMap.find e.bytes (off + i)).isSome
      | none => false
    let use (s : State) : State := updStr (fun x => { x with cache := (g :: x.cache.filter (· != g)).take 16 }) s
    if held then (true, s)
    else if s.str.cache.contains g then (true, use (bump 1729 s))
    else
      let (ok, s) := decodePg g s
      (ok, if ok then use s else s)

/-- The byte at a Store address as every reader sees it (R426). -/
def storeByte (s : State) (a : Nat) : Byte :=
  match (mergeOf s (a / 4096)).bind fun e => SMap.find e.bytes (a % 4096) with
  | some b => b
  | none => SMap.get (0 : Byte) s.str.mem a

/-- The parts of [a, a + n) that lie in one page each: page, offset, length. -/
def pageParts (a n : Nat) : List (Nat × Nat × Nat) :=
  if n = 0 then []
  else
    let first := a / 4096
    (List.range ((a + n - 1) / 4096 + 1 - first)).map fun i =>
      let lo := max a ((first + i) * 4096)
      let hi := min (a + n) ((first + i + 1) * 4096)
      (first + i, lo % 4096, hi - lo)

/-- Read `n` bytes of the Store; the number of the poisoned page when one is met. -/
def storeRead (a n : Nat) (s : State) : Except Nat Bytes × State :=
  let (bad, s) := (pageParts a n).foldl (fun (r : Option Nat × State) p =>
    match r.1 with
    | some _ => r
    | none =>
      let (ok, s) := touchPg p.1 p.2.1 p.2.2 r.2
      (if ok then none else some p.1, s)) (none, s)
  match bad with
  | some g => (.error g, s)
  | none => (.ok ((List.range n).map fun i => storeByte s (a + i)), s)

/-! ## Writing (R426) -/

/-- Flush the merge entry of page `g`: a full one is encoded without a read, a partial one merged with the decoded
page. -/
def flushPg (g : Nat) (s : State) : State :=
  match mergeOf s g with
  | none => s
  | some e =>
    let put (s : State) : State := updStr (fun x => { x with
      mem := e.bytes.foldl (fun m b => SMap.put (0 : Byte) m (g * 4096 + b.1) b.2) x.mem,
      errs := SMap.del g x.errs, merge := x.merge.filter (·.page != g) }) s
    if e.bytes.length = 4096 then applyInject g (put s)
    else
      let (ok, s) := decodePg g s
      if ok then put s else s

/-- Flush an entry and count it under its cause: 0 full, 1 no write for 64 ticks, 2 STORE_FLUSH, 3 PARK. -/
def flushFor (cause : Nat) (s : State) (g : Nat) : State := flushPg g (bump (1734 + cause) s)

/-- Flush every entry. -/
def flushAll (cause : Nat) (s : State) : State := (s.str.merge.map (·.page)).foldl (flushFor cause) s

/-- Entries without a write for 64 ticks are flushed. -/
def mergeTimeout (s : State) : State :=
  ((s.str.merge.filter fun e => e.at_ + 64 ≤ s.elapsed).map (·.page)).foldl (flushFor 1) s

/-- Bytes of one page reach the merge buffer: done at once; discarded and counted on a poisoned page; with all 64
entries in use the least recently written one is flushed first (R426, R428). -/
def writePg (g off : Nat) (bs : Bytes) (s : State) : State :=
  if (getPg s g).poison then bumpBy 1733 bs.length s
  else
    let s := match mergeOf s g with
      | some _ => s
      | none =>
        match s.str.merge.getLast? with
        | some e => if s.str.merge.length < 64 then s else strOnce 0xE8 (bump 1738 (flushPg e.page s))
        | none => s
    let old := ((mergeOf s g).map (·.bytes)).getD []
    let new := bs.zipIdx.foldl (fun m b => SMap.ins (off + b.2) b.1 m) old
    let s := updStr (fun x => { x with
      merge := { page := g, bytes := new, at_ := s.elapsed } :: x.merge.filter (·.page != g) }) s
    if new.length = 4096 then flushFor 0 s g else s

/-- Write bytes to the Store. -/
def storeWrite (a : Nat) (bs : Bytes) (s : State) : State :=
  (pageParts a bs.length).foldl (fun s p => writePg p.1 p.2.1 (slice bs (p.1 * 4096 + p.2.1 - a) p.2.2) s) s

/-- Regions whose strength changes are encoded anew (R424): the free pages with stored errors are decoded at the strength they had, and one
with more errors than that is poisoned. -/
def reencode (old new : Bytes) (s : State) : State :=
  let hit (g : Nat) : Bool := byteAt old (g / 256) != byteAt new (g / 256) && getPg s g == {}
  ((s.str.errs.map (·.1) ++ s.str.inject.map (·.1)).eraseDups.filter hit).foldl (fun s g =>
    let s := applyInject g s
    if 8 * (byteAt old (g / 256) + 1) < SMap.get 0 s.str.errs g then poisonPage g s
    else updStr (fun x => { x with errs := SMap.del g x.errs }) s) s

/-! ## Fallow pages (R431, R432) -/

/-- The pages recorded as fallow or waiting for the record. -/
def fallowCount (s : State) : Nat := s.str.fallowList.length + countPg s (·.fallowing)

/-- Pages to be fallowed are written ahead to the record; with 1,024 recorded they are held out of service instead. The
flag says that some were not recorded. -/
def startFallow (owner : Option CmdKey) (gs : List Nat) (s : State) : Bool × State :=
  let room := 1024 - fallowCount s
  let go := gs.take room
  let out := gs.drop room
  let s := go.foldl (fun s g => setPg g { fallowing := true } (dropCopies g s)) s
  let s := out.foldl (fun s g => raise 0xE5 (setPg g { retired := true } (dropCopies g s))) s
  let s := if go.isEmpty then s
    else flashAdd { kind := .fallowRecord, owner := if out.isEmpty then owner else none, data := go.flatMap (le 2) } s
  (!out.isEmpty, lowCheck s)

/-- A slot of the fallow record: its sequence and pages when valid (R432). -/
def fallowSlot (b : Bytes) : Option (Nat × List Nat) :=
  if fld b 2068 4 = 0xA5 ∧ fld b 2064 4 = crc32c (b.take 2064) ∧ fld b 0 4 = 1 then
    some (fld b 4 4, (List.range (min 1024 (fld b 8 4))).map fun i => fld b (16 + 2 * i) 2)
  else none

/-- The bytes of slot `i` of the fallow record. -/
def fallowBytes (s : State) (i : Nat) : Bytes := flashRead s (0x6000 + 0x1000 * i) 2072

/-- The valid slot of the fallow record with the highest sequence. -/
def fallowBest (s : State) : Option (Nat × Nat × List Nat) :=
  match fallowSlot (fallowBytes s 0), fallowSlot (fallowBytes s 1) with
  | none, none => none
  | some x, none => some (0, x)
  | none, some y => some (1, y)
  | some x, some y => if x.1 < y.1 then some (1, y) else some (0, x)

/-- Write the fallow record; none when its sequence is spent. -/
def fallowWrite (l : List Nat) (s : State) : Option State :=
  let (slot, seq) := match fallowBest s with
    | none => (0, 0)
    | some (i, q, _) => (1 - i, q + 1)
  if 2 ^ 32 ≤ seq then none
  else
    let b := le 4 1 ++ le 4 seq ++ le 4 l.length ++ zeros 4 ++ l.flatMap (le 2) ++ List.replicate (2048 - 2 * l.length) 0xFF
    some (flashProgram (0x6000 + 0x1000 * slot) (b ++ le 4 (crc32c b) ++ le 4 0xA5)
      (flashErase (0x6000 + 0x1000 * slot) 4096 s))

/-- One page is fallow (R431). -/
def fallowed (s : State) (g : Nat) : State :=
  let s := raise 0xE3 (setPg g { fallow := true } (updStr (fun x => { x with fallowList := x.fallowList ++ [g] }) s))
  if s.str.fallowList.length = 513 then svcCause 1 (raise 0xE4 s) else s

/-- The fallow record's write at the head of the flash operations ends. -/
def fallowWritten (ok : Bool) (s : State) : State :=
  match s.flash.ops with
  | o :: _ =>
    if o.kind ≠ .fallowRecord then s
    else
      let gs := (chunks 2 o.data).map unle
      match if ok then fallowWrite (s.str.fallowList ++ gs) s else none with
      | some s => finishOpt o.owner .ok (gs.foldl fallowed (flashEnded 0 s))
      | none =>
        finishOpt o.owner (.st 0x1E06) (gs.foldl (fun s g => setPg g { retired := true } s) (flashEnded 0x1E06 s))
  | [] => s

/-- At start-up the recorded pages are retired, and more than 512 are reported (R431); a written record without a valid slot is
reported (R432). -/
def fallowStart (s : State) : State :=
  match fallowBest s with
  | some (_, _, l) =>
    let s := l.foldl (fun s g => setPg g { fallow := true } s) (updStr (fun x => { x with fallowList := l }) s)
    if 512 < l.length then svcCause 1 (raise 0xE4 s) else s
  | none =>
    raiseIf (!((fallowBytes s 0 ++ fallowBytes s 1).all (· == 0xFF))) 0xE6 s

/-! ## Pages that leave their tenant (R410, R429, R431) -/

/-- A page of the Harvest's Store ring that its tenant loses stops Harvest (R452). -/
def harvPageLost (g : Nat) (s : State) : State :=
  let d := s.par 0xF002 0
  let first := fld d 2 2
  if byteAt d 0 = 2 ∧ (getPg s g).owner = some (byteAt d 1) ∧ first ≤ g ∧ g < first + 5 * fld d 4 2 ∧ !s.obs.harvLost then
    raise 0xF2 { s with obs := { s.obs with harvLost := true } }
  else s

/-- A page leaves its tenant: fallowed when marked, quarantined when poisoned, else zeroised. -/
def leavePg (s : State) (g : Nat) : State :=
  let p := getPg s g
  let s := dropCopies g (harvPageLost g s)
  if p.marked then (startFallow none [g] s).2
  else if p.poison then setPg g { quar := some s.elapsed } s
  else setPg g { zero := some s.elapsed } s

/-- A page's zeroising ends: its bytes are 0 and it is free; one that STORE_FALLOW has named meanwhile is fallowed (R431). -/
def zeroiseDone (g : Nat) (s : State) : State :=
  if (getPg s g).zero.isSome then
    let marked := (getPg s g).marked
    let s := setPg g {} (updStr (fun x => { x with
      mem := x.mem.filter fun b => b.1 / 4096 != g, errs := SMap.del g x.errs, inject := SMap.del g x.inject }) s)
    if marked then (startFallow none [g] s).2 else s
  else s

/-- Zeroising ends within 500 ticks. -/
def zeroiseDue (s : State) : State :=
  (s.stw.pages.filter fun x => match x.2.zero with
    | some t => t + 500 ≤ s.elapsed
    | none => false).foldl (fun s x => zeroiseDone x.1 s) s

/-- The pattern test of a quarantined page, with the errors its two reads found (R429). -/
def quarTest (g ones zeros_ : Nat) (s : State) : State :=
  if (getPg s g).quar.isNone || s.parN 0xE003 0 != 1 then s
  else
    let ok (e : Nat) : Bool := e ≤ pageT s g && e < s.parN 0xE001 0
    if ok ones && ok zeros_ then raise 0xEC (bump 1739 (setPg g { zero := some s.elapsed } s))
    else (startFallow none [g] (bump 1740 s)).2

/-- Quarantined pages whose test no row has brought within 8 ticks are tested by the tick; the errors its reads find are those that arise in
the page in this tick (R429). -/
def quarDue (errs : List (Nat × Nat)) (s : State) : State :=
  (s.stw.pages.filter fun x => match x.2.quar with
    | some t => t + 7 ≤ s.elapsed
    | none => false).foldl (fun s x =>
      let e := ((errs.filter (·.1 == x.1)).map (·.2)).foldl (· + ·) 0
      quarTest x.1 e e s) s

/-! ## Scrubs (R430) -/

/-- One page of a scrub. -/
def scrubPg (x : Scrub) (s : State) : Scrub × State :=
  let g := x.first + x.done
  let p := getPg s g
  let x := { x with done := x.done + 1 }
  if p.fallow || p.fallowing || p.retired || p.quar.isSome || p.zero.isSome then ({ x with skipped := x.skipped + 1 }, s)
  else if p.poison then ({ x with checked := x.checked + 1 }, s)
  else
    let s := applyInject g s
    let e := SMap.get 0 s.str.errs g
    let (ok, s) := decodePg g s
    let x := { x with checked := x.checked + 1 }
    if !ok then
      ({ x with poisoned := x.poisoned + 1, firstBad := if x.firstBad = 0xFFFF then g else x.firstBad }, s)
    else if e = 0 then ({ x with clean := x.clean + 1 }, s)
    else
      let w : Bool := x.worstBits < e
      ({ x with
        fixed := x.fixed + 1, bits := x.bits + e, worst := if w then g else x.worst,
        worstBits := if w then e else x.worstBits }, s)

/-- Up to `n` pages of a scrub. -/
def scrubRun : Nat → Scrub → State → Scrub × State
  | 0, x, s => (x, s)
  | n + 1, x, s =>
    if x.count ≤ x.done then (x, s)
    else
      let (x, s) := scrubPg x s
      scrubRun n x s

/-- The 64-byte summary of a scrub. -/
def scrubBytes (x : Scrub) (s : State) : Bytes :=
  le 8 x.began ++ le 8 s.tick ++ le 2 x.first ++ le 2 x.count ++ le 4 x.checked ++ le 4 x.clean ++ le 4 x.fixed
    ++ le 4 x.bits ++ le 2 x.worst ++ [byteOf x.worstBits, 0] ++ le 4 x.poisoned ++ le 4 x.skipped ++ le 2 x.firstBad
    ++ zeros 14

/-- A scrub has ended. -/
def scrubEnd (x : Scrub) (s : State) : State :=
  finishOpt x.owner (.data (scrubBytes x s)) (raise 0xE7 (bump 1741 s))

/-- 64 pages of the scrub that runs: STORE_SCRUB pauses the periodic one. -/
def scrubTick (s : State) : State :=
  match s.str.scrubs with
  | x :: rest =>
    let (x, s) := scrubRun 64 x s
    if x.count ≤ x.done then scrubEnd x (updStr (fun y => { y with scrubs := rest }) s)
    else updStr (fun y => { y with scrubs := x :: rest }) s
  | [] =>
    match s.str.periodic with
    | none => s
    | some x =>
      let (x, s) := scrubRun 64 x s
      if x.count ≤ x.done then scrubEnd x (updStr (fun y => { y with periodic := none }) s)
      else updStr (fun y => { y with periodic := some x }) s

/-- Once per STORE_SCRUB_PERIOD the whole Store is scrubbed. -/
def periodicScrub (s : State) : State :=
  let p := s.parN 0xE002 0 * 500000
  if p != 0 && s.str.periodic.isNone && s.str.lastScrub + p ≤ s.elapsed then
    updStr (fun x => { x with
      lastScrub := s.elapsed, periodic := some { owner := none, first := 0, count := 32768, began := s.tick } }) s
  else s

/-- What the work span of a tick does of the Store; `errs` are bit errors that have arisen in stored codewords. -/
def storeWork (errs : List (Nat × Nat)) (s : State) : State :=
  let s := errs.foldl (fun s e =>
    updStr (fun x => { x with errs := SMap.put 0 x.errs e.1 (SMap.get 0 x.errs e.1 + e.2) }) s) s
  lowCheck (zeroiseDue (quarDue errs (scrubTick (periodicScrub (mergeTimeout s)))))

/-! ## Commands (R441) -/

/-- STORE_STATUS. -/
def infoStoreStatus : CmdInfo := { op := 0x0E00, len := .fixed 16, desc := true }
/-- STORE_SCRUB. -/
def infoStoreScrub : CmdInfo := { op := 0x0E01, long := true, len := .fixed 20, desc := true }
/-- STORE_FALLOW. -/
def infoStoreFallow : CmdInfo := { op := 0x0E02, long := true, len := .range 4 130 2 }
/-- STORE_FLUSH. -/
def infoStoreFlush : CmdInfo := { op := 0x0E03 }
/-- STORE_INJECT. -/
def infoStoreInject : CmdInfo := { op := 0x4E00, len := .fixed 4 }

/-- The 32 bytes of STORE_STATUS. -/
def storeStatusBytes (s : State) : Bytes :=
  le 8 s.tick ++ le 2 s.str.merge.length ++ le 2 s.str.fallowList.length ++ le 2 (countPg s (·.poison))
    ++ le 2 (countPg s (·.quar.isSome)) ++ le 2 (s.str.lastPoison.getD 0xFFFF) ++ [byteOf (b2n s.str.periodic.isSome)]
    ++ zeros 13

end Sys2Proof.Machine
end

