-- ==== Sys2Proof/Machine/Harvest.lean ====
section
/-! DEFINITION. Harvest.lean: a Harvest record reaches its destination (R452). -/
namespace Sys2Proof.Machine

/-- Write a record into the slot at the ring's tail: slots of 20,480 bytes, in host memory or in a tenant's pages. -/
def harvestPlace (d rec : Bytes) (s : State) : State :=
  if byteAt d 0 = 1 then hostWrite (fld d 8 8 + 20480 * s.obs.harvTail) rec s
  else storeWrite (4096 * (fld d 2 2 + 5 * s.obs.harvTail)) rec s

/-- The record being written is complete: HARVEST_DONE, and the tail moves on; with its destination lost there is nothing
left to write to. -/
def harvestWritten (s : State) : State :=
  let d := s.par 0xF002 0
  if !s.obs.harvWriting then s
  else if byteAt d 0 = 0 || s.obs.harvLost then { s with obs := { s.obs with harvWriting := false, harvRec := [] } }
  else
    let s := harvestPlace d s.obs.harvRec s
    raise 0xF0 (bump 1920 { s with obs := { s.obs with
      harvWriting := false, harvRec := [], harvTail := (s.obs.harvTail + 1) % max 1 (fld d 4 2) } })

end Sys2Proof.Machine
end

