-- ==== Sys2Proof/Machine/Registers.lean ====
section
/-! DEFINITION. Registers.lean: BAR0 (R507 to R520): reads and writes of every register with their side effects, under
the access codes of R17. -/
namespace Sys2Proof.Machine

/-! ## Values read -/

/-- SYS_STATE (R513). The mate and domain bits come from their blocks. -/
def sysState (s : State) : Nat :=
  b2n s.sys.fwRunning + 2 * b2n s.sys.ready + 4 * b2n s.sys.deviceFault + 8 * b2n s.tm.timescaleSet
    + 16 * b2n s.sys.locked + 32 * b2n (s.pwr.svcReq != 0) + 64 * b2n s.mate.active
    + 128 * b2n s.dm.member + 256 * min 255 s.sys.restarts

/-- BOOT_STAT (R503). -/
def bootStat (s : State) : Nat :=
  s.boot.stage + 16 * s.boot.source + 64 * s.boot.slot + 128 * b2n s.boot.fallback + 256 * s.boot.strap
    + 1024 * b2n s.boot.calValid + 2048 * b2n s.boot.boardValid + 65536 * s.boot.error

/-- PWR_STATE (R477). -/
def pwrState (s : State) : Nat :=
  s.pwr.state + 8 * b2n s.pwr.move.isSome + 16 * b2n s.pwr.aRun + 32 * b2n s.pwr.bRun + 64 * b2n s.pwr.whStby
    + 128 * b2n s.pwr.warn + 256 * b2n s.pwr.crit

/-- Q_CFG, Q_CTRL and Q_STAT (R517). -/
def qCfg (u : Queue) : Nat :=
  u.sqLog2 + 16 * u.cqLog2 + 256 * u.vector + 65536 * u.coalCount + 16777216 * u.coalTime

/-- Q_STAT (R517). -/
def qStat (u : Queue) : Nat := u.sqHead + 65536 * u.cqTail + 2 ^ 28 * b2n u.phase

/-- The register of queue pair `q` at offset `o` (R516). -/
def readQueueReg (s : State) (q o : Nat) : Nat :=
  let u := getQ s q
  match o with
  | 0x00 => u.sqBase % 2 ^ 32
  | 0x04 => u.sqBase / 2 ^ 32
  | 0x08 => u.cqBase % 2 ^ 32
  | 0x0C => u.cqBase / 2 ^ 32
  | 0x10 => qCfg u
  | 0x14 => b2n u.enabled + 2 * b2n (getSess s q).isSome
  | 0x18 => qStat u
  | _ => 0

/-- The register word of four events' vectors and enables (R455). -/
def evtVecWord (s : State) (k : Nat) : Nat :=
  ((List.range 4).map fun i =>
    (SMap.get 0 s.ev.vec (4 * k + i) + 128 * b2n (s.ev.en.getLsbD (4 * k + i))) * 256 ^ i).foldl (· + ·) 0

/-- What an unwritten byte of the MSI-X table reads as: the vector control word's mask bit is set after reset (PRESUMED,
PCI Express). -/
def msixDefault (off : Nat) : Byte := if off % 16 = 12 then 1 else 0

/-- Four bytes of the MSI-X table. -/
def msixWord (s : State) (off : Nat) : Nat :=
  unle ((List.range 4).map fun i => SMap.get (msixDefault (off + i)) s.ev.msixTable (off + i))

/-- The latch of a path: the high word of the last counter read (R448). -/
def cntLatchWord (s : State) (path : Path) : Nat :=
  let l := match path with
    | .pcie => s.sys.cntLatch
    | .spi => s.sys.cntLatchSpi
  l.hi + 65536 * b2n l.sat

/-- A read of one aligned 32-bit register: the value, without the latching of CNT_LO and TICK_NOW_LO (R507, R508). -/
def regValue (path : Path) (a : Nat) (s : State) : Nat :=
  if a < 0x1000 then
    match a with
    | 0x000 => 0x4802
    | 0x004 => Config.siliconRev.toNat
    | 0x008 => sysState s
    | 0x00C => s.sys.err.toNat
    | 0x010 => b2n s.sys.locked
    | 0x018 => s.tick % 2 ^ 32
    | 0x01C => match path with
      | .pcie => s.sys.tickLatch
      | .spi => s.sys.tickLatchSpi
    | 0x020 => bootStat s
    | 0x024 => s.boot.loadLen
    | 0x028 => pwrState s
    | 0x02C => s.pwr.svcReq
    | 0x030 => s.sys.gpioDir.toNat
    | 0x034 => s.sys.gpioOut.toNat
    | 0x038 => s.sys.gpioIn.toNat
    | 0x03C => s.sys.harvHead
    | _ => 0
  else if a < 0x2000 then
    if a < 0x1200 then readQueueReg s ((a - 0x1000) / 0x40) (a % 0x40) else 0
  else if a < 0x3000 then
    if a < 0x2040 then
      let u := getQ s ((a - 0x2000) / 8)
      if a % 8 = 0 then u.sqTail else u.cqHead
    else 0
  else if a < 0x4000 then
    let o := a - 0x3000
    if o < 0x20 then (s.ev.stat.toNat >>> (8 * o)) % 2 ^ 32
    else if o < 0x40 then (s.ev.mask.toNat >>> (8 * (o - 0x20))) % 2 ^ 32
    else if 0x100 ≤ o && o < 0x200 then evtVecWord s ((o - 0x100) / 4)
    else 0
  else if a < 0x4400 then msixWord s (a - 0x4000)
  else if a = 0x5000 then s.ev.msixPend.toNat % 2 ^ 32
  else if a = 0x5004 then s.ev.msixPend.toNat / 2 ^ 32
  else if 0x10000 ≤ a && a < 0x14000 then
    if a % 8 = 0 then s.count ((a - 0x10000) / 8) % 2 ^ 32 else cntLatchWord s path
  else if 0x1000000 ≤ a && a < 0x11C0000 then
    if s.boot.stage = 7 then unle (SMap.getAll (0 : Byte) s.boot.staging (a - 0x1000000) 4) else 0
  else 0

/-- The side effects of reading the register at `a`: the latches of a counter and of the tick number (R448, R514). -/
def regLatch (path : Path) (a : Nat) (s : State) : State :=
  if a = 0x018 then
    match path with
    | .pcie => { s with sys := { s.sys with tickLatch := s.tick / 2 ^ 32 } }
    | .spi => { s with sys := { s.sys with tickLatchSpi := s.tick / 2 ^ 32 } }
  else if 0x10000 ≤ a && a < 0x14000 && a % 8 = 0 then
    let n := (a - 0x10000) / 8
    let l : CntLatch := { hi := s.count n / 2 ^ 32, sat := SMap.get false s.obs.sat n }
    match path with
    | .pcie => { s with sys := { s.sys with cntLatch := l } }
    | .spi => { s with sys := { s.sys with cntLatchSpi := l } }
  else s

/-- Read `n` bytes of BAR0 from `a`: every register concerned is read whole, with its side effects (R508). -/
def readBytes (path : Path) (a n : Nat) (s : State) : Bytes × State :=
  let first := a / 4
  let words := if n = 0 then 0 else (a + n - 1) / 4 + 1 - first
  let (bs, s) := (List.range words).foldl (fun (r : Bytes × State) i =>
    let w := 4 * (first + i)
    (r.1 ++ le 4 (regValue path w r.2), regLatch path w r.2)) ([], s)
  (slice bs (a % 4) n, s)

/-! ## Events -/

/-- Is event `e` enabled, set and unmasked? -/
def evActive (s : State) (e : Nat) : Bool :=
  s.ev.en.getLsbD e && s.ev.stat.getLsbD e && !s.ev.mask.getLsbD e

/-- Signal every vector whose set of enabled, unmasked, mapped status bits has gained a bit (R456). -/
def signalGains (s0 s : State) : State :=
  let gained := (List.range 256).filter fun e =>
    evActive s e && (!evActive s0 e || SMap.get 0 s0.ev.vec e != SMap.get 0 s.ev.vec e)
  ((gained.map fun e => SMap.get 0 s.ev.vec e).eraseDups).foldl (fun s v => signal v s) s

/-- Replace 32 bits of a 256-bit register. -/
def put32 (r : BitVec 256) (k v : Nat) : BitVec 256 :=
  BitVec.ofNat 256 (r.toNat - ((r.toNat >>> (32 * k)) % 2 ^ 32) * 2 ^ (32 * k) + (v % 2 ^ 32) * 2 ^ (32 * k))

/-- A write of EVT_MASKk (R456). -/
def writeEvtMask (k v : Nat) (s : State) : State :=
  signalGains s { s with ev := { s.ev with mask := put32 s.ev.mask k v } }

/-- A write of EVT_STATk: 1 clears (W1C, R17). -/
def writeEvtStat (k v : Nat) (s : State) : State :=
  { s with ev := { s.ev with stat := s.ev.stat &&& ~~~(BitVec.ofNat 256 ((v % 2 ^ 32) * 2 ^ (32 * k))) } }

/-- A write of EVT_VECk: vectors and enables of four events (R455). -/
def writeEvtVec (k v : Nat) (s : State) : State :=
  signalGains s ((List.range 4).foldl (fun s i =>
    let b := (v >>> (8 * i)) % 256
    let e := 4 * k + i
    { s with ev := { s.ev with
      vec := SMap.put 0 s.ev.vec e (b % 64),
      en := if b ≥ 128 then s.ev.en ||| BitVec.ofNat 256 (2 ^ e) else s.ev.en &&& ~~~(BitVec.ofNat 256 (2 ^ e)) } }) s)

/-- A write of four bytes of the MSI-X table: a vector that is unmasked with its pending bit set is signalled. -/
def writeMsix (off v : Nat) (s : State) : State :=
  let s := (List.range 4).foldl (fun s i =>
    { s with ev := { s.ev with
      msixTable := SMap.put (msixDefault (off + i)) s.ev.msixTable (off + i) (byteOf (v >>> (8 * i))) } }) s
  let e := off / 16
  if s.ev.msixPend.getLsbD e && !msixMasked s e then
    signal e { s with ev := { s.ev with msixPend := s.ev.msixPend &&& ~~~(BitVec.ofNat 64 (2 ^ e)) } }
  else s

/-! ## Queue registers -/

/-- QUEUE_ERR with its SYS_ERR bit: 1 for a doorbell, 2 for a queue register (R513). -/
def queueErr (b : Nat) (s : State) : State := raise 0x05 (sysErr b s)

/-- Queue and doorbell writes before STANDBY-ready are ignored; QUEUE_ERR follows once the firmware runs (R505). -/
def queueReady (f : State → State) (s : State) : State :=
  if s.sys.ready then f s else { s with boot := { s.boot with queueTouched := true } }

/-- A write of a BASE_LO staging field (R510, R516). -/
def writeStaging (q : Nat) (cq : Bool) (v : Nat) (s : State) : State :=
  if (getQ s q).enabled then queueErr 2 s
  else updQ q (fun u => if cq then { u with cqLatch := some v } else { u with sqLatch := some v }) s

/-- A write of a BASE_HI trigger field: applied with the latched low word, or with the applied one when the latch is
empty; ignored while the pair is enabled, the latch emptied all the same (R510, R516). -/
def writeTrigger (q : Nat) (cq : Bool) (v : Nat) (s : State) : State :=
  if (getQ s q).enabled then
    queueErr 2 (updQ q (fun u => if cq then { u with cqLatch := none } else { u with sqLatch := none }) s)
  else updQ q (fun u =>
    if cq then { u with cqBase := v * 2 ^ 32 + u.cqLatch.getD (u.cqBase % 2 ^ 32), cqLatch := none }
    else { u with sqBase := v * 2 ^ 32 + u.sqLatch.getD (u.sqBase % 2 ^ 32), sqLatch := none }) s

/-- A write of Q_CFG (R516 to R518): sizes are ignored while the pair is enabled; completions that wait are signalled
at once when the new COAL_COUNT asks for it. -/
def writeQCfg (q v : Nat) (s : State) : State :=
  let u := getQ s q
  let s := updQ q (fun u => { u with
    sqLog2 := if u.enabled then u.sqLog2 else v % 16,
    cqLog2 := if u.enabled then u.cqLog2 else bits v 7 4,
    vector := bits v 13 8, coalCount := bits v 23 16, coalTime := bits v 31 24 }) s
  let s := if u.unsignalled ≠ 0 ∧ max 1 (bits v 23 16) ≤ u.unsignalled then cqSignal q s else s
  if u.enabled && v % 256 != u.sqLog2 + 16 * u.cqLog2 then queueErr 2 s else s

/-- Setting ENABLE (R68, R510, R519): refused with an unaligned base or a size that is not allowed. -/
def enableQueue (q : Nat) (s : State) : State :=
  let u := getQ s q
  if u.enabled then s
  else
    let okSize := 4 ≤ u.sqLog2 && u.sqLog2 ≤ 12 && 4 ≤ u.cqLog2 && u.cqLog2 ≤ 12
    if !okSize || u.sqBase % 4096 != 0 || u.cqBase % 4096 != 0 then queueErr 2 s
    else
      let s := updQ q (fun u => { u with
        enabled := true, sqLatch := none, cqLatch := none, sqTail := 0, sqHead := 0, cqHead := 0, cqTail := 0,
        phase := true, unsignalled := 0, coalStart := none, retry := .none_ }) s
      { s with cmd := { s.cmd with newest := s.cmd.newest.set q none } }

/-- A doorbell write in PARK begins the wake (R74, R467): the source is kept for PWR_STATUS. -/
def beginWake (src gpio : Nat) (s : State) : State :=
  if s.pwr.state = 1 then
    if s.pwr.waking then s
    else { s with pwr := { s.pwr with waking := true, wakeSource := src, wakeGpio := gpio } }
  else if (s.pwr.move.map (·.target)) == some 1 && s.pwr.wakePending == none then
    { s with pwr := { s.pwr with wakePending := some (src, gpio) } }
  else s

/-- A write of SQ_TAIL (R69, R74). -/
def writeSqTail (q v : Nat) (s : State) : State :=
  let u := getQ s q
  let i := v % 65536
  let s := beginWake 1 0 s
  if !u.enabled || 2 ^ u.sqLog2 ≤ i then queueErr 1 s else updQ q (fun u => { u with sqTail := i }) s

/-- A write of CQ_HEAD: refused beyond the queue's size or the device's write position (R69). -/
def writeCqHead (q v : Nat) (s : State) : State :=
  let u := getQ s q
  let n := 2 ^ u.cqLog2
  let i := v % 65536
  let s := beginWake 1 0 s
  if !u.enabled || n ≤ i || (u.cqTail + n - u.cqHead) % n < (i + n - u.cqHead) % n then queueErr 1 s
  else updQ q (fun u => { u with cqHead := i }) s

/-- A write of Q_CTRL (R517). -/
def writeQCtrl (q v : Nat) (s : State) : State :=
  if v % 2 = 1 then enableQueue q s else disableQueue q s

/-! ## System registers -/

/-- A write of SYS_LOCK (WO1, R17, R514). -/
def writeSysLock (v : Nat) (s : State) : State :=
  if s.sys.locked then lockViol s
  else if v % 2 = 1 then { s with sys := { s.sys with locked := true } } else s

/-- A write of BOOT_LOAD (RWS, R502, R512): accepted only in stage 7; a nonzero value starts the check. -/
def writeBootLoad (v : Nat) (s : State) : State :=
  if s.boot.stage = 7 then
    { s with boot := { s.boot with loadLen := v, stage := if v = 0 then 7 else 4 } }
  else s

/-- A write of GPIO_OUT: shadowed, in effect in the commit window 8 elapsed ticks on; the last of one tick stands
(R47, R511). -/
def writeGpioOut (v : Nat) (s : State) : State :=
  { s with sys := { s.sys with gpioWait :=
    (s.sys.gpioWait.filter fun w => w.1 != s.elapsed + 8) ++ [(s.elapsed + 8, BitVec.ofNat 16 v)] } }

/-- The slot count of the active host ring, 0 while none is active (R515). -/
def ringSlots (s : State) : Nat :=
  let d := s.par 0xF002 0
  if byteAt d 0 = 1 then fld d 4 2 else 0

/-- A write of HARV_HEAD (R515). -/
def writeHarvHead (v : Nat) (s : State) : State :=
  let h := v % 1024
  if ringSlots s ≠ 0 ∧ ringSlots s ≤ h then sysErr 4 s
  else { s with sys := { s.sys with harvHead := h } }

/-- A write of GPIO_DIR (RWL). -/
def writeGpioDir (v : Nat) (s : State) : State :=
  if s.sys.locked then lockViol s else { s with sys := { s.sys with gpioDir := BitVec.ofNat 16 v } }

/-- BAD_ACCESS (R508). -/
def badAccess (s : State) : State := sysErr 3 s

/-- A write to a register of the queue window. -/
def writeQueueReg (a v : Nat) (s : State) : State :=
  let q := (a - 0x1000) / 0x40
  if 0x1200 ≤ a then badAccess s
  else
    match a % 0x40 with
    | 0x00 => queueReady (writeStaging q false v) s
    | 0x04 => queueReady (writeTrigger q false v) s
    | 0x08 => queueReady (writeStaging q true v) s
    | 0x0C => queueReady (writeTrigger q true v) s
    | 0x10 => queueReady (writeQCfg q v) s
    | 0x14 => queueReady (writeQCtrl q v) s
    | 0x18 => s
    | _ => badAccess s

/-- A write of one aligned 32-bit register (R17, R507, R508): read-only registers ignore it, a reserved address sets
BAD_ACCESS. -/
def write32 (a v : Nat) (s : State) : State :=
  if a < 0x1000 then
    match a with
    | 0x00C => { s with sys := { s.sys with err := s.sys.err &&& ~~~(BitVec.ofNat 7 v) } }
    | 0x010 => writeSysLock v s
    | 0x024 => writeBootLoad v s
    | 0x030 => writeGpioDir v s
    | 0x034 => writeGpioOut v s
    | 0x03C => writeHarvHead v s
    | _ => if [0x000, 0x004, 0x008, 0x018, 0x01C, 0x020, 0x028, 0x02C, 0x038].contains a then s else badAccess s
  else if a < 0x2000 then writeQueueReg a v s
  else if a < 0x3000 then
    if 0x2040 ≤ a then badAccess s
    else if a % 8 = 0 then queueReady (writeSqTail ((a - 0x2000) / 8) v) s
    else queueReady (writeCqHead ((a - 0x2000) / 8) v) s
  else if a < 0x4000 then
    let o := a - 0x3000
    if o < 0x20 then writeEvtStat (o / 4) v s
    else if o < 0x40 then writeEvtMask ((o - 0x20) / 4) v s
    else if 0x100 ≤ o && o < 0x200 then writeEvtVec ((o - 0x100) / 4) v s
    else badAccess s
  else if a < 0x4400 then writeMsix (a - 0x4000) v s
  else if 0x5000 ≤ a && a < 0x5008 then s
  else if 0x10000 ≤ a && a < 0x14000 then s
  else if 0x1000000 ≤ a && a < 0x11C0000 then
    if s.boot.stage = 7 then
      { s with boot := { s.boot with
        staging := SMap.putAll (0 : Byte) s.boot.staging (a - 0x1000000) (le 4 v) } }
    else s
  else badAccess s

/-- Is this address in the boot staging window while it takes no writes (R509)? -/
def stagingClosed (a : Nat) (s : State) : Bool := 0x1000000 ≤ a && a < 0x11C0000 && s.boot.stage != 7

/-- A bus write of a given width (R508): 32 bits aligned to 4, or 64 bits aligned to 8 as two writes, lower first; any
other is ignored and sets BAD_ACCESS. -/
def busWrite (size : AccSize) (a v : Nat) (s : State) : State :=
  if stagingClosed a s then s
  else
    match size with
    | .b32 => if a % 4 = 0 then write32 a (v % 2 ^ 32) s else badAccess s
    | .b64 => if a % 8 = 0 then write32 (a + 4) (v / 2 ^ 32 % 2 ^ 32) (write32 a (v % 2 ^ 32) s) else badAccess s
    | _ => badAccess s

/-- A bit of a W1C field that the device has set in the present tick, and whose setting falls into the CORE cycle in which a
bus write of the field arrives, remains set (R19): `met` names such bits among the 64 that a write at `a` covers, `s0` is the state
before the write. -/
def updateWins (a met : Nat) (s0 s : State) : State :=
  let bits (base w : Nat) : Nat :=
    if a + 4 = base then met / 2 ^ 32 else if base ≤ a ∧ a < base + w then met * 2 ^ (8 * (a - base)) else 0
  { s with
    ev := { s.ev with stat := s.ev.stat ||| (s0.ev.stat &&& s0.ev.tickSet &&& BitVec.ofNat 256 (bits 0x3000 32)) },
    sys := { s.sys with err := s.sys.err ||| (s0.sys.err &&& s0.sys.errSet &&& BitVec.ofNat 7 (bits 0x00C 4)) } }

/-- A bus write whose CORE cycle is also that of hardware updates (R19). -/
def busWriteMet (size : AccSize) (a v met : Nat) (s : State) : State :=
  updateWins a (if size = .b64 then met else met % 2 ^ 32) s (busWrite size a v s)

/-- Keep what a bus read returned. -/
def withRead (path : Path) (a n : Nat) (s : State) : State :=
  let (bs, s) := readBytes path a n s
  { s with sys := { s.sys with readOut := bs } }

/-- Apply one shadowed field whose 8 ticks have elapsed (R47). -/
def shadowApplyOne (s : State) : State :=
  match s.sys.gpioWait.find? fun w => w.1 ≤ s.elapsed with
  | none => s
  | some w => { s with sys := { s.sys with gpioOut := w.2, gpioWait := s.sys.gpioWait.erase w } }

/-- SHADOW_APPLY. -/
def execShadowApply (s : State) : Out := within shadowApplyOne s

/-! ## Completion queues in time -/

/-- Have COAL_TIME µs passed for the completions that wait (R518)? A tick is 2 µs, and a time of `c` µs from some cycle
of a tick can end in the tick `d` later when `c < 2 (d + 1)`. -/
def coalDue (s : State) (q : Nat) : Bool :=
  let u := getQ s q
  match u.coalStart with
  | none => false
  | some t => u.unsignalled != 0 && u.coalTime != 0 && u.coalTime < 2 * (s.elapsed - t + 1)

end Sys2Proof.Machine
end

