-- ==== Sys2Proof/Machine/Spi.lean ====
section
/-! DEFINITION. Spi.lean: the SPI management port and its mailbox (R94, R95). -/
namespace Sys2Proof.Machine

/-- Set the status byte's ERR bit. -/
def spiErr (s : State) : State := { s with cmd := { s.cmd with mb := { s.cmd.mb with err := true } } }

/-- A write to the mailbox doorbell (R95, R498): refused with ERR while a command is in flight or before the firmware
runs. -/
def mailboxDoorbell (s : State) : State :=
  if s.cmd.mb.busy || !s.sys.ready then spiErr s
  else { s with cmd := { s.cmd with mb := { s.cmd.mb with busy := true, taken := false } } }

/-- A write to mailbox space at offset `o` (R94): the request area and the doorbell; every other address sets ERR and
changes nothing (R95). DESIGN CHOICE: so does a write to the completion or the result area, which are listed for reading; a read
of the doorbell, which is listed for writing, sets ERR likewise. -/
def mailboxStore (o : Nat) (bs : Bytes) (s : State) : State :=
  if o + bs.length ≤ 0x1044 then
    { s with cmd := { s.cmd with mb := { s.cmd.mb with req := SMap.putAll (0 : Byte) s.cmd.mb.req o bs } } }
  else if o = 0x4000 then mailboxDoorbell s
  else spiErr s

/-- A BAR0 write over SPI has the effect of the same access over PCIe (R94): whole aligned words one after another, a
narrower or unaligned one sets BAD_ACCESS (R508). -/
def spiBusWrite (a : Nat) (bs : Bytes) (s : State) : State :=
  if bs.length % 4 != 0 || a % 4 != 0 then busWrite .b8 a 0 s
  else (chunks 4 bs).zipIdx.foldl (fun s (c : Bytes × Nat) => busWrite .b32 (a + 4 * c.2) (unle c.1) s) s

/-- One byte read from mailbox space: the completion entry and the result area, and the request read back; none where
nothing is listed. -/
def mailboxByte (s : State) (o : Nat) : Option Byte :=
  if o < 0x1044 then some (SMap.get (0 : Byte) s.cmd.mb.req o)
  else if 0x2000 ≤ o && o < 0x2020 then some (s.cmd.mb.cpl.getD (o - 0x2000) 0)
  else if 0x2020 ≤ o && o < 0x3020 then some (SMap.get (0 : Byte) s.cmd.mb.res (o - 0x2020))
  else none

/-- A read of mailbox space (R94, R95): an address not listed sets ERR; reading byte 0x8000_2000 clears DONE. -/
def mailboxLoad (o n : Nat) (s : State) : State :=
  let got := (List.range n).map fun i => mailboxByte s (o + i)
  let s := { s with sys := { s.sys with readOut := got.map fun b => b.getD 0 } }
  if got.any (·.isNone) then spiErr s
  else if o ≤ 0x2000 && 0x2000 < o + n then { s with cmd := { s.cmd with mb := { s.cmd.mb with done := false } } }
  else s

/-- The status byte (R94). -/
def spiStatus (s : State) : Nat :=
  b2n s.cmd.mb.busy + 2 * b2n s.cmd.mb.done + 4 * b2n s.cmd.mb.err + 8 * b2n s.sys.fwRunning

end Sys2Proof.Machine
end

