-- ==== Sys2Proof/Machine/Timing.lean ====
section
/-! DEFINITION. Timing.lean: the timescale, references, PLL, PPS and ToD (group 0x2, R341 to R366). -/
namespace Sys2Proof.Machine

/-- Change the timing subsystem. -/
def updTm (f : Tm → Tm) (s : State) : State := { s with tm := f s.tm }

/-- Reference `r`. -/
def getRef (s : State) (r : Nat) : Ref := s.tm.refs.getD r {}

/-- Change reference `r`. -/
def updRef (r : Nat) (f : Ref → Ref) (s : State) : State := updTm (fun t => { t with refs := lmod t.refs r f }) s

/-- Ticks in a second (R7). -/
def tps : Nat := 500000

/-- The code of a PLL state (R359); a stopped PLL keeps no code of its own and reads as FREERUN. -/
def pllCode : Pll → Nat
  | .freerun => 0
  | .acquiring => 1
  | .locked => 2
  | .holdover => 3
  | .thaw => 4
  | .stopped => 0

/-- Does a carrier run? -/
def carrierRuns (s : State) (c : Line) : Bool :=
  match c with
  | .a => s.pwr.aRun
  | .b => s.pwr.bRun

/-! ## The clients' lanes (R222, R223) -/

/-- A client's type, 0 for none (R222). -/
def View.cliType (v : View) (i : Nat) : Nat := v.parN 0x7000 (0x40 + i)

/-- The lanes of a client: none when the rate is not supported for its type (R222). -/
def View.cliLanes (v : View) (i : Nat) : Option Nat :=
  match v.cliType i, v.parN 0x7003 (0x40 + i) with
  | 1, 1 => some 2
  | 2, 1 => some 4
  | 3, 1 => some 8
  | 1, 0 => some 4
  | 2, 0 => some 8
  | _, _ => none

/-- The configured clients. -/
def View.cliOn (v : View) : List Nat := (List.range 12).filter fun i => v.cliType i != 0

/-- The lanes a client occupies. -/
def View.laneSet (v : View) (i : Nat) : List Nat :=
  (List.range ((v.cliLanes i).getD 0)).map (v.parN 0x7002 (0x40 + i) + ·)

/-- Does a host lane run at 212.5 Gb/s? -/
def View.fastLane (v : View) (lane : Nat) : Bool :=
  v.cliOn.any fun i => v.parN 0x7003 (0x40 + i) == 1 && (v.laneSet i).contains lane

/-! ## References -/

/-- Is this reference a phase reference (R343)? -/
def isPhaseRef (s : State) (r : Nat) : Bool := (r < 4 && s.parN 0x2000 (0x10 + r) == 1) || r == 8

/-- Is a reference available in the power state (R343): the carriers' clocks while the carrier runs, a lane's while it is powered, any
other in STANDBY and the LINE states? -/
def refAvail (s : State) (r : Nat) : Bool :=
  match r with
  | 4 => carrierRuns s .a
  | 5 => carrierRuns s .b
  | 6 => bit s.cli.powered (s.parN 0x2002 0)
  | _ => s.pwr.state == 2 || s.pwr.state == 3 || s.pwr.state == 4

/-- Does a reference meet the condition that qualifies it (R344), judged on what has been measured? A reference
outside its power-state availability does not. -/
def refGood (s : State) (r : Nat) : Bool :=
  let x := getRef s r
  refAvail s r && match r with
  | 8 => match s.tm.steerAt with
    | some t => s.elapsed - t ≤ s.parN 0x2007 0 * tps
    | none => false
  | _ =>
    if r < 4 then
      match s.parN 0x2000 (0x10 + r) with
      | 0 => false
      | 1 => x.present
      | _ => match x.freq with
        | some f => -9200 ≤ f && f ≤ 9200
        | none => false
    else x.present

/-- Does a qualified reference keep its qualification (R344)? A clock input is lost only beyond ±12 ppm or with 4 edges
missing; a carrier's clock when its receiver leaves TRACKING. -/
def refHolds (s : State) (r : Nat) : Bool :=
  if r < 4 && 2 ≤ s.parN 0x2000 (0x10 + r) then
    refAvail s r && match (getRef s r).freq with
    | some f => -12000 ≤ f && f ≤ 12000
    | none => false
  else if r = 4 then carrierRuns s .a && s.rx.a.st == .tracking
  else if r = 5 then carrierRuns s .b && s.rx.b.st == .tracking
  else refGood s r

/-- Disqualify a reference: a running wait-to-restore is cancelled (R344, R347). -/
def disqualify (r : Nat) (s : State) : State :=
  raise 0x23 (bump (128 + r) (updRef r (fun x =>
    { x with qualified := false, goodSince := none, wtrEnd := none, hadDisq := true }) s))

/-- Disqualify reference `r` if it is qualified and its condition has gone. -/
def disqualifyIfLost (r : Nat) (s : State) : State :=
  if (getRef s r).qualified && !refHolds s r then disqualify r s else s

/-- Has a reference met its condition for TM_QUAL_TIME? -/
def qualifyDue (s : State) (r : Nat) : Bool :=
  let x := getRef s r
  !x.qualified && refGood s r && (match x.goodSince with
    | some t => t + s.parN 0x2003 0 * tps ≤ s.elapsed
    | none => false)

/-- Qualify a reference that is due; after a disqualification a wait-to-restore starts (R344, R347). -/
def qualifyIfDue (r : Nat) (s : State) : State :=
  if qualifyDue s r then
    raise 0x22 (updRef r (fun x => { x with
      qualified := true,
      wtrEnd := if x.hadDisq && s.parN 0x2004 0 != 0 then some (s.elapsed + s.parN 0x2004 0 * tps) else none }) s)
  else s

/-- End a wait-to-restore that has run out (R347). -/
def wtrIfDone (r : Nat) (s : State) : State :=
  match (getRef s r).wtrEnd with
  | some t => if t ≤ s.elapsed then raise 0x24 (updRef r (fun x => { x with wtrEnd := none }) s) else s
  | none => s

/-- A REFIN whose type is committed anew is disqualified and qualifies afresh, without a wait (R347, R348). -/
def refTypeChanged (r : Nat) (s : State) : State :=
  let s := if (getRef s r).qualified then disqualify r s else s
  updRef r (fun x => { x with
    goodSince := none, hadDisq := false, wtrEnd := none, freq := none, present := false, edge := none, rate := none }) s

/-- Note since when each reference has met its condition. -/
def trackRef (r : Nat) (s : State) : State :=
  updRef r (fun x => { x with goodSince := if refGood s r then some (x.goodSince.getD s.elapsed) else none }) s

/-! ## Selection and the PLL -/

/-- The references that may be selected (R346). -/
def candidates (s : State) : List Nat :=
  (List.range 9).filter fun r => (getRef s r).qualified && (getRef s r).priority != 0 && (getRef s r).wtrEnd.isNone

/-- The selection rule of R346. -/
def selectRef (s : State) : Option Nat :=
  let cand := candidates s
  if !s.tm.auto && cand.contains s.tm.manual then some s.tm.manual
  else cand.foldl (fun (b : Option Nat) r => match b with
    | none => some r
    | some x => if (getRef s r).priority < (getRef s x).priority then some r else some x) none

/-- Move the PLL to a state, with its event (R350). -/
def pllTo (p : Pll) (s : State) : State :=
  if s.tm.pll = p then s else raise 0x20 (updTm (fun t => { t with pll := p, inBandSince := none, limitFreeSince := none }) s)

/-- The mean of a list of control values, rounded down. -/
def meanOf (l : List Int) : Int := ifloor (l.foldl (· + ·) 0) (max 1 l.length)

/-- The values of a list of changes, newest first, in the ticks from `lo` to `hi`: their sum and the ticks they cover. -/
def spanSum (lo : Nat) : Nat → List (Nat × Int) → Int × Nat
  | _, [] => (0, 0)
  | hi, (t, c) :: rest =>
    let n := hi - max t lo
    if t ≤ lo then (n * c, n)
    else
      let (x, k) := spanSum lo t rest
      (n * c + x, n + k)

/-- The mean of the control value over the last second before the present tick (R352), rounded down. -/
def meanSecond (s : State) : Int :=
  match spanSum (s.elapsed - tps) s.elapsed s.tm.recent with
  | (_, 0) => s.tm.control
  | (x, k) => ifloor x k

/-- Take the holdover value at a loss (R352): value and quality. Each second's control value is the one at its first tick; the loss
is the commit window in which HOLDOVER is entered. -/
def holdoverOf (s : State) : Int × Nat :=
  let now := s.elapsed
  let win := (s.tm.history.filter fun h => now - h.1 ≤ 660 * tps && 60 * tps < now - h.1).map (·.2)
  if 600 ≤ win.length then (meanOf win, 0)
  else if 60 ≤ win.length then (meanOf win, 1)
  else (meanSecond s, 2)

/-- Enter HOLDOVER from a closed loop: the control value becomes the holdover value (R350, R352). -/
def enterHoldover (s : State) : State :=
  let (v, q) := holdoverOf s
  let s := bump 138 (updTm (fun t => { t with loop := v, holdVal := v, holdQual := q }) s)
  pllTo .holdover (raiseIf (q != 0) 0x2E s)

/-- Drop a pending phase adjustment when a phase reference becomes selected (R355). -/
def dropAdj (s : State) : State :=
  if s.tm.adjActive then raise 0x2D (bump 144 (updTm (fun t => { t with adjFs := 0, adjActive := false }) s)) else s

/-- Set the selected reference, with its event (R346). -/
def setSel (r : Option Nat) (s : State) : State :=
  if s.tm.sel = r then s
  else
    let s := raise 0x21 (bump 137 (updTm (fun t => { t with sel := r, alarmed := false, phaseErr := none }) s))
    match r with
    | some x => if isPhaseRef s x then dropAdj s else s
    | none => s

/-- Close the loop, or turn it to another reference: it goes on from the rate it has (R350, R351). -/
def closeLoop (s : State) : State :=
  updTm (fun t => { t with base := t.loop, errSum := 0, edgeAt := none, inBandSince := none, limitFreeSince := none }) s

/-- The PLL's transitions of R350 in a commit window, `old` being the reference selected before. A forced holdover wins
over a selection change (R348). THAW begins at the control value that holds, a phase adjustment's part in it included, so that
no frequency step is taken (R353). -/
def pllStep (old : Option Nat) (s : State) : State :=
  let sel := s.tm.sel
  match s.tm.pll with
  | .stopped => s
  | .freerun => if sel.isSome then pllTo .acquiring (closeLoop (updTm (fun t => { t with loop := 0 }) s)) else s
  | .acquiring | .locked =>
    if s.tm.forced || sel.isNone then enterHoldover s
    else if sel ≠ old then pllTo .acquiring (closeLoop s) else s
  | .holdover =>
    if !s.tm.forced && sel.isSome then pllTo .thaw (closeLoop (updTm (fun t => { t with loop := t.control }) s)) else s
  | .thaw =>
    if s.tm.forced || sel.isNone then pllTo .holdover (bump 138 s)
    else if sel ≠ old then closeLoop s else s

/-- Put TM_SELECT, TM_PRIORITY and TM_FORCE_HOLDOVER into effect in the commit window after their acceptance (R346,
R347). -/
def applyTmWaits (s : State) : State :=
  let s := match s.tm.selWait with
    | some (due, auto, id, clear) =>
      if due ≤ s.elapsed then
        let s := updTm (fun t => { t with selWait := none, auto := auto, manual := id }) s
        if clear then updTm (fun t => { t with refs := t.refs.map fun (x : Ref) => { x with wtrEnd := none } }) s else s
      else s
    | none => s
  let s := match s.tm.prioWait with
    | some (due, ps) =>
      if due ≤ s.elapsed then
        updTm (fun t => { t with prioWait := none, refs := t.refs.zipIdx.map fun (x : Ref × Nat) =>
          { x.1 with priority := ps.getD x.2 0 } }) s
      else s
    | none => s
  match s.tm.forceWait with
  | some v => updTm (fun t => { t with forceWait := none, forced := v }) s
  | none => s

/-- The commit window's work of the timing subsystem: qualification, selection, PLL state (R344, R346, R350). -/
def tmWindow (s : State) : State :=
  let s := (List.range 9).foldl (fun s r => wtrIfDone r (qualifyIfDue r (disqualifyIfLost r s))) s
  let s := applyTmWaits s
  let old := s.tm.sel
  pllStep old (setSel (selectRef s) s)

/-- The loop bandwidth of a reference in mHz (R343). -/
def bandwidth (s : State) (r : Nat) : Nat :=
  match r with
  | 4 | 5 | 6 => 3000
  | 7 => 100000
  | 8 => 50
  | _ => if s.parN 0x2000 (0x10 + r) = 1 then 100 else 1000

/-- The 10 / bandwidth seconds of a reference in ticks, rounded up (R349). -/
def lockTicks (s : State) (r : Nat) : Nat := (10000 * tps + bandwidth s r - 1) / bandwidth s r

/-- Has the loop met its lock condition (R349, R350)? -/
def lockDue (s : State) : Bool :=
  match s.tm.sel with
  | none => false
  | some r =>
    let since (t : Option Nat) : Bool := match t with
      | some x => x + lockTicks s r ≤ s.elapsed
      | none => false
    (s.tm.pll == .acquiring && since s.tm.inBandSince)
      || (s.tm.pll == .thaw && since s.tm.inBandSince && since s.tm.limitFreeSince)

/-- Move to LOCKED when due. -/
def lockIfDue (s : State) : State := if lockDue s then pllTo .locked s else s

/-- The period of a frequency reference in ps (R343): of the clock input's frequency, of a carrier's symbol clock, of the PAM4 symbols
of a host lane's 106.25 or 212.5 Gb/s and of the mate lanes' 53.125 Gb/s. -/
def refPeriod (s : State) (r : Nat) : Rat :=
  match r with
  | 4 => 2000000 / (max 1 (s.parN 0x4000 1) : Nat)
  | 5 => 2000000 / (max 1 (s.parN 0x4000 2) : Nat)
  | 6 => if View.fastLane s.params (s.parN 0x2002 0) then 160 / 17 else 320 / 17
  | 7 => 640 / 17
  | _ => match s.parN 0x2000 (0x10 + r) with
    | 2 => 100000
    | 3 => 40000
    | 4 => 8000
    | _ => 6400

/-- The place of the edge of a clock of period `p` that is nearest to phase 0, for a phase `cmp` against one of its edges
(R343). -/
def nearestEdge (p : Rat) (cmp : Int) : Int := (p * ((cmp : Rat) / p + 1 / 2).floor).floor

/-- The phase of the timescale against reference `r` in ps (R343, R351, R356): by the last edge of a 1PPS input, which marks the
second after its delay, to the nearest second; by the host's last measurement; else as compared, `cmp`, against the edge that was
nearest when the loop turned to the reference. -/
def refPhase (s : State) (r : Nat) (cmp : Option Int) : Option Int :=
  if r = 8 then s.tm.steerAt.map fun _ => s.tm.steerOffset
  else if isPhaseRef s r then
    (getRef s r).edge.map fun e =>
      let sec : Int := 2000000 * tps
      let p : Int := (e + 2000000 * ((s.tick : Int) - s.elapsed) + s.parI 0x2001 (0x10 + r)) % sec
      if sec < 2 * p then p - sec else p
  else cmp.map fun x => x - s.tm.edgeAt.getD (nearestEdge (refPeriod s r) x)

/-- The damping of the loop: with 13/3 or more, its gain peaks by at most 0.1 dB (R349). -/
def pllDamping : Rat := max (13 / 3) Config.pllDamping

/-- The gains of the second-order loop of a bandwidth in mHz (R349): per second for the phase error, and per second for the sum of
the phase errors of the ticks. Its natural frequency is the one that puts the closed loop's gain 3 dB down at the bandwidth. -/
def pllGain (mHz : Nat) : Rat × Rat :=
  let z := 1 + 2 * pllDamping * pllDamping
  let w := 2 * piOf * mHz / 1000 / rootOf (z + rootOf (z * z + 1))
  (2 * pllDamping * w, w * w / tps)

/-- The rate the closed loop has found for its reference: the start plus the integral part (R349). -/
def loopRate (s : State) : Int :=
  match s.tm.sel with
  | some r => s.tm.base - ((pllGain (bandwidth s r)).2 * s.tm.errSum).floor
  | none => s.tm.loop

/-- The rate of a reference against XO_IN as measured, in 0.001 ppb: of a clock by its frequency, of a phase reference by its last two
edges or measurements. -/
def refRate (s : State) (r : Nat) : Option Int :=
  if isPhaseRef s r then (getRef s r).rate else (getRef s r).freq.map (1000 * ·)

/-- The rate of the loop's phase target (R349): the reference's as measured, else the one the loop has found; within ±12 ppm. -/
def targetRate (s : State) : Int :=
  clampI (-12000000) 12000000 (match s.tm.sel.bind (refRate s) with
    | some x => x
    | none => loopRate s)

/-- What the loop would have the control value be without limits: a second-order loop on the phase error (R349). -/
def loopWant (s : State) : Int :=
  loopRate s - (match s.tm.sel, s.tm.phaseErr with
    | some x, some e => ((pllGain (bandwidth s x)).1 * e).floor
    | _, _ => 0)

/-- The control values allowed a closed loop: within the slew limit of its phase target's rate and within ±12 ppm (R341, R349). -/
def loopBounds (s : State) : Int × Int :=
  let slew : Int := 1000 * s.parN 0x2005 0
  (max (-12000000) (targetRate s - slew), min 12000000 (targetRate s + slew))

/-- The control value the closed loop demands (R341, R349). -/
def loopDemand (s : State) : Int := clampI (loopBounds s).1 (loopBounds s).2 (loopWant s)

/-- Is the loop free of its limits? Only then does it sum up the phase error, so that a limit acting long does not carry the rate
away. -/
def loopFree (s : State) : Bool :=
  loopDemand s == loopWant s && (s.tm.pll != .thaw || (loopDemand s - s.tm.loop).natAbs ≤ 1)

/-- Move the control value one unit of 0.001 ppb toward a goal: with one such move per epoch the rate changes by at most
1 ppb per second (R350, R353). -/
def towards (s : State) (goal : Int) : Int :=
  let c := s.tm.loop
  if s.tick % 500 ≠ 0 then c else if c < goal then c + 1 else if goal < c then c - 1 else c

/-- Has the 1 ppb/s limit kept the control value from the loop's demand in this tick (R350)? -/
def limitActs (s : State) : Bool := s.tick % 500 == 0 && 1 < (loopDemand s - s.tm.loop).natAbs

/-- The loop's part of the control value in this tick (R349, R350, R353). -/
def loopAfter (s : State) : Int :=
  match s.tm.pll with
  | .acquiring | .locked => loopDemand s
  | .thaw => towards s (loopDemand s)
  | .holdover => towards s s.tm.holdVal
  | _ => s.tm.loop

/-- The femtoseconds of a pending phase adjustment taken up in this tick: 2 fs per ppb, within the slew limit of the loop's target
and ±12 ppm; none in THAW, where only 1 ppb/s is allowed (R353, R355). -/
def adjStep (s : State) : Int :=
  let slew : Int := 1000 * s.parN 0x2005 0
  let l := s.tm.loop
  let (lo, hi) := match s.tm.pll with
    | .acquiring | .locked => loopBounds s
    | _ => (max (-12000000) (l - slew), min 12000000 (l + slew))
  if s.tm.pll = .thaw then 0 else clampI (min 0 ((lo - l).tdiv 500)) (max 0 ((hi - l).tdiv 500)) s.tm.adjFs

/-- The adjustment is used up (R355). -/
def adjIfDone (s : State) : State :=
  if s.tm.adjActive && s.tm.adjFs == 0 then raise 0x2D (updTm (fun t => { t with adjActive := false }) s) else s

/-- What the last second needs of the changes of the control value. -/
def trimRecent (lo : Nat) : List (Nat × Int) → List (Nat × Int)
  | [] => []
  | x :: rest => if x.1 ≤ lo then [x] else x :: trimRecent lo rest

/-- The control value of this tick (R341): the loop's part and the adjustment's; by it the timescale runs ahead of XO_IN, and a
second that begins while LOCKED keeps it in the history of 660 s (R352). -/
def setControl (s : State) : State :=
  let k := adjStep s
  let c := s.tm.loop + 500 * k
  let s := updTm (fun t => { t with
    adjFs := t.adjFs - k, control := c, ahead := t.ahead + 2 * c,
    recent := if t.recent.head?.map (·.2) = some c then trimRecent (s.elapsed - tps) t.recent
      else (s.elapsed, c) :: trimRecent (s.elapsed - tps) t.recent }) s
  if s.tm.pll = .locked ∧ s.tick % tps = 0 then
    updTm (fun t => { t with
      history := (t.history.filter fun h => s.elapsed - h.1 < 660 * tps) ++ [(s.elapsed, c)] }) s
  else s

/-- The TX lane PLLs: one with TM_HL_TX_SYNC follows the timescale's rate by at most 1 ppm/s, two units a tick; another follows
its HREFCLK (R361). -/
def quadRates (s : State) : State :=
  updTm (fun t => { t with
    quads := t.quads.zipIdx.map fun (x : Int × Nat) =>
      if s.parN 0x2015 (0x30 + x.2) = 1 then x.1 + clampI (-2) 2 (t.control - x.1) else 0 }) s

/-- Report a phase difference beyond TM_PHASE_ALARM, passed through all the same (R351). -/
def phaseAlarm (s : State) : State :=
  match s.tm.sel, s.tm.phaseErr with
  | some r, some e =>
    if isPhaseRef s r && s.parN 0x2006 0 * 1000 < e.natAbs then
      if s.tm.alarmed then s else raise 0x25 (updTm (fun t => { t with alarmed := true }) s)
    else updTm (fun t => { t with alarmed := false }) s
  | _, _ => s

/-- What the receivers, lanes and the mate link make of references 4 to 7 (R344): set by the tick from their state. -/
def notePresent (r : Nat) (v : Bool) (s : State) : State := updRef r (fun x => { x with present := v }) s

/-- Is an edge that comes `d` ps after the one before it within 1 s ± 15 µs (R344)? -/
def edgeWindow (d : Nat) : Bool := 999985000000 ≤ d && d ≤ 1000015000000

/-- A 1PPS input in this tick (R344): an edge is in its window or not, and one that is overdue at the start of the tick is missing.
An edge after a missing one is judged against none, as the first edge is: the input meets its condition again from it on. Two
edges a second apart give the reference's rate. -/
def ppsInput (r : Nat) (edge : Option Nat) (s : State) : State :=
  let now := 2000000 * s.elapsed
  let mean := meanSecond s
  updRef r (fun x =>
    let late : Bool := x.edge.any fun l => l + 1000015000000 < now
    let x := if late then { x with present := false, edge := none, rate := none } else x
    match edge with
    | some e =>
      { x with
        edge := some (now + e), present := match x.edge with
          | some l => edgeWindow (now + e - l)
          | none => true
        rate := match x.edge with
          | some l => if edgeWindow (now + e - l) then some (mean - ((now + e : Nat) - l - 1000000000000 : Int)) else none
          | none => none }
    | none => x) s

/-- What is measured of each reference in this tick. -/
def refInputs (i : TmIn) (s : State) : State :=
  let s := (List.range 8).foldl (fun s r => updRef r (fun x => { x with freq := i.refFreq.getD r none }) s) s
  let s := (List.range 4).foldl (fun s r => if isPhaseRef s r then ppsInput r (i.edges.getD r none) s else s) s
  (List.range 9).foldl (fun s r => trackRef r s) s

/-- One step of the loop (R349, R350, R353): the phase error and its sum, the loop's part, how long it is in band and free of the 1 ppb/s
limit. -/
def loopStep (cmp : Option Int) (s : State) : State :=
  let s := phaseAlarm (updTm (fun t => { t with phaseErr := t.sel.bind fun r => refPhase s r cmp }) s)
  let edge : Option Int := s.tm.sel.bind fun r => if isPhaseRef s r then none else cmp.map (nearestEdge (refPeriod s r))
  let s := updTm (fun t => { t with edgeAt := t.edgeAt.orElse (fun _ => edge) }) s
  let free := loopFree s
  let s := updTm (fun t => { t with errSum := if free then t.errSum + t.phaseErr.getD 0 else t.errSum }) s
  let inBand : Bool := match s.tm.phaseErr with
    | some e => e.natAbs ≤ 100000
    | none => false
  let acts := limitActs s
  updTm (fun t => { t with
    loop := loopAfter s,
    inBandSince := if inBand then some (t.inBandSince.getD s.elapsed) else none,
    limitFreeSince := if acts then none else some (t.limitFreeSince.getD s.elapsed) }) s

/-- The work span's part: what was measured, the loop, the rates, history and time in each state (R349 to R353, R361, R366). -/
def tmWork (i : TmIn) (s : State) : State :=
  let s := adjIfDone (quadRates (setControl (loopStep i.phaseErr (refInputs i s))))
  let s := if s.tm.pll = .holdover then bump 139 s else s
  if s.tm.pll = .thaw then bump 140 s else s

/-! ## PPS and ToD -/

/-- PPS output `o`. -/
def getPps (s : State) (o : Nat) : Pps := s.tm.pps.getD o {}

/-- Change PPS output `o`. -/
def updPps (o : Nat) (f : Pps → Pps) (s : State) : State := updTm (fun t => { t with pps := lmod t.pps o f }) s

/-- Where in its tick an aligned edge of output `o` falls, in ps. -/
def edgePs (s : State) (o : Nat) : Nat := ((getPps s o).offset % 2000000).toNat

/-- Does an aligned edge time of output `o` fall in the present tick: a second boundary plus its offset (R358)? -/
def alignedTick (s : State) (o : Nat) : Bool :=
  if 0 ≤ (getPps s o).offset then s.tick % tps == 0 else s.tick % tps == tps - 1

/-- Is an edge of output `o` due in this tick: a second after its last one, or, after a PPS_ALIGN or an enable, at the
first aligned edge time after it that lies at least a second after the last edge (R357, R358)? -/
def ppsDue (s : State) (o : Nat) : Bool :=
  let x := getPps s o
  x.enabled && (if x.waiting then
      alignedTick s o && (x.since < s.elapsed || edgePs s o != 0) && (match x.lastEdge with
        | some t => 2000000 * t + x.lastPs + 2000000 * tps ≤ 2000000 * s.elapsed + edgePs s o
        | none => true)
    else match x.lastEdge with
      | some t => s.elapsed - t == tps
      | none => false)

/-- Give the edge that is due. -/
def ppsEdge (o : Nat) (s : State) : State :=
  if ppsDue s o then
    let x := getPps s o
    let s := updPps o (fun x => { x with
      lastEdge := some s.elapsed, lastPs := if x.waiting then edgePs s o else x.lastPs, waiting := false,
      aligned := x.aligned || x.waiting,
      highUntil := s.elapsed + (x.width + 1) / 2 }) s
    raiseIf x.waiting 0x27 s
  else s

/-- Would output `o` have given an edge now had a PPS_ALIGN not withheld it (R366)? -/
def ppsWithheld (s : State) (o : Nat) : Bool :=
  let x := getPps s o
  x.enabled && x.waiting && !ppsDue s o && (match x.lastEdge with
    | some t => t != s.elapsed && (s.elapsed - t) % tps == 0
    | none => false)

/-- PPS_ALIGN takes effect (R358): offset and width as committed; no edge before the next aligned edge time. -/
def ppsAlignNow (o : Nat) (s : State) : State :=
  updPps o (fun x => { x with
    waiting := true, since := s.elapsed, width := s.parN 0x2011 (0x20 + o), offset := s.parI 0x2012 (0x20 + o) }) s

/-- PPS_ENABLE committed: enabling aligns the output, disabling drives it low (R357, R358). -/
def ppsEnableChanged (o : Nat) (s : State) : State :=
  if s.parN 0x2010 (0x20 + o) = 1 then
    if (getPps s o).enabled then s
    else ppsAlignNow o (updPps o (fun x => { x with enabled := true, lastEdge := none, aligned := false }) s)
  else updPps o (fun x => { x with enabled := false, waiting := false, highUntil := 0 }) s

/-- The offset of output `o` from the second boundary, in ns (R358, TM_STATUS). -/
def ppsOffsetNs (s : State) (o : Nat) : Int :=
  let x := getPps s o
  match x.lastEdge with
  | none => 0
  | some t =>
    let k := (((s.tick : Int) - (s.elapsed - t : Nat)) % (tps : Int))
    let k := if 2 * k ≥ tps then k - tps else k
    2000 * k + (x.lastPs / 1000 : Nat)

/-- CRC-16/CCITT of a ToD message (R359). -/
def todCrc (bs : Bytes) : Nat := crcMsb 16 0x1021 0xFFFF bs

/-- The ToD message that names the present second's boundary (R359). -/
def todMessage (s : State) : Bytes :=
  let m := [0xA5, 0x5A, 0x01, byteOf (pllCode s.tm.pll)] ++ be 6 (s.tick / tps) ++ [byteOf (s.tm.sel.getD 0xFF)]
    ++ [byteOf (b2n s.tm.timescaleSet + 2 * b2n (getPps s 0).aligned + 4 * b2n (getPps s 1).aligned)] ++ zeros 2
  m ++ be 2 (todCrc m)

/-- The UART frames of a message on TOD_TX, the level of each bit in turn: start bit, 8 data bits least significant first, one stop
bit (R359). -/
def uartBits (m : Bytes) : List Bool := m.flatMap fun b => false :: bitsLsb 8 b.toNat ++ [true]

/-- Send the ToD message of this second, 10 ms after its boundary, each bit lasting 1 / TOD_BAUD (R359). -/
def todSend (s : State) : State :=
  if bit (s.parN 0x2013 0) 0 && s.tick % tps == 5000 && s.tm.todSent != some s.elapsed then
    bump 145 (updTm (fun t => { t with todSent := some s.elapsed, todOut := uartBits (todMessage s), todRate := s.parN 0x2014 0 }) s)
  else s

/-! ## Commands (R363) -/

/-- TM_STATUS. -/
def tmStatusBytes (s : State) : Bytes :=
  let t := s.tm
  let mask (f : Ref → Bool) : Nat := (t.refs.zipIdx.map fun (x : Ref × Nat) => b2n (f x.1) * 2 ^ x.2).foldl (· + ·) 0
  le 8 s.tick ++ [byteOf (pllCode t.pll), byteOf (t.sel.getD 0xFF), byteOf (b2n t.auto), byteOf t.manual]
    ++ le 2 (mask (·.qualified)) ++ le 2 (mask (·.wtrEnd.isSome)) ++ [byteOf t.holdQual]
    ++ [byteOf (b2n t.timescaleSet + 2 * b2n t.forced)] ++ zeros 2
    ++ le 4 (ux 32 t.control) ++ le 4 (ux 32 t.holdVal)
    ++ le 4 (match t.phaseErr with
      | some e => ux 32 e
      | none => 0x80000000)
    ++ le 4 (ux 32 (t.adjFs.tdiv 1000)) ++ le 4 (ux 32 (ppsOffsetNs s 0)) ++ le 4 (ux 32 (ppsOffsetNs s 1))
    ++ (t.refs.map fun x => byteOf x.priority) ++ zeros 3 ++ le 8 t.lastStep ++ le 8 t.lastSteer ++ zeros 8

/-- TM_STATUS (R363). -/
def infoTmStatus : CmdInfo := { op := 0x0200, len := .fixed 16, desc := true }
/-- TM_SELECT (R363). -/
def infoTmSelect : CmdInfo := { op := 0x0201, len := .fixed 3 }
/-- TM_PRIORITY (R363). -/
def infoTmPriority : CmdInfo := { op := 0x0202, len := .fixed 9 }
/-- TM_STEP (R363). -/
def infoTmStep : CmdInfo := { op := 0x0203, timed := true, len := .fixed 8 }
/-- TM_PHASE_ADJ (R363). -/
def infoTmPhaseAdj : CmdInfo := { op := 0x0204, len := .fixed 4 }
/-- TM_STEER (R363). -/
def infoTmSteer : CmdInfo := { op := 0x0205, len := .fixed 16 }
/-- PPS_ALIGN (R363). -/
def infoPpsAlign : CmdInfo := { op := 0x0206, timed := true, len := .fixed 1 }
/-- TM_TOD_READ (R363). -/
def infoTmTodRead : CmdInfo := { op := 0x0207, len := .fixed 16, desc := true }
/-- TM_FORCE_HOLDOVER (R363). -/
def infoTmForceHoldover : CmdInfo := { op := 0x4200, len := .fixed 1 }

/-- The step a TM_STEP asks for. -/
def stepDelta (p : Packet) : Int := sx 64 (fld (paramBytes p) 0 8)

/-- The class of a TM_STEP (R354). -/
def stepClass (p : Packet) : ChangeClass := if stepDelta p < 0 then .disruptive else .local_

/-- Would a step from tick `t` leave the range of tick numbers (R354)? -/
def stepOut (t : Nat) (d : Int) : Bool := (t : Int) + d < 0 || (2 ^ 63 : Int) ≤ (t : Int) + d

/-- A step into another epoch leaves no access refusals that count toward TEN_FAULT_LIMIT (R42, R414). -/
def epochLeft (old : Nat) (s : State) : State :=
  if s.tick / 500 = old / 500 then s
  else { s with stw := { s.stw with tenants := s.stw.tenants.map fun x => { x with refusals := 0 } } }

/-- The timing subsystem's side of a step: the tick number, the set flag, the host's last measurement against the new tick numbers,
and which PPS outputs are now misaligned (R348, R354, R358). -/
def stepTimescale (d : Int) (s : State) : State :=
  let t := ((s.tick : Int) + d).toNat
  let s := bump 141 { s with tick := t, tm := { s.tm with
    timescaleSet := true, lastStep := t, steerOffset := s.tm.steerOffset + 2000000 * d,
    steerTick := ((s.tm.steerTick : Int) + d).toNat } }
  let s := raise 0x26 (epochLeft (t - d).toNat s)
  if d % (tps : Int) = 0 then s
  else
    let any := s.tm.pps.any (·.enabled)
    raiseIf any 0x28 (updTm (fun t => { t with pps := t.pps.map fun x => { x with aligned := false } }) s)

/-- The timescale as reset or a wake starts it (R342): PLL in FREERUN, control value 0, history empty, set flag clear. -/
def tmRestart (s : State) : State :=
  updTm (fun t => { t with
    timescaleSet := false, pll := .freerun, sel := none, control := 0, loop := 0, base := 0, errSum := 0, recent := [], edgeAt := none,
    holdVal := 0, holdQual := 0, forced := false, forceWait := none, phaseErr := none,
    inBandSince := none, limitFreeSince := none, history := [],
    refs := t.refs.map fun x => { x with qualified := false, goodSince := none, hadDisq := false, wtrEnd := none, edge := none, rate := none } }) s

end Sys2Proof.Machine
end

