-- ==== Sys2Proof/Machine/TxLine.lean ====
section
/-! DEFINITION. TxLine.lean: line transmit (group 0x3, R103 to R133): capacity, output states, presets, announcements. -/
namespace Sys2Proof.Machine

/-! ## Capacity (R27, R28, R104, R105) -/

/-- The mode values that decide a carrier's capacity: N, constellation code, entropy index k, code-rate code,
roll-off. -/
structure Mode where
  n : Nat
  const : Nat
  k : Nat
  rate : Nat
  roll : Nat
deriving DecidableEq, Repr

/-- Bits m per real pair: 2 for QPSK, 4 for 16QAM, 6 for PCS-64QAM. -/
def Mode.m (x : Mode) : Nat := 2 * (min x.const 2 + 1)

/-- The entropy H in 1/64 bit: 2, 4 or k / 64 (R106). -/
def Mode.h (x : Mode) : Nat := match x.const with
  | 0 => 128
  | 1 => 256
  | _ => x.k

/-- The denominator d of the code rate R = (d − 1) / d: 4, 5 or 6. -/
def Mode.d (x : Mode) : Nat := min x.rate 2 + 4

/-- Payload positions P. -/
def Mode.payload (x : Mode) : Nat := x.n * 63 / 64

/-- Coded bits per tick C. -/
def Mode.coded (x : Mode) : Nat := 2 * x.payload * x.m

/-- Information bits per tick I. -/
def Mode.info (x : Mode) : Nat := 2 * x.payload * (x.h * x.d - 64 * x.m) / (64 * x.d)

/-- Whole codewords per tick W. -/
def Mode.codewords (x : Mode) : Nat := x.coded / 30720

/-- Information bits per whole codeword K_w. -/
def Mode.perWord (x : Mode) : Nat := 30720 * (x.h * x.d - 64 * x.m) / (64 * x.m * x.d)

/-- Information bits in the whole codewords I_c. -/
def Mode.infoWhole (x : Mode) : Nat := x.codewords * x.perWord

/-- Slots available (R27, R28). -/
def Mode.slots (x : Mode) : Nat := min 24 ((x.infoWhole - 2048) / 206576)

/-- Information fill: what I holds beyond the overhead, the slots and their tags. -/
def Mode.infoFill (x : Mode) : Nat := x.info - (2048 + x.slots * 206576)

/-- Coded fill. -/
def Mode.codedFill (x : Mode) : Nat := x.coded - x.codewords * 30720

/-- DAC sample rate in kS/s (R104). -/
def Mode.dacRate (x : Mode) : Nat := x.n * 77 * 500 / 64

/-- The grid width in units of 12.5 GHz (R105). -/
def Mode.grid (x : Mode) : Nat := (x.n * 5000 * (100 + x.roll) + 12500000000 + 12499999999) / 12500000000

/-- The transmit mode of a carrier in a view. -/
def txMode (v : View) (c : Line) : Mode :=
  { n := v.parN 0x3010 c.inst, const := v.parN 0x3011 c.inst, k := v.parN 0x3012 c.inst,
    rate := v.parN 0x5000 c.inst, roll := v.parN 0x3013 c.inst }

/-- The slots a slot map equips: those whose payload type is not 0x00 (R194). -/
def equipped (map : Bytes) : List Nat := (List.range 24).filter fun i => byteAt map (2 * i) != 0

/-- Does a carrier's mode carry its slot map (R129)? -/
def slotFits (v : View) (c : Line) : Bool :=
  (equipped (v.par 0x6000 c.inst)).all fun i => i < (txMode v c).slots

/-! ## Output states (R121, R122) -/

/-- Change a carrier's transmitter. -/
def updTx (c : Line) (f : Tx → Tx) (s : State) : State := { s with tx := s.tx.upd c f }

/-- The event of index `n` of a carrier in a group whose Line B events lie 8 above (R132). -/
def lineEvt (base : Nat) (c : Line) (n : Nat) : Nat := base + 8 * c.ix + n

/-- The forcing causes: [0] power state, [1] XO loss, [2] disruptive sequence, [3] retune. -/
def txCauses (s : State) (c : Line) : Nat :=
  let t := s.tx.get c
  b2n (!carrierRuns s c) + 2 * b2n s.sys.deviceFault + 4 * b2n t.disrupt + 8 * b2n t.retune

/-- The effective output: the lowest of TX_OUTPUT and every active cause (R122). -/
def effOutput (s : State) (c : Line) : Nat :=
  let t := s.tx.get c
  if !carrierRuns s c || s.sys.deviceFault || t.retune then 0
  else min (s.parN 0x3000 c.inst) (if t.disrupt then 1 else 2)

/-- Bring a carrier's effective output up to date, raising SQUELCH on a fall from TRAFFIC and RELEASED on a rise to it
(R122). -/
def setOutput (c : Line) (s : State) : State :=
  let old := (s.tx.get c).eff
  let new := effOutput s c
  let s := updTx c (fun t => { t with eff := new }) s
  if old = 2 ∧ new < 2 then raise (lineEvt 0x30 c 2) s
  else if old < 2 ∧ new = 2 then raise (lineEvt 0x30 c 3) s
  else s

/-- Both carriers' outputs. -/
def setOutputs (s : State) : State := setOutput .b (setOutput .a s)

/-- Begin the transmit side of a declared disruptive sequence (R67 steps 1 and 2). -/
def beginDisrupt (c : Line) (retune : Bool) (s : State) : State :=
  setOutput c (updTx c (fun t => { t with disrupt := true, disruptTick := s.elapsed, retune := t.retune || retune }) s)

/-- Release the squelch of a disruptive sequence once the transmitter runs in the new configuration (R67 step 3). -/
def endDisrupt (c : Line) (s : State) : State :=
  if (s.tx.get c).disrupt && !(s.tx.get c).retune then
    setOutput c (updTx c (fun t => { t with disrupt := false }) s)
  else s

/-- The transmitter's counters of one tick from the samples its pipeline saturated, `fill` being whether a slot was filled
(R120, R132, R133). -/
def txCount (c : Line) (fill : Bool) (s : State) : State :=
  let base := 192 + 9 * c.ix
  let t := s.tx.get c
  let sat := t.satLast
  let s := if t.eff = 2 then bump base s else bump (base + 1) s
  let s := if sat = 0 then s else bumpBy (base + 2) sat s
  let s := if s.parN 0x3028 c.inst < sat then raise (lineEvt 0x30 c 5) (bump (base + 3) s) else s
  if fill && t.eff == 2 then raise (lineEvt 0x30 c 6) (bump (base + 4) s) else s

/-! ## Announcements (R527) -/

/-- The announced change is applied at its switch tick. -/
def announced (c : Line) (s : State) : State :=
  if (s.tx.get c).annT = some s.tick then
    raise (lineEvt 0x30 c 0) (bump (192 + 9 * c.ix + 5) (updTx c (fun x => { x with annT := none }) s))
  else s

/-- An announcement for switch tick `t` begins, or is joined by one more entry; one whose switch tick is this one is applied
before it gives way (R527). -/
def announce (c : Line) (t : Nat) (s : State) : State :=
  if (s.tx.get c).annT = some t then s
  else raise (lineEvt 0x30 c 1) (bump (192 + 9 * c.ix + 6) (updTx c (fun x => { x with annT := some t }) (announced c s)))

/-! ## Commands (R130) -/

/-- TX_STATUS. -/
def infoTxStatus : CmdInfo := { op := 0x0300, carriers := [1, 2], len := .fixed 16, desc := true }
/-- TX_MODE_PRESET. -/
def infoTxModePreset : CmdInfo := { op := 0x0301, carriers := [1, 2, 3], len := .fixed 1 }
/-- TX_CAPACITY. -/
def infoTxCapacity : CmdInfo := { op := 0x0302, len := .fixed 28, desc := true }

/-- The carrier a packet names. -/
def pktLine (p : Packet) : Line := lineOf p.carrier.toNat

/-- The carriers a packet names: 3 is both. -/
def pktLines (p : Packet) : List Line :=
  match p.carrier.toNat with
  | 1 => [.a]
  | 2 => [.b]
  | 3 => [.a, .b]
  | _ => []

/-- The 48 bytes of TX_STATUS. -/
def txStatusBytes (s : State) (c : Line) : Bytes :=
  let m := txMode s.params c
  le 4 m.n ++ [byteOf m.const, 0] ++ le 2 m.k ++ [byteOf m.rate, byteOf m.roll, byteOf (s.tx.get c).eff]
    ++ [byteOf (txCauses s c)] ++ le 8 ((s.tx.get c).annT.getD 0) ++ le 4 (s.tx.get c).satLast
    ++ le 4 m.dacRate ++ le 4 m.grid ++ zeros 16

/-- The preset modes of R113: N, constellation, entropy index, code-rate code. -/
def presets : List (Nat × Nat × Nat × Nat) :=
  [(579584, 2, 368, 1), (579584, 2, 320, 1), (579584, 1, 0, 1), (579584, 0, 0, 0), (427008, 2, 280, 1),
   (427008, 1, 0, 1), (427008, 0, 0, 0), (289792, 2, 368, 1), (289792, 1, 0, 2), (241664, 1, 0, 1),
   (120832, 2, 368, 2), (120832, 0, 0, 0)]

/-- Put one value into a session's open shadow (R44). -/
def shadowPut (q : Nat) (pid inst : Nat) (v : Bytes) (s : State) : State :=
  match getSess s q with
  | none => s
  | some x => setSess q (some { x with shadow := SMap.ins (pkey pid inst) v x.shadow }) s

/-- Write a preset's values for one carrier into the open shadow. -/
def presetPut (q : Nat) (pr : Nat × Nat × Nat × Nat) (c : Line) (s : State) : State :=
  let (n, k, h, r) := pr
  let s := shadowPut q 0x3010 c.inst (le 4 n) s
  let s := shadowPut q 0x3011 c.inst (le 4 k) s
  let s := if k = 2 then shadowPut q 0x3012 c.inst (le 4 h) s else s
  shadowPut q 0x5000 c.inst (le 4 r) s

/-- The 32 bytes of TX_CAPACITY. -/
def capacityBytes (m : Mode) : Bytes :=
  le 4 m.info ++ [byteOf m.slots, 0] ++ le 2 m.codewords ++ le 4 m.infoFill ++ le 4 m.codedFill
    ++ le 4 m.dacRate ++ le 4 m.grid ++ le 4 m.infoWhole ++ zeros 4

/-- The mode a TX_CAPACITY names. -/
def capacityMode (p : Packet) : Mode :=
  let b := paramBytes p
  { n := fld b 16 4, const := byteAt b 20, k := fld b 22 2, rate := byteAt b 24, roll := byteAt b 25 }

end Sys2Proof.Machine
end

