-- ==== Sys2Proof/Machine/Calib.lean ====
section
/-! DEFINITION. Calib.lean: converters and calibration (group 0xC, R367 to R387). -/
namespace Sys2Proof.Machine

/-- Change the calibration state. -/
def updCal (f : Cal → Cal) (s : State) : State := { s with cal := f s.cal }

/-- Converter `v`. -/
def getConv (s : State) (v : Nat) : Conv := s.cal.convs.getD v {}

/-- Change converter `v`. -/
def updConv (v : Nat) (f : Conv → Conv) (s : State) : State := updCal (fun x => { x with convs := lmod x.convs v f }) s

/-- The carrier of a converter: indices 0 to 3 and 8 to 11 are Line A (R367). -/
def convLine (v : Nat) : Line := if v / 4 % 2 = 0 then .a else .b

/-- The converters of a carrier, as a mask. -/
def convMask (c : Line) : Nat := match c with
  | .a => 0x0F0F
  | .b => 0xF0F0

/-- Is a converter a DAC? -/
def isDac (v : Nat) : Bool := 8 ≤ v

/-- The calibration state of a carrier. -/
def calSt (s : State) (c : Line) : CalSt := match c with
  | .a => s.cal.stA
  | .b => s.cal.stB

/-- The code of CAL_STATE. -/
def calCode : CalSt → Nat
  | .off => 0
  | .boot => 1
  | .service => 2
  | .test => 3
  | .recovery => 4

/-- Enter a calibration state: CAL_STATE_CHANGE (R370). -/
def setCalSt (c : Line) (x : CalSt) (s : State) : State :=
  if calSt s c = x then s
  else raise (lineEvt 0xC0 c 6) (updCal (fun k => match c with
    | .a => { k with stA := x }
    | .b => { k with stB := x }) s)

/-- The first counter of a converter's list (R387). -/
def convCnt (v n : Nat) : Nat := 896 + 7 * v + n

/-- The present sample rate of a converter in kS/s (R104). -/
def convRate (s : State) (v : Nat) : Nat :=
  let c := convLine v
  if isDac v then (txMode s.params c).dacRate else Mode.dacRate { txMode s.params c with n := s.parN 0x4000 c.inst }

/-! ## Slices -/

/-- The trims of a slice. -/
def Conv.trim (x : Conv) (k : Nat) : List Int := x.trims.getD k []

/-- The usable spares: in service, serving no position, not being brought in (R376). -/
def Conv.spares (x : Conv) : List Nat :=
  (List.range 68).filter fun k => !bit x.out k && !x.map.contains k && (x.cur.map (·.spare)) != some k

/-- The largest trim of a slice (R368). -/
def margin (t : List Int) : Nat := (t.map Int.natAbs).foldl max 0

/-- CAL_TRIM_MARGIN: the worst in-service slice that serves, in 0.1 %. -/
def Conv.margin10 (x : Conv) : Nat :=
  1000 * ((x.map.filter fun k => !bit x.out k).map fun k => margin (x.trim k)).foldl max 0 / 512

/-- The filled position of a failed slice (R377). -/
def fillPos (v p : Nat) (s : State) : State :=
  raise (lineEvt 0xC0 (convLine v) 2) (updConv v (fun x => { x with
    filled := setBit x.filled p true, out := setBit x.out (x.map.getD p 0) true }) s)

/-- No usable spare is left (R377, R476). -/
def exhausted (v : Nat) (s : State) : State := svcCause (2 + 2 ^ (8 + v)) (raise (lineEvt 0xC0 (convLine v) 3) s)

/-- A position is given to a spare: the outgoing slice is out of service (R376). -/
def swapIn (v p k : Nat) (s : State) : State :=
  raise (lineEvt 0xC0 (convLine v) 1) (bump (convCnt v 3) (updConv v (fun x => { x with
    out := setBit x.out (x.map.getD p 0) true, map := x.map.set p k, filled := setBit x.filled p false }) s))

/-- The codes of a DAC with filled positions: each repeats the preceding sample's code (R377). `p` is the position of the first, `l`
the code before it. -/
def fillDac (filled : Nat) : Nat → Int → List Int → List Int
  | _, _, [] => []
  | p, l, x :: rest =>
    let y := if bit filled (p % 64) then l else x
    y :: fillDac filled (p + 1) y rest

/-- The codes of an ADC with filled positions: each sample is the mean of the two neighbouring ones, rounded down (R377); the last
of the list waits for the one after it. -/
def fillAdc (filled : Nat) : Nat → Int → List Int → List Int
  | p, l, x :: n :: rest =>
    let y := if bit filled (p % 64) then ifloor (l + n) 2 else x
    y :: fillAdc filled (p + 1) y (n :: rest)
  | _, _, _ => []

/-- A converter has passed these codes: sample k is at position k mod 64 (R367). -/
def convPassed (v : Nat) (codes : List Int) (s : State) : State :=
  updConv v (fun x => { x with phase := (x.phase + codes.length) % 64, last := codes.getLast?.getD x.last }) s

/-- A carrier's DAC codes of the tick as the converters put them out. -/
def dacFill (c : Line) (s : State) : State :=
  (List.range 4).foldl (fun s i =>
    let v := 8 + 4 * c.ix + i
    let x := getConv s v
    let y := fillDac x.filled x.phase x.last ((s.tx.get c).dac.getD i [])
    convPassed v y (updTx c (fun t => { t with dac := t.dac.set i y }) s)) s

/-- A carrier's ADC codes of the tick as the converters hand them on, each one sample after it was taken, when the next one is
known. -/
def adcFilled (s : State) (c : Line) (adc : List (List Int)) : List (List Int) :=
  adc.zipIdx.map fun y =>
    let x := getConv s (4 * c.ix + y.2)
    fillAdc x.filled (x.phase + 63) x.last (x.held :: y.1)

/-- The ADCs have taken the codes `raw` and passed `codes` on. -/
def adcPassed (c : Line) (raw codes : List (List Int)) (s : State) : State :=
  codes.zipIdx.foldl (fun s y =>
    let v := 4 * c.ix + y.2
    convPassed v y.1 (updConv v (fun x => { x with held := (raw.getD y.2 []).getLast?.getD x.held }) s)) s

/-! ## Ramps (R375) -/

/-- Start ramps of a slice's four trims toward targets; a trim already there has none. -/
def rampTo (v k : Nat) (goal : List Int) (s : State) : State :=
  let len := s.parN 0xC003 0
  let step := s.parN 0xC004 0
  updConv v (fun x =>
    let new := (List.range 4).filterMap fun i =>
      let a := (x.trim k).getD i 0
      let b := goal.getD i 0
      if a = b then none else some ({ slice := k, trim := i, from_ := a, goal := b, len := len, step := step } : Ramp)
    { x with ramps := (x.ramps.filter (·.slice != k)) ++ new }) s

/-- CAL_TRIM_SET's ramps of a slice (R384): no run has started them. -/
def rampAsked (v k : Nat) (goal : List Int) (s : State) : State :=
  updConv v (fun x => { x with ramps := x.ramps.map fun r => if r.slice = k then { r with asked := true } else r })
    (rampTo v k goal s)

/-- Trims clamped to ±511 are counted and reported (R373, R377). -/
def rampClamped (v k : Nat) (req : List Int) (s : State) : State :=
  rampTo v k (req.map (clampI (-511) 511)) (raise (lineEvt 0xC0 (convLine v) 4) (bump (convCnt v 5) s))

/-- One step of a ramp: the trim's next applied value. -/
def Ramp.next (r : Ramp) (applied : Int) : Int :=
  let want := r.from_ + ((r.goal - r.from_) * (min (r.j + 1) r.len : Nat)).tdiv (max 1 r.len)
  applied + clampI (-(r.step : Int)) r.step (want - applied)

/-- Every ramp and crossfade of a converter moves one step in the commit window (R375, R376). -/
def convWindow (v : Nat) (s : State) : State :=
  let x := getConv s v
  let moved := x.ramps.map fun r => (({ r with j := r.j + 1 } : Ramp), r.next ((x.trim r.slice).getD r.trim 0))
  let trims := moved.foldl (fun t m => t.modify m.1.slice fun l => l.set m.1.trim m.2) x.trims
  let done := (moved.filter fun m => m.2 == m.1.goal).length
  let s := updConv v (fun x => { x with
    trims := trims, ramps := (moved.filter fun m => m.2 != m.1.goal).map (·.1),
    cur := x.cur.map fun f => { f with fade := f.fade.map fun j => (min j.2 (j.1 + 1), j.2) } }) s
  if done = 0 then s else bumpBy (convCnt v 6) done s

/-- The commit window's part of calibration. -/
def calWindow (s : State) : State := (List.range 16).foldl (fun s v => convWindow v s) s

/-! ## Substitution (R376, R377) -/

/-- Mark a change of slice map or out-of-service list in the runs that hold the converter (R381). -/
def markChanged (v : Nat) (s : State) : State :=
  updCal (fun x => { x with runs := x.runs.map fun r => if bit r.mask v then { r with changed := true } else r }) s

/-- Was the substitution asked for by CAL_SPARE_SET: of a slice that needs none? -/
def Subst.asked (b : Subst) : Bool := !b.failed && b.req.isEmpty

/-- The substitution of CAL_SPARE_SET finds no usable spare: its command ends with NO_SPARE (R384), once what has changed is
stored (R381). -/
def noSpare (v : Nat) (s : State) : State :=
  let mark (r : CalRun) : CalRun := if bit r.mask v && r.meas == 0 && r.start == 0 then { r with noSpare := true } else r
  updCal (fun x => { x with runs := x.runs.map mark })
    (updConv v (fun x => { x with subs := x.subs.filter (!·.asked) }) s)

/-- Take up the next of the positions that wait for a spare; without a usable spare the converter runs on (R377). -/
def nextSub (v : Nat) : List Subst → State → State
  | [], s => updConv v (fun x => { x with subs := [] }) s
  | b :: rest, s =>
    match (getConv s v).spares with
    | k :: _ => updConv v (fun x => { x with subs := rest, cur := some { sub := b, spare := k } }) s
    | [] =>
      nextSub v rest (if b.asked then noSpare v s
        else
          let s := exhausted v s
          if b.failed then markChanged v (fillPos v b.pos s) else rampClamped v ((getConv s v).map.getD b.pos 0) b.req s)

/-- Take up the next substitution when none is under way. -/
def pumpSubs (v : Nat) (s : State) : State :=
  if (getConv s v).cur.isSome then s else nextSub v (getConv s v).subs s

/-- A slice is found failed (R369). -/
def sliceFailed (v : Nat) (s : State) : State := raise (lineEvt 0xC0 (convLine v) 2) (bump (convCnt v 4) s)

/-- The trims that a foreground calibration finds for a slice, none when it is failed: stuck, or in need of a value out of range
(R368, R369). -/
def fitTrims (r : SliceCal) : Option (List Int) := (r.map (·.toList)).filter fun t => t.all fun x => -512 ≤ x && x ≤ 511

/-- A spare's foreground calibration ends: the crossfade starts, or the next spare is tried (R376). -/
def spareCalDone (v : Nat) (res : SliceCal) (s : State) : State :=
  match (getConv s v).cur with
  | some { sub := b, spare := k, fade := none } =>
    let s := bump (convCnt v 2) s
    match fitTrims res with
    | some t =>
      updConv v (fun x => { x with
        trims := x.trims.set k t, fore := x.fore.set k t,
        cur := some { sub := b, spare := k, fade := some (0, s.parN 0xC003 0) } }) s
    | none =>
      let s := markChanged v (sliceFailed v (updConv v (fun x => { x with
        out := setBit x.out k true, cur := none, subs := b :: x.subs }) s))
      let s := if (getConv s v).spares.isEmpty then noSpare v s else s
      pumpSubs v s
  | _ => s

/-- At w = 1 the position goes to the spare (R376). -/
def spareSwap (v : Nat) (s : State) : State :=
  match (getConv s v).cur with
  | some { sub := b, spare := k, fade := some (j, n) } =>
    if n ≤ j then
      pumpSubs v (markChanged v (swapIn v b.pos k (updConv v (fun x => { x with cur := none }) s)))
    else s
  | _ => s

/-! ## The store (R378 to R381) -/

/-- The address of calibration slot `i` (R499). -/
def calAddr (i : Nat) : Nat := 0x10000 * (i + 1)

/-- The target of a trim: where its ramp goes, else the applied value. -/
def Conv.target (x : Conv) (k i : Nat) : Int :=
  match x.ramps.find? fun r => r.slice == k && r.trim == i with
  | some r => r.goal
  | none => (x.trim k).getD i 0

/-- A converter's record of 640 bytes, with the trims `t` gives (R378). -/
def convRecord (t : Nat → Nat → Int) (x : Conv) : Bytes :=
  ((List.range 68).flatMap fun k => (List.range 4).flatMap fun i => le 2 (ux 16 (t k i)))
    ++ padTo 64 (x.map.map byteOf) ++ le 9 x.out ++ zeros 1 ++ le 2 (ux 16 (x.calTemp.getD 0)) ++ le 4 x.calRate
    ++ zeros 16

/-- The records of the 16 converters as they stand: slice maps, out-of-service lists, targets of ramps (R379). -/
def calRecords (s : State) : Bytes := s.cal.convs.flatMap fun x => convRecord x.target x

/-- A store write begins with what stands at its execution (R382); `aux` is the number of the run at
whose end it is made, 0 for none. -/
def calStoreOp (owner : Option CmdKey) (aux : Nat) (s : State) : State :=
  flashAdd { kind := .calStore, owner := owner, data := calRecords s, aux := aux } s

/-- A calibration slot with these records, without its marker. -/
def calImage (recs : Bytes) (seq : Nat) : Bytes :=
  let b := le 4 1 ++ le 4 seq ++ le 16 Config.dieId.toNat ++ le 4 10240 ++ zeros 36
    ++ recs
  b ++ le 4 (crc32c b)

/-- The slot's sequence when its bytes are valid (R378). -/
def calSeq (b : Bytes) : Option Nat :=
  if fld b 10308 4 = 0xA5 ∧ fld b 10304 4 = crc32c (b.take 10304) ∧ fld b 0 4 = 1 ∧ slice b 8 16 = le 16 Config.dieId.toNat then
    some (fld b 4 4)
  else none

/-- The bytes of slot `i`. -/
def calSlot (s : State) (i : Nat) : Bytes := flashRead s (calAddr i) 10312

/-- The valid slot with the highest sequence. -/
def calBest (s : State) : Option (Nat × Nat) :=
  match calSeq (calSlot s 0), calSeq (calSlot s 1) with
  | none, none => none
  | some x, none => some (0, x)
  | none, some y => some (1, y)
  | some x, some y => some (if x < y then (1, y) else (0, x))

/-- The slot that a store write of these records goes to, and its image without the marker; none when the sequence is spent
(R379). -/
def calPlan (recs : Bytes) (s : State) : Option (Nat × Bytes) :=
  let (slot, seq) := match calBest s with
    | none => (0, 1)
    | some (i, q) => (1 - i, q + 1)
  if 2 ^ 32 ≤ seq then none else some (slot, calImage recs seq)

/-- A slot is erased and written with these bytes. -/
def calPut (slot : Nat) (b : Bytes) (s : State) : State := flashProgram (calAddr slot) b (flashErase (calAddr slot) 65536 s)

/-- Write these records to the store; none when the sequence is spent (R379). -/
def calWrite (recs : Bytes) (s : State) : Option State :=
  match calPlan recs s with
  | none => none
  | some (slot, b) => some (updCal (fun x => { x with copy := some (b ++ le 4 0xA5), valid := true }) (calPut slot (b ++ le 4 0xA5) s))

/-- A store write that fails, or that power fails during, leaves its slot without a marker (R379). DESIGN CHOICE: the slot holds
the rest of the image (log entry 184). -/
def calCut (recs : Bytes) (s : State) : State :=
  match calPlan recs s with
  | none => s
  | some (slot, b) => calPut slot b s

/-- A carrier in RECOVERY enters SERVICE once a store write has succeeded (R370). -/
def recovered (c : Line) (s : State) : State := if calSt s c = .recovery then setCalSt c .service s else s

/-- A run has ended: CAL_DONE on the carriers it has calibrated, its command answered (R373); a substitution alone calibrates
nothing. -/
def endRun (r : CalRun) (rep : Reply) (s : State) : State :=
  let s := updCal (fun x => { x with runs := x.runs.erase r }) s
  let s := if r.start = 0 then s
    else
      let s := (bitsSet 16 r.mask).foldl (fun s v => updConv v (fun x => { x with
        calTemp := x.temp, calTick := s.tick, calRate := convRate s v, drifted := false }) s) s
      bothLines.foldl (fun s c => raiseIf (r.mask &&& convMask c != 0) (lineEvt 0xC0 c 0) s) s
  finishOpt r.owner rep s

/-- The calibration store write at the head of the flash operations ends (R379, R381). -/
def calStored (ok : Bool) (s : State) : State :=
  match s.flash.ops with
  | o :: _ =>
    if o.kind ≠ .calStore then s
    else
      let r := if o.aux = 0 then none else s.cal.runs.find? fun r => r.storing && r.no == o.aux
      let done (rep : Reply) (s : State) : State :=
        let s := finishOpt o.owner rep s
        match r with
        | some r => endRun r (if r.noSpare then .st 0x1C02 else rep) s
        | none => s
      match if ok then calWrite o.data s else none with
      | some s => done .ok (raise 0xC7 (recovered .b (recovered .a (flashEnded 0 (bump 1008 s)))))
      | none => done (.st 0x1C01) (flashEnded 0x1C01 (bump 1009 (calCut o.data s)))
  | [] => s

/-! ## Runs (R373, R374, R381) -/

/-- Has a converter nothing of a run left to do? -/
def convIdle (s : State) (v : Nat) : Bool :=
  let x := getConv s v
  x.ramps.all (·.asked) && x.subs.isEmpty && x.cur.isNone

/-- A run whose ramps and substitutions have ended stores, if asked or on a change, else ends. -/
def closeRun (s : State) (r : CalRun) : State :=
  if r.meas != 0 || r.storing || !(bitsSet 16 r.mask).all (convIdle s) then s
  else if r.store || (r.changed && s.parN 0xC005 0 == 1) then
    calStoreOp none r.no
      (updCal (fun x => { x with runs := x.runs.map fun q => if q = r then { q with storing := true } else q }) s)
  else endRun r (if r.noSpare then .st 0x1C02 else .ok) s

/-- All runs. -/
def closeRuns (s : State) : State := s.cal.runs.foldl closeRun s

/-- What a run makes of one position's required trims under CAL_POLICY (R373). -/
def actOn (v : Nat) (res : List SliceCal) (s : State) (p : Nat) : State :=
  let x := getConv s v
  let k := x.map.getD p 0
  let pol := s.parN 0xC000 (0x50 + v)
  if bit x.filled p then s
  else
    match res.getD p none with
    | none =>
      updConv v (fun x => { x with subs := x.subs ++ [{ pos := p, failed := true, req := [] }] }) (sliceFailed v s)
    | some t =>
      let req := t.toList
      if s.parN 0xC001 (0x50 + v) * 512 < 100 * margin req then
        if pol = 0 then rampClamped v k req s
        else updConv v (fun x => { x with subs := x.subs ++ [{ pos := p, failed := false, req := req }] }) s
      else if pol = 1 then rampTo v k (x.fore.getD k []) s
      else if 511 < margin req then rampClamped v k req s
      else rampTo v k req s

/-- The length of a background measurement: 25,000 ticks for an ADC, 50,000 for a DAC. -/
def measTicks (v : Nat) : Nat := if isDac v then 50000 else 25000

/-- A converter's measurement ends, from the last tick of its time on: ramps and substitutions start by policy, and move first in
the next commit window. -/
def measured (v : Nat) (res : List SliceCal) (s : State) : State :=
  match s.cal.runs.find? fun r => bit r.meas v with
  | none => s
  | some r =>
    if s.elapsed + 1 < r.start + measTicks v then s
    else
      let s := updCal (fun x => { x with runs := x.runs.map fun q => if q = r then { q with meas := setBit q.meas v false } else q }) s
      pumpSubs v ((List.range 64).foldl (actOn v res) s)

/-- A run begins: it takes the next number. -/
def addRun (r : CalRun) (s : State) : State :=
  updCal (fun x => { x with runs := x.runs ++ [{ r with no := x.runNo + 1 }], runNo := x.runNo + 1 }) s

/-- Does a run hold converter `v`? -/
def runOf (s : State) (v : Nat) : Bool := s.cal.runs.any fun r => bit r.mask v

/-- Abort the runs that touch a carrier, on the other carrier's converters too: measurements are discarded, a substitution short
of w = 1 is not made (R382). -/
def abortRuns (mask : Nat) (s : State) : State :=
  let hit := s.cal.runs.filter fun r => r.mask &&& mask != 0
  let all := hit.foldl (fun m r => m ||| r.mask) mask
  let s := updCal (fun x => { x with runs := x.runs.filter fun r => r.mask &&& mask == 0 }) s
  let s := hit.foldl (fun s r => finishOpt r.owner (.st stAborted) s) s
  (bitsSet 16 all).foldl (fun s v => updConv v (fun x => { x with subs := [], cur := none }) s) s

/-! ## States (R370 to R372, R382) -/

/-- The start values of a converter from the store copy (R380); without one, zero trims and the reset slice map. A slice out of
service stays so (R369). -/
def convLoad (copy : Option Bytes) (v : Nat) (x : Conv) : Conv :=
  match copy with
  | none => { temp := x.temp, readIn := x.readIn, out := x.out, calTemp := x.calTemp, calTick := x.calTick, calRate := x.calRate }
  | some b =>
    let r := slice b (64 + 640 * v) 640
    let t := (List.range 68).map fun k => (List.range 4).map fun i => sx 16 (fld r (8 * k + 2 * i) 2)
    { temp := x.temp, readIn := x.readIn, calTick := x.calTick, trims := t, fore := t,
      map := (List.range 64).map fun p => byteAt r (544 + p), out := fld r 608 9 ||| x.out,
      calTemp := some (sx 16 (fld r 618 2)), calRate := fld r 620 4 }

/-- Power-up of a carrier begins: BOOT, with the start values of the store copy; without a valid slot the Replace
Request cause arises (R370, R380). -/
def calBoot (c : Line) (s : State) : State :=
  let s := if s.cal.valid then s else svcCause 16 s
  let m := convMask c
  setCalSt c .boot (updCal (fun x => { x with
    convs := x.convs.zipIdx.map fun y => if bit m y.2 then convLoad x.copy y.2 y.1 else y.1,
    left := x.left ||| m, repeats := x.repeats.zipIdx.map fun y => if bit m y.2 then 0 else y.1,
    bootChanged := x.bootChanged.set c.ix false }) s)

/-- A carrier stops running: OFF, its runs aborted (R370, R382). -/
def calOff (c : Line) (s : State) : State :=
  let m := convMask c
  let s := abortRuns m s
  let s := updCal (fun x => { x with
    left := (bitsSet 16 x.left).foldl (fun a v => if bit m v then a else setBit a v true) 0,
    convs := x.convs.zipIdx.map fun y => if bit m y.2 then { y.1 with ramps := [] } else y.1 }) s
  setCalSt c .off s

/-- A foreground calibration that has changed a slice map or an out-of-service list stores at its end (R381). -/
def storeChanged (c : Line) (s : State) : State :=
  if s.cal.bootChanged.getD c.ix false && s.parN 0xC005 0 == 1 then
    calStoreOp none 0 (updCal (fun x => { x with bootChanged := x.bootChanged.set c.ix false }) s)
  else s

/-- Has the BOOT calibration of a carrier ended? -/
def bootDone (s : State) (c : Line) : Bool := calSt s c == .boot && s.cal.left &&& convMask c == 0

/-- BOOT ends: SERVICE, or RECOVERY without a valid slot; a changed map is stored (R370, R381). -/
def bootEnd (c : Line) (s : State) : State :=
  let s := raise (lineEvt 0xC0 c 0) (setCalSt c (if s.cal.valid then .service else .recovery) s)
  storeChanged c s

/-- One slice's result in a foreground calibration: trims set directly, a failed slice out of service (R369, R371). -/
def foreSlice (v : Nat) (res : List SliceCal) (s : State) (k : Nat) : State :=
  let x := getConv s v
  if bit x.out k then s
  else
    match fitTrims (res.getD k none) with
    | some t =>
      updConv v (fun x => { x with trims := x.trims.set k t, fore := x.fore.set k t }) s
    | none =>
      let s := sliceFailed v (updConv v (fun x => { x with out := setBit x.out k true }) s)
      updCal (fun x => { x with bootChanged := x.bootChanged.set (convLine v).ix true }) s

/-- After a foreground calibration each position whose slice failed is given to a spare at once, or filled (R376,
R377). -/
def forePos (v : Nat) (s : State) (p : Nat) : State :=
  let x := getConv s v
  if !bit x.out (x.map.getD p 0) || bit x.filled p then s
  else
    match x.spares with
    | k :: _ => swapIn v p k s
    | [] => fillPos v p (exhausted v s)

/-- A converter's foreground calibration ends (R371); a retune's ends with CAL_DONE once all its converters are done, and one of
the ADCs, for a receive symbol rate, with RETUNED: that of the DACs follows with the transmitter's sequence (R67, R382). -/
def foreDone (v : Nat) (res : List SliceCal) (s : State) : State :=
  if !bit s.cal.left v then s
  else
    let c := convLine v
    let s := bump (convCnt v 2) (updCal (fun x => { x with left := setBit x.left v false }) s)
    let s := updConv v (fun x => { x with ramps := [] }) s
    let s := (List.range 64).foldl (forePos v) ((List.range 68).foldl (foreSlice v res) s)
    let s := updConv v (fun x => { x with
      calTemp := x.temp, calTick := s.tick, calRate := convRate s v, drifted := false }) s
    let s := raiseIf (!isDac v && calSt s c != .boot && s.cal.left &&& convMask c &&& 0xFF == 0) (lineEvt 0x30 c 4) s
    if s.cal.left &&& convMask c = 0 ∧ calSt s c ≠ .boot then storeChanged c (raise (lineEvt 0xC0 c 0) s) else s

/-- A symbol-rate change: runs of the carrier end, the retuned converters are calibrated again (R382). -/
def calRetune (c : Line) (dac : Bool) (s : State) : State :=
  let m := bitsSet 16 (convMask c) |>.filter fun v => isDac v == dac
  updCal (fun x => { x with
    left := m.foldl (fun a v => setBit a v true) x.left, bootChanged := x.bootChanged.set c.ix false })
    (abortRuns (convMask c) s)

/-- A firmware restart: runs are aborted and measurements discarded, crossfades already started complete (R382). -/
def calRestart (s : State) : State :=
  let s := updCal (fun x => { x with runs := [] }) s
  (List.range 16).foldl (fun s v => updConv v (fun x => { x with
    subs := [], cur := x.cur.filter fun f => f.fade.isSome }) s) s

/-- A temperature reading, one in an epoch, and what its drift sets going (R372). -/
def tempRead (v : Nat) (t : Int) (s : State) : State :=
  let c := convLine v
  if (getConv s v).readIn = some (s.tick / 500) then s
  else
    let s := updConv v (fun x => { x with temp := some t, readIn := some (s.tick / 500) }) s
    if calSt s c = .off then s else
    let x := getConv s v
    let drift : Nat := match x.calTemp with
      | some u => (t - u).natAbs
      | none => 0
    if drift ≤ s.parN 0xC002 0 then s
    else
      match calSt s c with
      | .boot =>
        if bit s.cal.left v then s
        else if s.cal.repeats.getD v 0 < 2 then
          updCal (fun k => { k with left := setBit k.left v true, repeats := lmod k.repeats v (· + 1) }) s
        else if x.drifted then s
        else raise (lineEvt 0xC0 c 5) (updConv v (fun x => { x with drifted := true }) s)
      | .service =>
        if x.drifted then s else raise (lineEvt 0xC0 c 5) (updConv v (fun x => { x with drifted := true }) s)
      | _ =>
        if runOf s v then s
        else bump (convCnt v 0) (bump (convCnt v 1) (addRun { mask := 2 ^ v, meas := 2 ^ v, start := s.elapsed + 1 } s))

/-- What the work span of a tick does of calibration. -/
def calWork (s : State) : State := closeRuns ((List.range 16).foldl (fun s v => spareSwap v s) s)

/-- Read both calibration slots at start-up (R378, R380). -/
def calStart (s : State) : State :=
  let bad (i : Nat) : Bool := (calSeq (calSlot s i)).isNone && !(flashRead s (calAddr i) 65536).all (· == 0xFF)
  let s := raiseIf (bad 1) 0xCF (raiseIf (bad 0) 0xCF s)
  match calBest s with
  | some (i, _) =>
    let b := calSlot s i
    updCal (fun x => { x with
      copy := some b, valid := true, convs := x.convs.zipIdx.map fun y => convLoad (some b) y.2 y.1 }) s
  | none => s

/-! ## Commands (R384) -/

/-- CAL_STATUS. -/
def infoCalStatus : CmdInfo := { op := 0x0C00, len := .fixed 17, desc := true }
/-- CAL_RUN. -/
def infoCalRun : CmdInfo := { op := 0x0C01, long := true, len := .fixed 3 }
/-- CAL_STORE. -/
def infoCalStore : CmdInfo := { op := 0x0C02, long := true }
/-- CAL_TEST. -/
def infoCalTest : CmdInfo := { op := 0x4C00, carriers := [1, 2], len := .fixed 1 }
/-- CAL_TRIM_SET. -/
def infoCalTrimSet : CmdInfo := { op := 0x4C01, len := .fixed 10 }
/-- CAL_SPARE_SET. -/
def infoCalSpareSet : CmdInfo := { op := 0x4C02, long := true, len := .fixed 2 }
/-- CAL_DUMP. -/
def infoCalDump : CmdInfo := { op := 0x4C03, len := .fixed 17, desc := true }

/-- The run code of CAL_STATUS. -/
def runCode (s : State) (v : Nat) : Nat :=
  let x := getConv s v
  if s.cal.runs.any fun r => bit r.meas v then 1
  else
    match x.cur with
    | some f => if f.fade.isSome then 4 else 3
    | none =>
      if !x.ramps.isEmpty then 2
      else if s.cal.runs.any fun r => bit r.mask v && r.storing then 5 else 0

/-- The temperature field: 0x8000 while not read. -/
def temp16 (t : Option Int) : Bytes := le 2 (match t with
  | some t => ux 16 t
  | none => 0x8000)

/-- The 48 bytes of CAL_STATUS. -/
def calStatusBytes (s : State) (v : Nat) : Bytes :=
  let x := getConv s v
  le 8 s.tick ++ [byteOf (calCode (calSt s (convLine v))), byteOf (runCode s v), byteOf x.spares.length,
      byteOf (s.parN 0xC000 (0x50 + v))]
    ++ le 9 x.out ++ [byteOf (popcount 64 x.filled)] ++ le 2 x.margin10 ++ temp16 x.temp ++ temp16 x.calTemp
    ++ le 8 x.calTick ++ le 4 (convRate s v) ++ zeros 8

/-- May a background run start on a converter's carrier (R374)? -/
def calReady (s : State) (v : Nat) : Bool :=
  let x := calSt s (convLine v)
  x == .service || x == .test || x == .recovery

end Sys2Proof.Machine
end

