-- ==== Sys2Proof/Machine/Aes.lean ====
section
/-! DEFINITION. Aes.lean: AES-256 and GCM as FIPS 197 and NIST SP 800-38D define them (R258). -/
namespace Sys2Proof

/-- Multiplication by x in the field of AES. -/
def aesX (a : Nat) : Nat := if a < 128 then 2 * a else ((2 * a) % 256) ^^^ 0x1B

/-- The product of two elements of the field of AES, `n` bits of the second still to take. -/
def aesMul : Nat → Nat → Nat → Nat
  | 0, _, _ => 0
  | n + 1, a, b => (if b % 2 = 1 then a else 0) ^^^ aesMul n (aesX a) (b / 2)

/-- A power in the field of AES. -/
def aesPow (a : Nat) : Nat → Nat
  | 0 => 1
  | n + 1 => aesMul 8 (aesPow a n) a

/-- A rotation left of a byte. -/
def rotl8 (n x : Nat) : Nat := ((x <<< n) ||| (x >>> (8 - n))) % 256

/-- The S-box of AES: the inverse (the power 254) and the affine map. -/
def sboxOf (x : Nat) : Nat :=
  let b := aesPow x 254
  b ^^^ rotl8 1 b ^^^ rotl8 2 b ^^^ rotl8 3 b ^^^ rotl8 4 b ^^^ 0x63

/-- The S-box as a table. -/
def sboxTable : Array Nat := ((List.range 256).map sboxOf).toArray

/-- SubBytes of one byte. -/
def subByte (x : Nat) : Nat := sboxTable.getD x 0

/-- The key schedule of AES-256: words of four bytes, newest first, `i` the next index. -/
def keyExpand : Nat → Nat → Nat → List (List Nat) → List (List Nat)
  | 0, _, _, w => w
  | n + 1, i, rc, w =>
    let t := w.headD []
    let old := w.getD 7 []
    let u := if i % 8 = 0 then
        match (t.tail ++ t.take 1).map subByte with
        | a :: r => (a ^^^ rc) :: r
        | [] => []
      else if i % 8 = 4 then t.map subByte else t
    keyExpand n (i + 1) (if i % 8 = 0 then aesX rc else rc) (List.zipWith (· ^^^ ·) old u :: w)

/-- The 15 round keys of a 32-byte key. -/
def roundKeys (key : Bytes) : List (List Nat) :=
  let w0 := ((List.range 8).map fun i => (slice key (4 * i) 4).map (·.toNat)).reverse
  let ws := (keyExpand 52 8 1 w0).reverse
  (List.range 15).map fun r => (List.range 4).flatMap fun j => ws.getD (4 * r + j) []

/-- ShiftRows on the 16 bytes of a block, column by column. -/
def shiftRows (b : List Nat) : List Nat := (List.range 16).map fun i => b.getD ((i + 4 * (i % 4)) % 16) 0

/-- MixColumns on one column. -/
def mixColumn (c : List Nat) : List Nat :=
  (List.range 4).map fun i =>
    let g (k : Nat) : Nat := c.getD ((i + k) % 4) 0
    aesX (g 0) ^^^ (aesX (g 1) ^^^ g 1) ^^^ g 2 ^^^ g 3

/-- MixColumns on a block. -/
def mixColumns (b : List Nat) : List Nat := (List.range 4).flatMap fun j => mixColumn ((b.drop (4 * j)).take 4)

/-- AES-256 on one 16-byte block with the round keys. -/
def aesBlock (ks : List (List Nat)) (blk : List Nat) : List Nat :=
  let s := List.zipWith (· ^^^ ·) blk (ks.getD 0 [])
  let s := (List.range 13).foldl (fun s r =>
    List.zipWith (· ^^^ ·) (mixColumns (shiftRows (s.map subByte))) (ks.getD (r + 1) [])) s
  List.zipWith (· ^^^ ·) (shiftRows (s.map subByte)) (ks.getD 14 [])

/-- AES-256 of a block given as a number, most significant byte first. -/
def aesNat (ks : List (List Nat)) (x : Nat) : Nat :=
  unbe ((aesBlock ks ((be 16 x).map (·.toNat))).map byteOf)

/-- The product in the field of GCM, `n` bits of the first factor still to take, most significant first. -/
def ghashMul : Nat → Nat → Nat → Nat → Nat
  | 0, _, _, z => z
  | n + 1, x, v, z =>
    ghashMul n x (if v % 2 = 1 then (v / 2) ^^^ (0xE1 <<< 120) else v / 2) (if x.testBit n then z ^^^ v else z)

/-- GHASH over a byte string, its last block padded with zeros. -/
def ghash (h y : Nat) (bs : Bytes) : Nat :=
  (List.range ((bs.length + 15) / 16)).foldl (fun y i =>
    ghashMul 128 (y ^^^ unbe (padTo 16 (slice bs (16 * i) 16))) h 0) y

/-- The key stream of GCM's counter mode for `n` bytes: counter blocks from 2 on. -/
def gcmStream (ks : List (List Nat)) (iv : Bytes) (n : Nat) : Bytes :=
  ((List.range ((n + 15) / 16)).flatMap fun i => be 16 (aesNat ks (unbe iv * 2 ^ 32 + (i + 2)))).take n

/-- The keystream applied to a text: encryption and decryption alike. -/
def gcmCrypt (key iv text : Bytes) : Bytes :=
  List.zipWith (· ^^^ ·) text (gcmStream (roundKeys key) iv text.length)

/-- The 16-byte tag over additional data and ciphertext. -/
def gcmTag (key iv aad ct : Bytes) : Bytes :=
  let ks := roundKeys key
  let h := aesNat ks 0
  let y := ghash h (ghash h 0 aad) ct
  let y := ghashMul 128 (y ^^^ ((8 * aad.length) * 2 ^ 64 + 8 * ct.length)) h 0
  be 16 (y ^^^ aesNat ks (unbe iv * 2 ^ 32 + 1))

end Sys2Proof
end

