-- ==== Sys2Proof/Machine/Sha.lean ====
section
/-! DEFINITION. Sha.lean: SHA-384, HMAC-SHA-384 and HKDF-SHA-384 as the standards the specification names define them
(R276, R500). -/
namespace Sys2Proof

/-- The largest `r` below 2^k with r^e ≤ n, found bit by bit. -/
def rootBits (e n : Nat) : Nat → Nat → Nat
  | 0, r => r
  | k + 1, r =>
    let t := r + 2 ^ k
    rootBits e n k (if t ^ e ≤ n then t else r)

/-- Is `n` prime (trial division, for the small primes of the constants)? -/
def smallPrime (n : Nat) : Bool := 2 ≤ n && (List.range n).all fun d => d < 2 || n % d != 0

/-- The first 80 primes. -/
def primes80 : List Nat := (List.range 410).filter smallPrime

/-- The first 64 fractional bits of the e-th root of a prime. -/
def rootFrac (e p : Nat) : Nat := rootBits e (p * 2 ^ (64 * e)) 69 0 % 2 ^ 64

/-- The 80 round constants of SHA-512 (FIPS 180-4): cube roots of the first 80 primes. -/
def sha512K : List Nat := primes80.map (rootFrac 3)

/-- The initial hash value of SHA-384: square roots of the ninth to sixteenth primes. -/
def sha384H0 : List Nat := ((primes80.drop 8).take 8).map (rootFrac 2)

/-- A 64-bit rotation right. -/
def rotr64 (n x : Nat) : Nat := (x >>> n) ||| ((x <<< (64 - n)) % 2 ^ 64)

/-- Addition modulo 2^64. -/
def add64 (a b : Nat) : Nat := (a + b) % 2 ^ 64

/-- The complement of a 64-bit word. -/
def not64 (x : Nat) : Nat := 2 ^ 64 - 1 - x % 2 ^ 64

/-- The message schedule of SHA-512: 16 words extended to 80, kept newest first. -/
def shaExpand : Nat → List Nat → List Nat
  | 0, w => w
  | n + 1, w =>
    let g (i : Nat) : Nat := w.getD i 0
    let x := g 14
    let y := g 1
    let s0 := rotr64 1 x ^^^ rotr64 8 x ^^^ (x >>> 7)
    let s1 := rotr64 19 y ^^^ rotr64 61 y ^^^ (y >>> 6)
    shaExpand n (add64 (add64 (g 15) s0) (add64 (g 6) s1) :: w)

/-- One round of SHA-512 on the eight working variables. -/
def shaRound (v : List Nat) (kw : Nat × Nat) : List Nat :=
  match v with
  | [a, b, c, d, e, f, g, h] =>
    let s1 := rotr64 14 e ^^^ rotr64 18 e ^^^ rotr64 41 e
    let ch := (e &&& f) ^^^ (not64 e &&& g)
    let t1 := add64 (add64 (add64 h s1) (add64 ch kw.1)) kw.2
    let s0 := rotr64 28 a ^^^ rotr64 34 a ^^^ rotr64 39 a
    let mj := (a &&& b) ^^^ (a &&& c) ^^^ (b &&& c)
    [add64 t1 (add64 s0 mj), a, b, c, add64 d t1, e, f, g]
  | _ => v

/-- The compression of one 128-byte block. -/
def shaBlock (h : List Nat) (blk : Bytes) : List Nat :=
  let w := (List.range 16).map fun i => unbe (slice blk (8 * i) 8)
  let ws := (shaExpand 64 w.reverse).reverse
  List.zipWith add64 h ((sha512K.zip ws).foldl shaRound h)

/-- The padding of SHA-512. -/
def shaPad (m : Bytes) : Bytes :=
  let z := (128 - (m.length + 17) % 128) % 128
  m ++ [0x80] ++ zeros z ++ be 16 (8 * m.length)

/-- SHA-384 of a byte string, 48 bytes (FIPS 180-4). -/
def sha384 (m : Bytes) : Bytes :=
  let p := shaPad m
  let h := (List.range (p.length / 128)).foldl (fun h i => shaBlock h (slice p (128 * i) 128)) sha384H0
  (h.flatMap (be 8)).take 48

/-- HMAC-SHA-384 (FIPS 198-1). -/
def hmac384 (key m : Bytes) : Bytes :=
  let k := padTo 128 (if 128 < key.length then sha384 key else key)
  sha384 (k.map (· ^^^ 0x5C) ++ sha384 (k.map (· ^^^ 0x36) ++ m))

/-- HKDF-Extract (RFC 5869). -/
def hkdfExtract (salt ikm : Bytes) : Bytes := hmac384 salt ikm

/-- The output blocks of HKDF-Expand from block `i`, `t` being the block before. -/
def hkdfBlocks (prk info : Bytes) : Nat → Nat → Bytes → Bytes
  | 0, _, _ => []
  | n + 1, i, t =>
    let b := hmac384 prk (t ++ info ++ [byteOf i])
    b ++ hkdfBlocks prk info n (i + 1) b

/-- HKDF-Expand to `n` bytes (RFC 5869). -/
def hkdfExpand (prk info : Bytes) (n : Nat) : Bytes := (hkdfBlocks prk info ((n + 47) / 48) 1 []).take n

end Sys2Proof
end

