-- ==== Sys2Proof/Machine/Curve.lean ====
section
/-! DEFINITION. Curve.lean: the curve arithmetic of the public-key engine: P-384 (FIPS 186-5) and X25519 (RFC 7748)
(R276, R279, R280). -/
namespace Sys2Proof

/-- The prime of P-384. -/
def p384 : Nat := 2 ^ 384 - 2 ^ 128 - 2 ^ 96 + 2 ^ 32 - 1

/-- The order of P-384's base point. -/
def n384 : Nat := 0xffffffffffffffffffffffffffffffffffffffffffffffffc7634d81f4372ddf581a0db248b0a77aecec196accc52973

/-- The coefficient b of P-384; a is −3. -/
def b384 : Nat := 0xb3312fa7e23ee7e4988e056be3f82d19181d9c6efe8141120314088f5013875ac656398d8a2ed19d2a85c8edd3ec2aef

/-- The base point of P-384. -/
def g384 : Nat × Nat :=
  (0xaa87ca22be8b05378eb1c71ef320ad746e1d3b628ba79b9859f741e082542a385502f25dbf55296c3a545e3872760ab7,
   0x3617de4a96262c6f5d9e98bf9292dc29f8f41dbd289a147ce9da3113b5f0b8c00a60b1ce1d7e819d7a431d7c90ea0e5f)

/-- A power modulo `m`, over the lowest `k` bits of the exponent. -/
def powMod (m : Nat) : Nat → Nat → Nat → Nat
  | 0, _, _ => 1 % m
  | k + 1, b, e => (if e % 2 = 1 then b else 1) * powMod m k (b * b % m) (e / 2) % m

/-- The inverse modulo a prime (the power p − 2). -/
def invMod (m a : Nat) : Nat := powMod m 400 (a % m) (m - 2)

/-- A point of P-384; none is the point at infinity. -/
abbrev Pt := Option (Nat × Nat)

/-- The sum of two points of P-384. -/
def ptAdd : Pt → Pt → Pt
  | none, q => q
  | p, none => p
  | some (x1, y1), some (x2, y2) =>
    if x1 = x2 ∧ (y1 + y2) % p384 = 0 then none
    else
      let l := if x1 = x2 then (3 * x1 * x1 + (p384 - 3)) * invMod p384 (2 * y1) % p384
        else (y2 + p384 - y1) * invMod p384 (x2 + p384 - x1) % p384
      let x := (l * l + 2 * p384 - x1 - x2) % p384
      some (x, (l * (x1 + p384 - x) + p384 - y1) % p384)

/-- A multiple of a point, over the lowest `k` bits of the scalar. -/
def ptMul : Nat → Nat → Pt → Pt
  | 0, _, _ => none
  | k + 1, e, p => ptAdd (if e % 2 = 1 then p else none) (ptMul k (e / 2) (ptAdd p p))

/-- Is a pair of coordinates a point of the curve other than (0, 0)? -/
def onCurve (x y : Nat) : Bool :=
  !(x == 0 && y == 0) && y * y % p384 == (x * x * x + (p384 - 3) * x + b384) % p384

/-- ECDSA verification on P-384 (R280): public key, hash, r, s, each already in range. -/
def ecdsaOk (qx qy e r s : Nat) : Bool :=
  let w := invMod n384 s
  match ptAdd (ptMul 384 (e * w % n384) (some g384)) (ptMul 384 (r * w % n384) (some (qx, qy))) with
  | none => false
  | some (x, _) => x % n384 == r

/-- The prime of X25519. -/
def p25519 : Nat := 2 ^ 255 - 19

/-- The Montgomery ladder of RFC 7748 over bits `k` − 1 down to 0. -/
def ladder (u k : Nat) : Nat → Nat → Nat → Nat → Nat → Nat × Nat
  | 0, x2, z2, _, _ => (x2, z2)
  | n + 1, x2, z2, x3, z3 =>
    let m := p25519
    let sw := k.testBit n
    let (x2, x3) := if sw then (x3, x2) else (x2, x3)
    let (z2, z3) := if sw then (z3, z2) else (z2, z3)
    let a := (x2 + z2) % m
    let b := (x2 + m - z2) % m
    let aa := a * a % m
    let bb := b * b % m
    let e := (aa + m - bb) % m
    let c := (x3 + z3) % m
    let d := (x3 + m - z3) % m
    let da := d * a % m
    let cb := c * b % m
    let y3 := (da + cb) * (da + cb) % m
    let w := (da + m - cb) % m
    let t3 := u * (w * w % m) % m
    let y2 := aa * bb % m
    let t2 := e * ((aa + 121665 * e) % m) % m
    if sw then ladder u k n y3 t3 y2 t2 else ladder u k n y2 t2 y3 t3

/-- X25519 of a 32-byte scalar and a 32-byte coordinate (RFC 7748): bit 255 masked, u reduced modulo p. -/
def x25519 (scalar point : Bytes) : Bytes :=
  let k := unle scalar
  let k := k % 2 ^ 255 - k % 8
  let k := if k.testBit 254 then k else k + 2 ^ 254
  let u := (unle point % 2 ^ 255) % p25519
  let (x, z) := ladder u k 255 1 0 u 1
  le 32 (x * invMod p25519 z % p25519)

/-- The coordinates of a public key of P-384 as messages carry it: 0x04, X, Y. -/
def keyXY (k : Bytes) : Nat × Nat := (unbe (slice k 1 48), unbe (slice k 49 48))

/-- A point as a message carries it. -/
def keyBytes (x y : Nat) : Bytes := [0x04] ++ be 48 x ++ be 48 y

end Sys2Proof
end

