-- ==== Sys2Proof/Machine/Dsp.lean ====
section
/-! DEFINITION. Dsp.lean: the arithmetic both line pipelines share: complex samples, filters that run on from tick to
tick, the delay, dispersion and I/Q corrections, the logarithm of the demapper (R114 to R119, R138, R139, R151). -/
namespace Sys2Proof.Machine

/-! ## Complex samples -/

/-- A complex sample: real and imaginary part. -/
abbrev Cx : Type := Rat × Rat

/-- Sum. -/
def Cx.plus (x y : Cx) : Cx := (x.1 + y.1, x.2 + y.2)

/-- Product. -/
def Cx.times (x y : Cx) : Cx := (x.1 * y.1 - x.2 * y.2, x.1 * y.2 + x.2 * y.1)

/-- Conjugate. -/
def Cx.conj (x : Cx) : Cx := (x.1, -x.2)

/-- Squared magnitude. -/
def Cx.norm (x : Cx) : Rat := x.1 * x.1 + x.2 * x.2

/-- Quotient; 0 for the divisor 0. -/
def Cx.over_ (x y : Cx) : Cx :=
  let z := Cx.times x (Cx.conj y)
  (z.1 / Cx.norm y, z.2 / Cx.norm y)

/-- The sum of complex samples. -/
def Cx.sum (l : List Cx) : Cx := l.foldl Cx.plus (0, 0)

/-- A multiple of a sample. -/
def Cx.scale (r : Rat) (x : Cx) : Cx := (r * x.1, r * x.2)

/-- A sample turned by `k` quarter turns. -/
def Cx.turn (k : Nat) (x : Cx) : Cx :=
  match k % 4 with
  | 0 => x
  | 1 => (-x.2, x.1)
  | 2 => (-x.1, -x.2)
  | _ => (x.2, -x.1)

/-- The mean of a list, 0 for none. -/
def ratMean (l : List Rat) : Rat := ratSum l / l.length

/-- The nearest integer, halves upward. -/
def roundUpHalf (x : Rat) : Int := (x + 1 / 2).floor

/-! ## Lists by lane -/

/-- The values of lane `i` of a list of symbols. -/
def laneOf (i : Nat) (syms : List (List Rat)) : List Rat := syms.map (·.getD i 0)

/-- Symbols from their lanes' values. -/
def symsOf (lanes : List (List Rat)) : List (List Rat) :=
  (List.range (lanes.getD 0 []).length).map fun n => lanes.map (·.getD n 0)

/-! ## Filters -/

/-- The last `n` entries of a list. -/
def lastN {α : Type} (n : Nat) (l : List α) : List α := l.drop (l.length - n)

/-- A filter's outputs for the samples `xs`, `held` being the samples before them, newest last: output n is the sum of tap
k times the sample k before n. -/
def fir (taps held xs : List Rat) : List Rat :=
  let all := (held ++ xs).reverse
  ((List.range xs.length).map fun n =>
    ratSum (taps.zipWith (· * ·) (all.drop (xs.length - 1 - n))))

/-- The same for complex taps and samples given by their parts. -/
def firC (taps : List Cx) (heldI heldQ xsI xsQ : List Rat) : List Rat × List Rat :=
  let all := ((heldI ++ xsI).zip (heldQ ++ xsQ)).reverse
  let out := (List.range xsI.length).map fun n =>
    Cx.sum (taps.zipWith Cx.times (all.drop (xsI.length - 1 - n)))
  (out.map (·.1), out.map (·.2))

/-- What a filter of `k` taps holds on to. -/
def heldAfter (k : Nat) (held xs : List Rat) : List Rat := lastN (k - 1) (held ++ xs)

/-- Samples in a tick at N symbols (R104, R134). -/
def samplesOf (n : Nat) : Nat := n * 77 / 64

/-- The taps of a delay of `d` units of 0.05 ps, `n` symbols in a tick (R117, R138), with unit gain at DC: the tick is 2 µs long. -/
def delayTaps (n : Nat) (d : Int) : List Rat :=
  let t := (List.range 33).map (delayTap ((d : Rat) * (samplesOf n : Nat) / 40000000))
  t.map (· / ratSum t)

/-- The fixed length of the dispersion filters, longer than the spread of the whole range (R119, R139; DESIGN CHOICE, log entry
169); `rx` is 1 for the receiver's. -/
def cdLength (rx : Nat) : Nat := if rx = 0 then 32768 else 262144

/-- The taps of a dispersion filter; `rx` is 1 for the receiver's. -/
def cdTaps (rx : Nat) (disp : Int) (freq n : Nat) : List Cx :=
  (List.range (cdLength rx)).map (cdTap (cdLength rx) disp freq (samplesOf n))

/-- Q against I: scaled by `g` hundredths of a dB and turned by `ph` hundredths of a degree (R117, R138). -/
def iqAdjust (g ph : Int) (i q : List Rat) : List Rat × List Rat :=
  let r := pow10 ((g : Rat) / 2000)
  let (co, si) := cosSin ((ph : Rat) / 100)
  (i.zipWith (fun x y => x - r * y * si) q, q.map fun y => r * y * co)

/-! ## The logarithm (R151) -/

/-- ln(n / d) for 0 < n ≤ d: n / d is brought to [1, 2) by doubling, and the series runs to 100 terms, within 2^-300 of the
value. -/
def lnRatio (n d : Nat) : Rat :=
  let e := Nat.log2 d - Nat.log2 n + 1
  let x : Rat := (n * 2 ^ e : Nat) / (d : Rat)
  let k : Nat := if 2 ≤ x then 1 else 0
  let m := x / 2 ^ k
  atanhTwice 100 ((m - 1) / (m + 1)) - ((e : Rat) - k) * atanhTwice 100 (1 / 3)

end Sys2Proof.Machine
end

