-- ==== Sys2Proof/Machine/RxLine.lean ====
section
/-! DEFINITION. RxLine.lean: line receive (group 0x4, R134 to R164): the acquisition state machine, the receive mode, the
measures. -/
namespace Sys2Proof.Machine

/-- Change a carrier's receiver. -/
def updRx (c : Line) (f : Rx → Rx) (s : State) : State := { s with rx := s.rx.upd c f }

/-- A carrier's receiver. -/
def getRx (s : State) (c : Line) : Rx := s.rx.get c

/-- The first counter of a carrier's list (R158). -/
def rxCnt (c : Line) (n : Nat) : Nat := 256 + 8 * c.ix + n

/-- Is the CD held (R153)? -/
def cdHeld (s : State) (c : Line) : Bool :=
  s.parN 0x4020 c.inst == 1 || (match (getRx s c).leftAt with
    | some t => s.elapsed ≤ t + s.parN 0x4014 c.inst * tps
    | none => false)

/-- The held value (R153). -/
def heldValue (s : State) (c : Line) : Int :=
  if s.parN 0x4020 c.inst = 1 then s.parI 0x4024 c.inst else (getRx s c).heldVal

/-- The lanes and polarisations of a carrier as instances (R128). -/
def lanesOf (c : Line) : List Nat := (List.range 4).map (16 * c.inst + 1 + ·)

/-- The polarisation instances of a carrier. -/
def polsOf (c : Line) : List Nat := [16 * c.inst + 8, 16 * c.inst + 9]

/-- The front-end correction's settings with the measure that reports each: skew by lane, gain and phase by
polarisation (R138, R157). -/
def feSettings (c : Line) : List (Nat × Nat × Nat) :=
  ((lanesOf c).map fun i => (0x4031, 0x420C, i)) ++ ((polsOf c).map fun i => (0x4032, 0x420D, i))
    ++ (polsOf c).map fun i => (0x4033, 0x420E, i)

/-- Load the front-end correction's applied values from the parameters (R138). -/
def reloadFe (c : Line) (s : State) : State :=
  updRx c (fun r => { r with fe := (feSettings c).foldl (fun m x =>
    SMap.put 0 m (pkey x.2.1 x.2.2) (s.parI x.1 x.2.2)) r.fe }) s

/-- Enter a receiver state: its counts of consecutive ticks start afresh, but for the lock of timing recovery, which runs on from
TIMING; frames coming in are kept from PILOT to TRACKING only. -/
def rxEnter (c : Line) (st : RxSt) (s : State) : State :=
  let keep : Bool := st == .tracking
  updRx c (fun r => { r with
    st := st, since := s.elapsed, cmaGood := 0, snrLow := 0, fasPos := none, fasRun := 0,
    timingGood := if st = .equalise ∨ st = .pilot ∨ keep then r.timingGood else 0,
    convLost := false, diverged := false, freqBad := false, modeDue := none, less := 0,
    align := if keep then r.align else { symNo := r.align.symNo, tail := r.align.tail },
    rot := if keep then r.rot else 0, buf := if keep then r.buf else [], starts := if keep then r.starts else [], erase := if keep then r.erase else [],
    refs := if keep then r.refs else [], past := if keep then r.past else [] }) s

/-- The RX_CD settings that are used only from an entry to CD_SCAN or TIMING on (R160). -/
def latchTrack (c : Line) (s : State) : State :=
  updRx c (fun r => { r with cdTrack := s.parN 0x4025 c.inst == 1, cdHold := s.parN 0x4014 c.inst }) s

/-- Enter TIMING with the CD filter at a value (R153); timing recovery begins anew. -/
def enterTiming (c : Line) (v : Int) (s : State) : State :=
  reloadFe c (rxEnter c .timing (latchTrack c (updRx c (fun r => { r with
    cdFilter := v, cdResidual := 0, tr := {}, hist := r.hist.take 8, eqCount := 0, eqGrad := [] }) s)))

/-- Enter CD_SCAN: a fresh scan with the settings in force, of the one value RX_CD_SET with RX_CD_MODE = 1 (R140, R160). -/
def enterScan (c : Line) (s : State) : State :=
  let fixed : Bool := s.parN 0x4020 c.inst == 1
  reloadFe c (rxEnter c .cdScan (latchTrack c (updRx c (fun r => { r with
    held := false, cands := [], scores := [], fine := [], scanFixed := fixed,
    scanMin := s.parI (if fixed then 0x4024 else 0x4021) c.inst,
    scanMax := s.parI (if fixed then 0x4024 else 0x4022) c.inst,
    scanStep := s.parN 0x4023 c.inst }) s)))

/-- Start the acquisition timer. -/
def startTimer (c : Line) (s : State) : State := updRx c (fun r => { r with timer := some s.elapsed }) s

/-- A start of acquisition (R153): TIMING with the held value when the CD is held and it is wanted, else CD_SCAN. -/
def startAcq (c : Line) (useHeld : Bool) (s : State) : State :=
  let s := startTimer c (updRx c (fun r => { r with acqStart := s.elapsed }) s)
  if useHeld && cdHeld s c then
    let v := heldValue s c
    enterTiming c v (updRx c (fun r => { r with held := true, cands := [] }) s)
  else enterScan c s

/-- Leave TRACKING (R135, R153): what is held is noted, LOCK_LOST is raised with its reason. An announcement under way is not
applied, and frames are counted no more (R136, R156). -/
def leaveTracking (c : Line) (reason : Nat) (s : State) : State :=
  if (getRx s c).st = .tracking then
    let s := updRx c (fun r => { r with
      leftAt := some s.elapsed, heldVal := r.cdFilter, heldMode := r.mode, reason := reason, lastLoss := s.tick }) s
    let s := { s with frm := s.frm.upd c fun f => { f with anns := [], counted := false } }
    raise (lineEvt 0x40 c 1) (bump (rxCnt c 1) s)
  else s

/-- The next value of the candidate list, or a fresh scan when the list is spent or the CD was held (R153). -/
def nextCandidate (c : Line) (s : State) : State :=
  match (getRx s c).cands with
  | v :: rest => if (getRx s c).held then enterScan c s else enterTiming c v (updRx c (fun r => { r with cands := rest }) s)
  | [] => enterScan c s

/-! ## The transitions of R153 -/

/-- The carrier starts running: OFF to SIGNAL. -/
def rxStart (c : Line) (s : State) : State :=
  rxEnter c .signal (updRx c (fun r => { r with
    cands := [], scores := [], fine := [], meas := [], taps := [], hist := [], above := 0, below := 0, timer := none,
    cdResidual := 0 }) s)

/-- The carrier stops running: to OFF. -/
def rxStop (c : Line) (s : State) : State :=
  rxEnter c .off (updRx c (fun r => { r with timer := none }) (leaveTracking c 6 s))

/-- Input power at the threshold for 8 consecutive ticks: leave SIGNAL. -/
def signalPresent (c : Line) (s : State) : State :=
  let r := getRx s c
  if r.st = .signal ∧ 8 ≤ r.above then raise (lineEvt 0x40 c 2) (startAcq c true s) else s

/-- Input power 2 dB below the threshold for 8 consecutive ticks: to SIGNAL. -/
def signalLost (c : Line) (s : State) : State :=
  let r := getRx s c
  if r.st ≠ .off ∧ r.st ≠ .signal ∧ 8 ≤ r.below then
    let s := rxEnter c .signal (updRx c (fun r => { r with timer := none }) (leaveTracking c 4 s))
    raise (lineEvt 0x40 c 2) s
  else s

/-- The coarse candidates of a scan (R140). -/
def coarseList (r : Rx) : List Int :=
  (List.range (((r.scanMax - r.scanMin) / (max 1 r.scanStep : Nat)).toNat + 1)).map fun i =>
    r.scanMin + (i * r.scanStep : Nat)

/-- The fine candidates around the best coarse value, clipped to ±160,000 (R140). -/
def fineList (r : Rx) (best : Int) : List Int :=
  ((List.range (2 * r.scanStep / 50 + 1)).map fun i => best - r.scanStep + (50 * i : Nat)).filter fun v =>
    -160000 ≤ v && v ≤ 160000

/-- The best of a list of scored candidates: the strongest, the first of equals. -/
def bestScore (l : List (Int × Nat)) : Option (Int × Nat) :=
  l.foldl (fun b x => match b with
    | none => some x
    | some y => if y.2 < x.2 then some x else some y) none

/-- The `n` best of a list of scored candidates in order of score. -/
def bestScores : Nat → List (Int × Nat) → List Int
  | 0, _ => []
  | n + 1, l => match bestScore l with
    | none => []
    | some x => x.1 :: bestScores n (l.erase x)

/-- The fine candidates of a receiver whose coarse pass is over. -/
def finePass (r : Rx) : List Int := match bestScore r.scores with
  | some x => fineList r x.1
  | none => []

/-- The candidate a scan has applied: the next one not scored, coarse ones first. -/
def candNow (r : Rx) : Option Int :=
  if r.scanFixed then some r.scanMin
  else if r.scores.length < (coarseList r).length then (coarseList r)[r.scores.length]?
  else (finePass r)[r.fine.length]?

/-- A tick of a scan: the candidate is in the filter; in the 40th tick it is held it is scored by the strength of the
symbol-clock tone (R140). -/
def scanTick (c : Line) (tone : Nat) (s : State) : State :=
  let r := getRx s c
  if r.st ≠ .cdScan then s
  else match candNow r with
    | none => s
    | some v =>
      let s := updRx c (fun r => { r with cdFilter := v }) s
      if r.scanFixed || (s.elapsed - r.since) % 40 != 39 then s
      else if r.scores.length < (coarseList r).length then
        updRx c (fun r => { r with scores := r.scores ++ [(v, tone)] }) s
      else updRx c (fun r => { r with fine := r.fine ++ [(v, tone)] }) s

/-- Is the last candidate scored (R140)? A fixed dispersion takes one tick. -/
def scanDone (s : State) (c : Line) : Bool :=
  let r := getRx s c
  r.st == .cdScan && r.since + 1 ≤ s.elapsed
    && (r.scanFixed || (coarseList r).length ≤ r.scores.length && (finePass r).length ≤ r.fine.length
      && r.since + 40 * (r.scores.length + r.fine.length) ≤ s.elapsed)

/-- What a finished scan has found: the best coarse value and the three best fine ones; a fixed dispersion only itself. -/
def scanFound (r : Rx) : Int × List Int :=
  if r.scanFixed then (r.scanMin, List.replicate 3 r.scanMin)
  else (((bestScore r.scores).map (·.1)).getD 0, bestScores 3 r.fine)

/-- The last candidate is scored: TIMING with the first of the candidate list, the three best fine values (R140, R153). -/
def cdScanDone (c : Line) (s : State) : State :=
  let r := getRx s c
  if !scanDone s c then s
  else match if r.scanFixed then [r.scanMin] else bestScores 3 r.fine with
    | v :: rest => enterTiming c v (updRx c (fun r => { r with cands := rest }) s)
    | [] => s

/-- The 16 real filters of a centre spike of `n` taps: each lane passed on as it is (R153). -/
def spikeTaps (n : Nat) : List (List Rat) :=
  (List.range 16).map fun f => (List.range n).map fun k => if f % 5 = 0 ∧ k = n / 2 then 1 else 0

/-- Timing locked: TIMING to EQUALISE, the taps set to a centre spike (R142). -/
def timingLocked (c : Line) (s : State) : State :=
  if (getRx s c).st = .timing ∧ 64 ≤ (getRx s c).timingGood then
    rxEnter c .equalise (updRx c (fun r => { r with taps := spikeTaps (s.parN 0x4051 c.inst), phase := [] }) s)
  else s

/-- The equaliser has converged: EQUALISE to PILOT; the acquisition timer stops. -/
def eqConverged (c : Line) (s : State) : State :=
  if (getRx s c).st = .equalise ∧ 64 ≤ (getRx s c).cmaGood then
    rxEnter c .pilot (updRx c (fun r => { r with timer := none }) s)
  else s

/-- 5,000 ticks in TIMING. -/
def timingTimeout (c : Line) (s : State) : State :=
  if (getRx s c).st = .timing ∧ 5000 ≤ s.elapsed - (getRx s c).since then nextCandidate c s else s

/-- 15,000 ticks in EQUALISE. -/
def equaliseTimeout (c : Line) (s : State) : State :=
  if (getRx s c).st = .equalise ∧ 15000 ≤ s.elapsed - (getRx s c).since then nextCandidate c s else s

/-- In PILOT the equaliser loses convergence. -/
def convergenceLost (c : Line) (s : State) : State :=
  if (getRx s c).st = .pilot ∧ (getRx s c).convLost then nextCandidate c s else s

/-- The starting mode (R135), and its source for RX_STATUS. -/
def startingMode (s : State) (c : Line) : RxMode × Nat :=
  let r := getRx s c
  let i := c.inst
  let want : RxMode := {
    const := s.parN 0x4001 i, k := s.parN 0x4002 i, roll := s.parN 0x4003 i, rate := s.parN 0x4004 i }
  match r.leftAt with
  | some t => if s.elapsed ≤ t + r.cdHold * tps then (r.heldMode, 1) else (want, 0)
  | none => (want, 0)

/-- The alignment sequence found at the same position in 3 consecutive ticks: PILOT to TRACKING. -/
def fasLock (c : Line) (s : State) : State :=
  let r := getRx s c
  if r.st = .pilot ∧ 3 ≤ r.fasRun then
    let (m, src) := startingMode s c
    let s := rxEnter c .tracking (updRx c (fun r => { r with
      mode := m, starts := r.starts.map fun x => { x with mode := m }, modeSrc := src, lastAcq := s.tick, acqTime := s.elapsed - r.acqStart, noConv := 0 }) s)
    raise (lineEvt 0x40 c 0) (bump (rxCnt c 0) s)
  else s

/-- The acquisition timer reaches RX_ACQ_TIMEOUT (R153), after the other transitions of the tick. -/
def acqTimeout (c : Line) (s : State) : State :=
  let r := getRx s c
  match r.timer with
  | none => s
  | some t =>
    if (r.st = .cdScan ∨ r.st = .timing ∨ r.st = .equalise) ∧ t + s.parN 0x4011 c.inst ≤ s.elapsed then
      raise (lineEvt 0x40 c 3) (bump (rxCnt c 2)
        (enterScan c (startTimer c (updRx c (fun r => { r with acqStart := s.elapsed }) s))))
    else s

/-- May a transition that stops the acquisition timer still come in this tick: the equaliser's 64th good tick, or the 8th without
light? -/
def mayStopTimer (s : State) (c : Line) : Bool :=
  let r := getRx s c
  7 ≤ r.below || r.st == .equalise && 63 ≤ r.cmaGood

/-- The reason for which a receiver in TRACKING loses lock now, 0 for none (R153): pilot SNR, frequency, divergence. -/
def lossReason (s : State) (c : Line) : Nat :=
  let r := getRx s c
  if r.st ≠ .tracking then 0
  else if s.parN 0x4013 c.inst ≤ r.snrLow then 1
  else if r.freqBad then 2
  else if r.diverged then 3 else 0

/-- Lock is lost: TRACKING to TIMING with the CD held. -/
def lockLoss (c : Line) (s : State) : State :=
  let why := lossReason s c
  if why = 0 then s
  else
    let s := startTimer c (updRx c (fun r => { r with acqStart := s.elapsed, held := true, cands := [] })
      (leaveTracking c why s))
    enterTiming c (heldValue s c) s

/-- RX_ACQUIRE executes, or another disruptive receive change restarts acquisition (R153, R156): `full` forces a
scan. -/
def acquireNow (c : Line) (full : Bool) (s : State) : State :=
  let r := getRx s c
  if r.st = .off then s
  else
    let s := leaveTracking c 5 s
    let s := startAcq c (!full) s
    raiseIf (r.st == .signal && r.light) (lineEvt 0x40 c 2) s

/-- A disruptive receive change restarts acquisition; a receiver in SIGNAL stays there (R156). -/
def restartAcq (c : Line) (s : State) : State :=
  if (getRx s c).st = .signal then s else acquireNow c false s

/-- 256 consecutive frames without a converged codeword (R137): the mode to return to waits for the next frame boundary. -/
def modeRevert (c : Line) (s : State) : State :=
  let r := getRx s c
  if r.st = .tracking ∧ 256 ≤ r.noConv then
    let i := c.inst
    let want : RxMode := {
      const := s.parN 0x4001 i, k := s.parN 0x4002 i, roll := s.parN 0x4003 i, rate := s.parN 0x4004 i }
    raise (lineEvt 0x40 c 7) (updRx c (fun r =>
      { r with modeDue := if r.mode = want then r.modeDue else some (want, 3), noConv := 0 }) s)
  else s

/-- Every transition that is due, the acquisition timeout last (R153). DESIGN CHOICE: the specification does not say which of
several due in one tick is taken first; the order here is signal, scan, timing, equaliser, lock. -/
def rxDue (c : Line) (s : State) : State :=
  acqTimeout c (modeRevert c (lockLoss c (fasLock c (convergenceLost c (equaliseTimeout c (eqConverged c
    (timingTimeout c (timingLocked c (cdScanDone c (signalLost c (signalPresent c s)))))))))))

/-! ## One tick of the receive DSP -/

/-- Engines the nonlinear compensation needs (R148). -/
def nlcNeed (v : View) (c : Line) : Nat := (v.parN 0x4000 c.inst * v.parN 0x4073 c.inst + 204799) / 204800

/-- The states in which a measure is valid (R157). -/
def measureValid (st : RxSt) (nlcOn : Bool) (pid : Nat) : Bool :=
  match pid with
  | 0x4200 | 0x420C | 0x420D | 0x420E => st != .off
  | 0x4201 => st != .off && st != .signal
  | 0x4204 | 0x4206 | 0x4208 => st == .pilot || st == .tracking
  | 0x4205 => st == .timing || st == .equalise || st == .pilot || st == .tracking
  | 0x420A => st == .tracking && nlcOn
  | 0x420B => true
  | _ => st == .tracking

/-- The measures that the estimators bring once per epoch (R157). -/
def epochMeasures : List Nat := [0x4202, 0x4203, 0x4207, 0x4209, 0x420A]

/-- The value of a receive measure; 0x8000_0000 outside its states (R157). In CD_SCAN, RX_CD_EST is the candidate's
value. -/
def measure (s : State) (pid inst : Nat) : Nat :=
  let c := lineOf (if inst < 16 then inst else inst / 16)
  let r := getRx s c
  if !measureValid r.st (s.parN 0x4070 c.inst != 0) pid then 0x80000000
  else if pid = 0x420B then nlcNeed s.params c
  else if pid = 0x4201 ∧ r.st = .cdScan then ux 32 r.cdFilter
  else ux 32 (SMap.get 0 r.meas (pkey pid inst))

/-- Note measures. -/
def putMeas (c : Line) (l : List (Nat × Int)) (s : State) : State :=
  updRx c (fun r => { r with meas := l.foldl (fun m x => SMap.put 0 m x.1 x.2) r.meas }) s

/-- Move a value by at most `k` toward a residual. -/
def nudge (v res : Int) (k : Nat) : Int := v + clampI (-k) k res

/-- The once-per-epoch adaptation: front-end values by at most one unit (R138); in TRACKING with RX_CD_TRACK the CD filter by
at most 20 ps/nm, which the filter and the taps follow at the next frame boundary (R141). What is in force at the epoch's end is what the measures then
report (R157). -/
def rxEpoch (c : Line) (i : RxIn) (s : State) : State :=
  let step (m : SMap Int) (x : Nat × Int) : SMap Int := SMap.put 0 m x.1 (nudge (SMap.get 0 m x.1) x.2 1)
  let s := if s.parN 0x4030 c.inst = 1 then updRx c (fun r => { r with fe := i.feResidual.foldl step r.fe }) s else s
  let s := if (getRx s c).st ≠ .tracking then s
    else updRx c (fun r =>
      let v := if r.cdTrack then clampI (-160000) 160000 (nudge r.cdFilter i.cdResidual 20) else r.cdFilter
      { r with cdFilter := v, cdResidual := i.cdResidual - (v - r.cdFilter) }) s
  let r := getRx s c
  putMeas c ((pkey 0x4201 c.inst, r.cdFilter + r.cdResidual)
    :: (feSettings c).map fun x => (pkey x.2.1 x.2.2, SMap.get 0 r.fe (pkey x.2.1 x.2.2))) s

/-- The cycle slips of a tick (R147): each is counted, the payload positions they erase too. -/
def rxSlips (c : Line) (s : State) : State :=
  let n := (getRx s c).slips
  let k := (getRx s c).lost
  if n = 0 then s
  else
    let s := bumpBy (rxCnt c 3) n s
    let s := if k = 0 then s else bumpBy (rxCnt c 4) k s
    if (getRx s c).slipTick = some s.elapsed then s
    else raise (lineEvt 0x40 c 4) (updRx c (fun r => { r with slipTick := some s.elapsed }) s)

/-- The polarisation rules of R144 and R145 on the tick's RX_SOP_RATE, which is measured wherever the equaliser runs. DESIGN CHOICE:
the ticks that count as quiet are those in PILOT and TRACKING, and at reset 500 of them count as passed; the specification says
neither. -/
def rxSop (c : Line) (s : State) : State :=
  let r := getRx s c
  let s := if r.st = .equalise then putMeas c [(pkey 0x4204 c.inst, r.sop)] s else s
  if !(measureValid r.st false 0x4204) then s
  else
    let alarm := s.parN 0x4054 c.inst
    let boost := if s.parN 0x4053 c.inst = 1 then b2n (5000 < r.sop) + b2n (12500 < r.sop) else 0
    let s := putMeas c [(pkey 0x4204 c.inst, r.sop)] s
    if alarm < r.sop then
      raiseIf (500 ≤ r.sopQuiet) (lineEvt 0x40 c 6)
        (bump (rxCnt c 6) (updRx c (fun r => { r with sopQuiet := 0, muShift := boost }) s))
    else updRx c (fun r => { r with sopQuiet := min 500 (r.sopQuiet + 1), muShift := boost }) s

/-- The tick's frame is demapped without correction (R149): the tick is counted, NLC_SKIPPED raised at most once per
epoch. -/
def nlcSkip (c : Line) (s : State) : State :=
  let s := bump (rxCnt c 5) s
  if (getRx s c).nlcEpoch = some (s.tick / 500) then s
  else raise (lineEvt 0x40 c 5) (updRx c (fun r => { r with nlcEpoch := some (s.tick / 500) }) s)

/-- A carrier's input power: the mean of its lanes. DEDUCED: R153 speaks of one input power where R157 measures it by lane. -/
def inPower (i : RxIn) : Int := i.powers.foldl (· + ·) 0 / (max 1 i.powers.length : Nat)

/-- What the receive DSP's estimators find in a tick: counts of consecutive ticks for the state machine, measures. -/
def rxTick (c : Line) (i : RxIn) (s : State) : State :=
  let s := updRx c (fun r => { r with measTick := s.tick }) s
  if (getRx s c).st = .off then s
  else
    let thr := s.parI 0x4010 c.inst
    let power := inPower i
    let s := scanTick c i.tone (updRx c (fun r => { r with
      light := thr ≤ power,
      above := if thr ≤ power then r.above + 1 else 0,
      below := if power < thr - 20 then r.below + 1 else 0,
      cmaGood := if r.st = .equalise ∧ i.cmaOk then r.cmaGood + 1 else 0,
      snrLow := if r.st = .tracking ∧ i.snr < 10 * (s.parN 0x4012 c.inst : Int) then r.snrLow + 1 else 0,
      diverged := i.diverged,
      convLost := i.convLost }) s)
    let s := putMeas c ((lanesOf c).zip i.powers |>.map fun x => (pkey 0x4200 x.1, x.2)) s
    let s := putMeas c [(pkey 0x4208 c.inst, i.snr)] s
    let epoch : Bool := s.tick % 500 == 499
    let s := if epoch then putMeas c (i.measures.filter fun x => epochMeasures.contains (x.1 / 256)) s else s
    let s := if epoch then rxEpoch c i s else s
    if i.satAdc = 0 then s else bumpBy (rxCnt c 7) i.satAdc s

/-- What the signal path of a tick shows the state machine: timing locked or not, clock and frequency offset, slips (R142, R146, R147,
R157). -/
def rxAfter (c : Line) (s : State) : State :=
  let timed : Bool := measureValid (getRx s c).st false 0x4205
  let s := updRx c (fun r => { r with
    timingGood := if timed && r.tr.good then r.timingGood + 1 else 0,
    freqBad := r.st == .tracking && decide (r.freq < -60000 ∨ 60000 < r.freq) }) s
  let r := getRx s c
  rxSlips c (putMeas c [(pkey 0x4205 c.inst, (-r.tr.rate * 1000000000).floor), (pkey 0x4206 c.inst, r.freq.floor)] s)

/-- The alignment sequence in a tick: in PILOT, the tick of its entry included, the run of detections at one position
(R153, R198); a tick in which the sequence could not end neither adds nor breaks. -/
def fasTick (c : Line) (s : State) : State :=
  updRx c (fun r =>
    let a := r.align
    if r.st = .pilot ∧ a.found.isNone ∧ !a.due then r
    else { r with
      fasRun := if r.st = .pilot ∧ a.found.isSome then (if a.found = r.fasPos then r.fasRun + 1 else 1) else 0,
      fasPos := a.found }) s

/-! ## Commands (R162) -/

/-- RX_STATUS. -/
def infoRxStatus : CmdInfo := { op := 0x0400, carriers := [1, 2], len := .fixed 16, desc := true }
/-- RX_ACQUIRE. -/
def infoRxAcquire : CmdInfo := { op := 0x0401, timed := true, carriers := [1, 2, 3], len := .fixed 1 }
/-- RX_MEASURE. -/
def infoRxMeasure : CmdInfo := { op := 0x0402, carriers := [1, 2], len := .fixed 16, desc := true }
/-- RX_TAP_DUMP. -/
def infoRxTapDump : CmdInfo := { op := 0x4400, carriers := [1, 2], len := .fixed 16, desc := true }
/-- RX_CAPTURE. -/
def infoRxCapture : CmdInfo := { op := 0x4401, timed := true, carriers := [1, 2], len := .fixed 24, desc := true }

/-- The code of a receiver state (RX_STATUS). -/
def rxCode : RxSt → Nat
  | .off => 0
  | .signal => 1
  | .cdScan => 2
  | .timing => 3
  | .equalise => 4
  | .pilot => 5
  | .tracking => 6

/-- The signal indication (R155). -/
def signalInd (s : State) (c : Line) : Bool := (getRx s c).st != .off && (getRx s c).st != .signal

/-- The lock indication (R155). -/
def lockInd (s : State) (c : Line) : Bool := (getRx s c).st == .pilot || (getRx s c).st == .tracking

/-- The 48 bytes of RX_STATUS. -/
def rxStatusBytes (s : State) (c : Line) : Bytes :=
  let r := getRx s c
  [byteOf (rxCode r.st), byteOf r.reason, byteOf (b2n (signalInd s c)), byteOf r.modeSrc]
    ++ le 4 (s.parN 0x4000 c.inst) ++ [byteOf r.mode.const, 0] ++ le 2 r.mode.k
    ++ [byteOf r.mode.rate, byteOf r.mode.roll] ++ zeros 2 ++ le 8 r.lastAcq ++ le 8 r.lastLoss ++ le 4 r.acqTime
    ++ le 4 (ux 32 r.cdFilter) ++ le 4 r.engines ++ zeros 4

/-- The 104 bytes of RX_MEASURE. -/
def rxMeasureBytes (s : State) (c : Line) : Bytes :=
  let at_ (pid : Nat) (is : List Nat) : Bytes := is.flatMap fun i => le 4 (measure s pid i)
  le 8 (getRx s c).measTick ++ at_ 0x4200 (lanesOf c) ++ ((List.range 11).flatMap fun i => at_ (0x4201 + i) [c.inst])
    ++ at_ 0x420C (lanesOf c) ++ at_ 0x420D (polsOf c) ++ at_ 0x420E (polsOf c) ++ zeros 4

/-- The parameter checks of RX_CAPTURE. -/
def chkRxCapture (p : Packet) (_ : State) : Option Refuse :=
  let b := paramBytes p
  firstOf [need (byteAt b 16 ≤ 2) (badParam 16), need (rsv b 17 20) (badParam 17),
    need (1 ≤ fld b 20 4 && fld b 20 4 ≤ 65536) (badParam 20)]

/-- RX_CAPTURE begins to wait for its data (R162). -/
def captureOpen (p : Packet) (s : State) : State :=
  let b := paramBytes p
  updRx (pktLine p) (fun r => { r with
    caps := r.caps ++ [{ owner := packetKey p, point := byteAt b 16, n := fld b 20 4 }] }) s

/-- A tap as RX_TAP_DUMP gives it: 16 bits, 1/8,192. -/
def tapWord (x : Rat) : Bytes := le 2 (ux 16 (clampI (-32768) 32767 (roundUpHalf (8192 * x))))

/-- The result of RX_TAP_DUMP (R162): the tick, the mode and length under which the equaliser works, its taps. In mode 0 the filter from
polarisation q to p has the real part of row 2p, column 2q and the imaginary part of the row below. -/
def tapBytes (s : State) (c : Line) : Bytes :=
  let t := (getRx s c).cfg.taps
  let m := (getRx s c).cfg.mimo
  let taps := (getRx s c).taps
  let tap (f k : Nat) : Bytes := tapWord ((taps.getD f []).getD k 0)
  let body := if m = 0 then
      [(0, 0), (0, 1), (1, 0), (1, 1)].flatMap fun (x : Nat × Nat) =>
        (List.range t).flatMap fun k => tap (8 * x.1 + 2 * x.2) k ++ tap (8 * x.1 + 4 + 2 * x.2) k
    else (List.range 16).flatMap fun f => (List.range t).flatMap (tap f)
  le 8 s.tick ++ [byteOf m, byteOf t] ++ zeros 6 ++ body

end Sys2Proof.Machine
end

