-- ==== Sys2Proof/Machine/Ldpc.lean ====
section
/-! DEFINITION. Ldpc.lean: the code family (R165 to R168), its encoder, and the layered offset min-sum decoder (R170). -/
namespace Sys2Proof.Machine

/-- Row blocks r of a code-rate code (R165). -/
def rowBlocks (rate : Nat) : Nat := match rate with
  | 0 => 15
  | 1 => 12
  | _ => 10

/-- Information columns K_b. -/
def infoCols (rate : Nat) : Nat := 60 - rowBlocks rate

/-- Information bits R × n. -/
def infoBits (rate : Nat) : Nat := 512 * infoCols rate

/-- The shift of entry k of information column c (R166). -/
def infoShift (c k : Nat) : Nat :=
  32 * ((3 * c + 5 * k + 1) % 16) + (7 * c + 13 * (if k = 0 ∨ k = 5 then 0 else 1) + 3) % 32

/-- The base matrix as its entries (row block, column block, shift) (R166). -/
def baseEntries (rate : Nat) : List (Nat × Nat × Nat) :=
  let r := rowBlocks rate
  let kb := infoCols rate
  ((List.range kb).flatMap fun c => [0, 1, 5, 6].map fun k => ((c + k) % r, c, infoShift c k))
    ++ ((List.range (r - 1)).flatMap fun p => [(p, kb + p, 0), (p + 1, kb + p, 0)])
    ++ [(r - 1, 59, 0), (0, 59, 32)]

/-- The entries of one row block as (column block, shift). -/
def rowEntries (rate b : Nat) : List (Nat × Nat) :=
  ((baseEntries rate).filter fun e => e.1 == b).map fun e => e.2

/-- The codeword bits of check b × 512 + x (R166). -/
def checkBits (rate b x : Nat) : List Nat := (rowEntries rate b).map fun e => e.1 * 512 + (x + e.2) % 512

/-- Is the syndrome of a word 0? -/
def syndromeZero (rate : Nat) (w : Array Bool) : Bool :=
  (List.range (rowBlocks rate)).all fun b => (List.range 512).all fun x =>
    !((checkBits rate b x).foldl (fun p j => p ^^ w.getD j false) false)

/-- One bit of the codeword CRC register (polynomial 0x1EDC_6F41, most significant first). -/
def cwCrcBit (c : Nat) (b : Bool) : Nat :=
  let t := c.testBit 31 ^^ b
  if t then ((2 * c) % 2 ^ 32) ^^^ 0x1EDC6F41 else (2 * c) % 2 ^ 32

/-- The codeword CRC over the information bits (R167): preset to all ones, complemented. -/
def cwCrc (bits : List Bool) : Nat := (bits.foldl cwCrcBit 0xFFFFFFFF) ^^^ 0xFFFFFFFF

/-- The CRC a word carries in bits 30,208 to 30,239, x^31 first (R167). -/
def crcField (w : Array Bool) : Nat :=
  (List.range 32).foldl (fun n i => 2 * n + b2n (w.getD (30208 + i) false)) 0

/-- Is a word's CRC correct? -/
def crcOk (rate : Nat) (w : Array Bool) : Bool :=
  cwCrc ((List.range (infoBits rate)).map fun i => w.getD i false) == crcField w

/-! ## Encoding -/

/-- The sum of the information bits that meet check x of row block b: what the parity bits must balance. -/
def infoSum (rate : Nat) (info : Array Bool) (b x : Nat) : Bool :=
  ((rowEntries rate b).filter fun e => e.1 < infoCols rate).foldl
    (fun p e => p ^^ info.getD (e.1 * 512 + (x + e.2) % 512) false) false

/-- The codeword with the given information bits (R167). Summing the row blocks leaves bit x of column block 59 plus its
bit x + 32, so that block follows from its first 32 bits, the CRC; the other parity blocks follow row by row. -/
def ldpcEncode (rate : Nat) (info : List Bool) : List Bool :=
  let inf := info.toArray
  let r := rowBlocks rate
  let crc := cwCrc info
  let total := ((List.range 512).map fun x =>
    (List.range r).foldl (fun p b => p ^^ infoSum rate inf b x) false).toArray
  let last := (List.range 480).foldl (fun (a : Array Bool) x => a.push (a.getD x false ^^ total.getD x false))
    ((List.range 32).map fun i => crc.testBit (31 - i)).toArray
  let step (acc : List (Array Bool)) (b : Nat) : List (Array Bool) :=
    let prev := acc.getD (acc.length - 1) #[]
    acc ++ [((List.range 512).map fun x =>
      infoSum rate inf b x ^^ (if b = 0 then last.getD ((x + 32) % 512) false else prev.getD x false)).toArray]
  let par := (List.range (r - 1)).foldl step []
  info ++ par.flatMap (·.toList) ++ last.toList

/-! ## Decoding -/

/-- Saturate to ±127. -/
def sat127 (v : Int) : Int := clampI (-127) 127 v

/-- Saturate to ±31. -/
def sat31 (v : Int) : Int := clampI (-31) 31 v

/-- The sign of R170: sign(0) is +1. -/
def sgn (v : Int) : Int := if v < 0 then -1 else 1

/-- The decoder's working values: a-posteriori values by bit, messages by check in the order of its bits. -/
structure Bp where
  l : Array Int
  m : Array (List Int)

/-- The start of a decoding: L := llr_in, M := 0. -/
def bpStart (rate : Nat) (llr : List Int) : Bp :=
  { l := llr.toArray, m := Array.replicate (512 * rowBlocks rate) [] }

/-- The new messages of one check from its t values (R170). -/
def checkMessages (off : Nat) (ts : List Int) : List Int :=
  (List.range ts.length).map fun j =>
    let others := ts.eraseIdx j
    let least := others.foldl (fun (b : Option Nat) t => some (match b with
      | none => t.natAbs
      | some x => min x t.natAbs)) none
    let mag := least.getD 0 - off
    sat31 (others.foldl (fun p t => p * sgn t) 1 * (mag : Int))

/-- One check of a layer. -/
def bpCheck (rate off b : Nat) (s : Bp) (x : Nat) : Bp :=
  let js := checkBits rate b x
  let old := s.m.getD (512 * b + x) []
  let ts := js.zipIdx.map fun (j : Nat × Nat) => sat127 (s.l.getD j.1 0 - old.getD j.2 0)
  let new := checkMessages off ts
  { l := (js.zip (ts.zip new)).foldl (fun l (e : Nat × Int × Int) => l.set! e.1 (sat127 (e.2.1 + e.2.2))) s.l,
    m := s.m.set! (512 * b + x) new }

/-- One iteration: row blocks in order. -/
def bpIterate (rate off : Nat) (s : Bp) : Bp :=
  (List.range (rowBlocks rate)).foldl (fun s b => (List.range 512).foldl (bpCheck rate off b) s) s

/-- Hard decisions: positive favours 0. -/
def bpHard (s : Bp) : Array Bool := s.l.map fun v => v < 0

/-- Have the decisions converged: syndrome 0 and CRC correct? -/
def bpConverged (rate : Nat) (s : Bp) : Bool :=
  let h := bpHard s
  syndromeZero rate h && crcOk rate h

/-- The LLRs of a re-decode: three quarters, rounded toward 0 (R172). -/
def redecodeLlr (llr : List Int) : List Int := llr.map fun v => (3 * v).tdiv 4

/-- The bits a decoding corrected against the channel's hard decisions. -/
def correctedBits (llr : List Int) (h : Array Bool) : Nat :=
  (llr.zipIdx.filter fun (v : Int × Nat) => (decide (v.1 < 0)) != h.getD v.2 false).length

end Sys2Proof.Machine
end

