-- ==== Sys2Proof/Machine/Waveform.lean ====
section
/-! DEFINITION. Waveform.lean: from a frame's bits to its symbols and back (R107 to R112, R151, R168): labels, distribution
matcher, the symbols of a frame, LLRs. -/
namespace Sys2Proof.Machine

/-- Amplitude bits per real dimension: 0, 1 or 2 (R107). -/
def ampBits (const : Nat) : Nat := min const 2

/-- The amplitude of a label's amplitude bits, most significant first (R107). -/
def amplitude (const : Nat) (bits : List Bool) : Nat :=
  match const, bits with
  | 0, _ => 1
  | 1, b :: _ => if b then 3 else 1
  | _, [false, false] => 1
  | _, [false, true] => 3
  | _, [true, true] => 5
  | _, [true, false] => 7
  | _, _ => 1

/-- The amplitude label of an amplitude (R107). -/
def ampLabel (const a : Nat) : List Bool :=
  match const with
  | 0 => []
  | 1 => [a == 3]
  | _ => match a with
    | 1 => [false, false]
    | 3 => [false, true]
    | 5 => [true, true]
    | _ => [true, false]

/-! ## The distribution matcher (R108) -/

/-- n! -/
def fact : Nat → Nat
  | 0 => 1
  | n + 1 => (n + 1) * fact n

/-- The number of sequences of a composition. -/
def sequences (c : List Nat) : Nat := fact (c.foldl (· + ·) 0) / (c.map fact).foldl (· * ·) 1

/-- The energy of a composition (n1, n3, n5, n7). -/
def energy (c : List Nat) : Nat := c.getD 0 0 + 9 * c.getD 1 0 + 25 * c.getD 2 0 + 49 * c.getD 3 0

/-- Is composition `x` to be taken before `y`: less energy, then larger n1, n3, n5? -/
def before (x y : List Nat) : Bool :=
  let k (c : List Nat) := (energy c, 10240 - c.getD 0 0, 10240 - c.getD 1 0, 10240 - c.getD 2 0)
  let (a, b, d, e) := k x
  let (a', b', d', e') := k y
  a < a' || (a == a' && (b < b' || (b == b' && (d < d' || (d == d' && e < e')))))

/-- D_w, the bits that enter the matcher per codeword. -/
def matcherBits (k : Nat) : Nat := 80 * k - 10240

/-- The compositions of 10,240 amplitudes with at least 2^D_w sequences. -/
def compositions (k : Nat) : List (List Nat) :=
  (List.range 10241).flatMap fun n1 => (List.range (10241 - n1)).flatMap fun n3 =>
    ((List.range (10241 - n1 - n3)).map fun n5 => [n1, n3, n5, 10240 - n1 - n3 - n5]).filter fun c =>
      2 ^ matcherBits k ≤ sequences c

/-- The composition c_k of R108. -/
def composition (k : Nat) : List Nat :=
  ((compositions k).foldl (fun (b : Option (List Nat)) c =>
    some (match b with
      | none => c
      | some x => if before c x then c else x)) none).getD [10240, 0, 0, 0]

/-- The number a list of bits spells, first bit most significant. -/
def bitsNum (bs : List Bool) : Nat := bs.foldl (fun n b => 2 * n + b2n b) 0

/-- `w` bits of a number, most significant first. -/
def numBits (w n : Nat) : List Bool := (List.range w).map fun i => n.testBit (w - 1 - i)

/-- The sequence of index `v` among those of composition `c` in lexicographic order, 1 < 3 < 5 < 7 (R108). -/
def unrank : Nat → List Nat → Nat → List Nat
  | 0, _, _ => []
  | len + 1, c, v =>
    let pick := (List.range 4).foldl (fun (r : Option (Nat × Nat) × Nat) i =>
      match r.1 with
      | some _ => r
      | none =>
        let m := if c.getD i 0 = 0 then 0 else sequences (c.modify i (· - 1))
        if r.2 < m then (some (i, r.2), 0) else (none, r.2 - m)) (none, v)
    match pick.1 with
    | none => []
    | some (i, v') => (2 * i + 1) :: unrank len (c.modify i (· - 1)) v'

/-- The rank of an amplitude sequence, the receiver's inverse (R108). -/
def rank : List Nat → List Nat → Nat
  | _, [] => 0
  | c, a :: as =>
    let i := a / 2
    ((List.range i).map fun j => if c.getD j 0 = 0 then 0 else sequences (c.modify j (· - 1))).foldl (· + ·) 0
      + rank (c.modify i (· - 1)) as

/-- A codeword's information bits from the frame's bits it carries (R108): matched amplitude labels and then the
information sign bits; without shaping the bits as they are. -/
def wordInfo (m : Mode) (bs : List Bool) : List Bool :=
  if m.const = 2 then
    let d := matcherBits m.k
    let amps := unrank 10240 (composition m.k) (bitsNum (bs.take d))
    amps.flatMap (ampLabel 2) ++ bs.drop d
  else bs

/-- The label bits of codeword `w` in transmission order: for each real dimension of its positions, sign then amplitude
bits (R107, R168). -/
def wordLabels (m : Mode) (bs : List Bool) : List Bool :=
  let info := wordInfo m bs
  let cw := ldpcEncode m.rate info
  let nb := ampBits m.const
  let dims := 30720 / (nb + 1)
  let amp := info.take (dims * nb)
  let signs := (cw.drop info.length) ++ info.drop (dims * nb)
  (List.range dims).flatMap fun i => [signs.getD i false] ++ (amp.drop (i * nb)).take nb

/-! ## Shift registers -/

/-- A Fibonacci register of `w` bits with taps `w` and `t` counted from 1: the output bit and the next register (R110). DESIGN
CHOICE: the specification does not say which bit is the output; here it is the bit that leaves at the top before the
shift. -/
def lfsrStep (w t reg : Nat) : Bool × Nat :=
  let out := reg.testBit (w - 1)
  (out, (2 * reg) % 2 ^ w + b2n (out ^^ reg.testBit (t - 1)))

/-- `n` output bits of a register. -/
def lfsrBits (w t : Nat) : Nat → Nat → List Bool
  | 0, _ => []
  | n + 1, reg => let (b, r) := lfsrStep w t reg; b :: lfsrBits w t n r

/-- The frame alignment sequence of a polarisation (R110), X first. -/
def fasBits (x : Bool) : List Bool :=
  numBits 128 (if x then 0x3C96E15A0FD274B8A56C19E3D02F8B47 else 0x96C35AE1D20FB8746CA5E3192FD0478B)

/-- The bits of the N / 64 pilot positions of a frame: the alignment sequence, then the pilot sequence (R109, R110). -/
def pilotBits (n : Nat) (x : Bool) : List Bool :=
  fasBits x ++ lfsrBits 23 18 (2 * (n / 64 - 64)) (if x then 0x2A5F3C else 0x51B0E6)

/-- Coded fill: the register x^31 + x^28 + 1 restarted with all ones at each frame (R112). DESIGN CHOICE: the specification
does not say which bit of the register is its output; here it is the bit that leaves at the top before the shift. -/
def fillBits (n : Nat) : List Bool := lfsrBits 31 28 n (2 ^ 31 - 1)

/-- The coded label bits of a whole frame from its information bits (R108, R112). -/
def frameLabels (m : Mode) (info : List Bool) : List Bool :=
  ((List.range m.codewords).flatMap fun w => wordLabels m ((info.drop (w * m.perWord)).take m.perWord))
    ++ fillBits m.codedFill

/-! ## The symbols of a frame (R109 to R112) -/

/-- The value of a real dimension from its label, sign bit first (R107). -/
def dimValue (const : Nat) : List Bool → Rat
  | [] => 0
  | sign :: amp => if sign then -(amplitude const amp : Rat) else amplitude const amp

/-- A list cut into pieces of `k`. -/
def piecesOf {α : Type} (k : Nat) : Nat → List α → List (List α)
  | 0, _ => []
  | n + 1, l => l.take k :: piecesOf k n (l.drop k)

/-- The payload symbols of a frame from its label bits, each XI, XQ, YI, YQ (R107, R109). -/
def payloadSymbols (m : Mode) (labels : List Bool) : List (List Rat) :=
  let dims := (piecesOf (ampBits m.const + 1) (4 * m.payload) labels).map (dimValue m.const)
  piecesOf 4 m.payload dims

/-- The mean energy of a real dimension of the payload (R111). DESIGN CHOICE: the mean is that of the shaped or uniform payload
symbols; the uniform symbols that a shaped frame's coded fill makes are left out (log entry 189). -/
def meanEnergy (m : Mode) : Rat :=
  match m.const with
  | 0 => 1
  | 1 => 5
  | _ => (energy (composition m.k) : Rat) / 10240

/-- The pilot amplitude a: pilot power is the mean payload power raised by TX_PILOT_BOOST, in 0.25 dB (R111). -/
def pilotAmp (m : Mode) (boost : Nat) : Rat :=
  rootOf (meanEnergy m * pow10 ((boost : Rat) / 40))

/-- A pilot bit as a value (R110). -/
def pilotValue (a : Rat) (b : Bool) : Rat := if b then -a else a

/-- The pilot symbols of a frame in order, each XI, XQ, YI, YQ (R109, R110): b1 gives I, b0 gives Q. -/
def pilotSymbols (n : Nat) (a : Rat) : List (List Rat) :=
  ((piecesOf 2 (n / 64) (pilotBits n true)).zip (piecesOf 2 (n / 64) (pilotBits n false))).map fun p =>
    (p.1 ++ p.2).map (pilotValue a)

/-- Pilots and payload as they leave: before every 63 payload symbols one pilot (R109). -/
def framed : List (List Rat) → List (List Rat) → List (List Rat)
  | [], _ => []
  | p :: ps, pay => p :: (pay.take 63 ++ framed ps (pay.drop 63))

/-- The symbols of a frame from its information bits. -/
def frameSymbols (m : Mode) (boost : Nat) (info : List Bool) : List (List Rat) :=
  framed (pilotSymbols m.n (pilotAmp m boost)) (payloadSymbols m (frameLabels m info))

/-! ## From a codeword's information bits back to the frame's (R108) -/

/-- The frame bits that a codeword's information bits carry: the rank of its amplitudes, then the information sign bits. -/
def wordFrameBits (m : Mode) (info : List Bool) : List Bool :=
  if m.const = 2 then
    let amps := (piecesOf 2 10240 info).map (amplitude 2)
    numBits (matcherBits m.k) (rank (composition m.k) amps) ++ info.drop 20480
  else info

/-! ## The soft demapper (R151) -/

/-- The signed amplitudes of a real dimension with their labels, sign bit first. -/
def points (const : Nat) : List (Int × List Bool) :=
  let amps : List Nat := match const with
    | 0 => [1]
    | 1 => [1, 3]
    | _ => [1, 3, 5, 7]
  amps.flatMap fun (a : Nat) => [((a : Int), false :: ampLabel const a), (-(a : Int), true :: ampLabel const a)]

/-- The metric of a point: (y − a)² / (2 s2) − ln p(a), none for an amplitude that the composition does not hold; the
uniform prior drops out. -/
def metric (const : Nat) (comp : List Nat) (y s2 : Rat) (a : Int) : Option Rat :=
  let d := y - a
  let n := comp.getD (a.natAbs / 2) 0
  if const ≠ 2 then some (d * d / (2 * s2))
  else if n = 0 then none
  else some (d * d / (2 * s2) - lnRatio n 20480)

/-- The least of a list of rationals, none of none. -/
def leastRat : List Rat → Option Rat
  | [] => none
  | x :: xs => some (xs.foldl min x)

/-- The LLR of a label bit from the least metrics with it 0 and with it 1. -/
def llrOf (scale : Nat) (m0 m1 : Option Rat) : Int :=
  match m0, m1 with
  | some a, some b => clampI (-31) 31 (roundUpHalf ((scale : Rat) * (b - a) / 16))
  | some _, none => 31
  | none, some _ => -31
  | none, none => 0

/-- The LLRs of one real dimension's label bits. -/
def dimLlr (const : Nat) (comp : List Nat) (scale : Nat) (s2 y : Rat) : List Int :=
  (List.range (ampBits const + 1)).map fun i =>
    let side (v : Bool) := leastRat (((points const).filter fun pt => pt.2.getD i false == v).filterMap fun pt =>
      metric const comp y s2 pt.1)
    llrOf scale (side false) (side true)

/-- The payload positions of a frame: its symbols without the pilots, each with whether its LLRs are erased, `erase` being
the pilots before which they are (R109, R147). -/
def payloadOf (f : RxFrame) : List (List Rat × Bool) :=
  (f.syms.zipIdx.filter fun x => x.2 % 64 != 0).map fun x => (x.1, f.erase.contains (x.2 / 64 + 1))

/-- The LLRs of codeword `w` of a frame by bit index (R151, R168): amplitude labels carry the first information bits, signs
the parity and CRC bits and then the other information bits. -/
def wordLlr (m : Mode) (scale : Nat) (f : RxFrame) (w : Nat) : List Int :=
  let q := 30720 / (2 * m.m)
  let comp := if m.const = 2 then composition m.k else []
  let per := (((payloadOf f).drop (w * q)).take q).flatMap fun p => p.1.map fun y =>
    let l := dimLlr m.const comp scale f.s2 y
    if p.2 then l.map fun _ => 0 else l
  let amp := per.flatMap (·.drop 1)
  let signs := per.map fun l => l.getD 0 0
  let npar := 30720 - infoBits m.rate
  amp ++ signs.drop npar ++ signs.take npar

end Sys2Proof.Machine
end

