-- ==== Sys2Proof/Machine/Fec.lean ====
section
/-! DEFINITION. Fec.lean: the shared decoder pool (group 0x5, R169 to R188). -/
namespace Sys2Proof.Machine

/-- Change the pool. -/
def updFec (f : Fec → Fec) (s : State) : State := { s with fec := f s.fec }

/-- A carrier's decoding. -/
def getFec (s : State) (c : Line) : FecC := match c with
  | .a => s.fec.a
  | .b => s.fec.b

/-- Change a carrier's decoding. -/
def updFecC (c : Line) (f : FecC → FecC) (s : State) : State :=
  updFec (fun x => match c with
    | .a => { x with a := f x.a }
    | .b => { x with b := f x.b }) s

/-- A carrier's batch of the present decode tick, or of the one before. -/
def getBatch (s : State) (c : Line) (old : Bool) : Batch := if old then (getFec s c).prev else (getFec s c).cur

/-- Change a batch of a carrier. -/
def updBatch (c : Line) (old : Bool) (f : Batch → Batch) (s : State) : State :=
  updFecC c (fun x => if old then { x with prev := f x.prev } else { x with cur := f x.cur }) s

/-- Change the common figures of a decode tick. -/
def updPool (old : Bool) (f : PoolRep → PoolRep) (s : State) : State :=
  updFec (fun x => if old then { x with prev := f x.prev } else { x with cur := f x.cur }) s

/-- The first counter of a carrier's list (R188). -/
def fecCnt (c : Line) (n : Nat) : Nat := 320 + 12 * c.ix + n

/-- The cores in the pool: neither disabled, gated nor waiting for the test after an ungating (R181, R182). -/
def activeCores (s : State) : Nat :=
  48 - popcount 48 (s.fec.disabled ||| s.pwr.gatedCores ||| s.fec.untested)

/-- P (R175). -/
def poolCap (s : State) : Nat := 125 * activeCores s

/-- The receive mode as a capacity mode. -/
def rxModeOf (s : State) (c : Line) : Mode :=
  let m := (getRx s c).mode
  { n := s.parN 0x4000 c.inst, const := m.const, k := m.k, rate := m.rate, roll := m.roll }

/-- The codewords of a carrier's batch for its receive mode, none unless its receiver is in TRACKING. -/
def batchWords (s : State) (c : Line) : Nat :=
  if (getRx s c).st = .tracking then (rxModeOf s c).codewords else 0

/-- Raise a carrier's event at most once per tick. -/
def fecOnce (c : Line) (n : Nat) (s : State) : State :=
  if (getFec s c).raised.contains n then s
  else raise (lineEvt 0x50 c n) (updFecC c (fun x => { x with raised := n :: x.raised }) s)

/-! ## Batches (R175, R176, R179) -/

/-- The frames whose first LLRs enter the pool in this tick, each in the receive mode of its frame tick; none of a carrier
that is not in TRACKING (R175, R179). -/
def chargeFrames (c : Line) (s : State) : List DecFrame × State :=
  let r := getRx s c
  let n := s.parN 0x4000 c.inst
  let one (f : RxFrame) : DecFrame :=
    let m : Mode := { n := n, const := f.mode.const, k := f.mode.k, rate := f.mode.rate, roll := f.mode.roll }
    { n := n, mode := f.mode, cws := (List.range m.codewords).map fun w => .waiting (wordLlr m (s.parN 0x4080 c.inst) f w) 0 }
  (if r.st = .tracking then r.frames.map one else [], updRx c (fun r => { r with frames := [] }) s)

/-- A carrier's part of the decode tick that begins, before the shares are known (R176, R179). -/
def newBatch (s : State) (c : Line) (fs : List DecFrame) : Batch := {
  charged := (fs.flatMap (·.cws)).length, rate := ((fs.getLast?.map (·.mode)).getD (getRx s c).mode).rate, tick := s.tick, frames := fs,
  maxIter := s.parN 0x5001 c.inst, redecode := s.parN 0x5004 c.inst == 1, redIter := s.parN 0x5005 c.inst,
  offset := s.parN 0x5100 0, early := s.parN 0x5101 0 == 1, prio := s.parN 0x5003 c.inst }

/-- The commit window of a decode tick: batches are charged, guarantee, lend pool and shares computed, a shortfall or
its end reported (R176, R180). DESIGN CHOICE (log entry 175): a batch draws in two device ticks; drawn(t − 1) is what the carrier drew
in tick t − 1, from the shares of whichever decode tick. -/
def fecWindow (s : State) : State :=
  let s := updFec (fun x => { x with disabled := x.disabled ||| x.leaving, leaving := 0 }) s
  let p := poolCap s
  let (fa, s) := chargeFrames .a s
  let (fb, s) := chargeFrames .b s
  let ba := newBatch s .a fa
  let bb := newBatch s .b fb
  let w := ba.charged + bb.charged
  let g := if p < 6 * w then p / w else 6
  let l := p - g * w
  let share (c : Line) (b : Batch) : Batch :=
    let home := l * s.parN 0x5002 c.inst / 100
    let keep := min home (2 * (getFec s c).drawnLast)
    { b with g := g, home := home, keep := keep, lendable := home - keep, homeLeft := home }
  let put (c : Line) (b : Batch) (s : State) : State := updFecC c (fun x => { x with cur := share c b, raised := [] }) s
  let s := put .b bb (put .a ba s)
  let common := l - (getFec s .a).cur.home - (getFec s .b).cur.home
  let was := s.fec.short
  let now : Bool := g < 6
  let s := updFec (fun x => { x with
    short := now,
    cur := { p := p, cores := activeCores s, g := g, lend := l, common := common, left := common, tick := s.tick } }) s
  if now && !was then raise 0x57 s else if was && !now then raise 0x5E s else s

/-! ## Credits (R177, R178) -/

/-- BORROWING: the carrier draws from the other's home share after 500 or more ticks without doing so (R187). The ticks
before its first draw count from reset. -/
def noteBorrow (c : Line) (s : State) : State :=
  let quiet : Bool := match (getFec s c).borrowAt with
    | none => 500 ≤ s.elapsed
    | some t => t + 501 ≤ s.elapsed
  raiseIf quiet (lineEvt 0x50 c 2) (updFecC c (fun x => { x with borrowAt := some s.elapsed }) s)

/-- A credit of the reserve, for iteration `n` (counted from 0) of a first decoding. -/
def drawReserve (c : Line) (old : Bool) (n : Nat) (s : State) : Option State :=
  if n < (getBatch s c old).g then some (updBatch c old (fun x => { x with reserveUsed := x.reserveUsed + 1 }) s) else none

/-- A credit of the surplus. -/
def drawSurplus (c : Line) (old : Bool) (s : State) : Option State :=
  if 0 < (getBatch s c old).surplus then some (updBatch c old (fun x => { x with surplus := x.surplus - 1 }) s) else none

/-- An iteration drawn from a home share or the common part counts for its decode tick and for the tick it is drawn in. -/
def noteDrawn (c : Line) (old : Bool) (s : State) : State :=
  updFecC c (fun x => { x with drawnNow := x.drawnNow + 1 }) (updBatch c old (fun x => { x with drawn := x.drawn + 1 }) s)

/-- A credit of the carrier's own home share. -/
def drawHome (c : Line) (old : Bool) (s : State) : Option State :=
  if 0 < (getBatch s c old).homeLeft then
    some (noteDrawn c old (updBatch c old (fun x => { x with homeLeft := x.homeLeft - 1 }) s))
  else none

/-- A credit of the common part. -/
def drawCommon (c : Line) (old : Bool) (s : State) : Option State :=
  if 0 < (if old then s.fec.prev else s.fec.cur).left then
    some (updPool old (fun x => { x with left := x.left - 1 }) (noteDrawn c old s))
  else none

/-- A credit of the lendable part of the other carrier's home share. -/
def drawOther (c : Line) (old : Bool) (s : State) : Option State :=
  let o := getBatch s c.other old
  if o.lent < o.lendable ∧ 0 < o.homeLeft then
    let s := updBatch c.other old (fun x => { x with homeLeft := x.homeLeft - 1, lent := x.lent + 1 }) s
    let s := noteDrawn c old (updBatch c old (fun x => { x with borrowed := x.borrowed + 1 }) s)
    some (noteBorrow c (bump (fecCnt c 10) (bump (fecCnt c.other 11) s)))
  else none

/-! ## Decoding (R170 to R172) -/

/-- The place of a codeword: carrier, decode tick (the one before the present or not), frame, number. -/
structure Job where
  c : Line
  old : Bool
  f : Nat
  w : Nat
deriving DecidableEq, Repr

/-- The codeword at a place. -/
def cwAt (s : State) (j : Job) : Option CwSt := ((getBatch s j.c j.old).frames[j.f]?).bind (·.cws[j.w]?)

/-- Change the codeword at a place. -/
def setCw (j : Job) (x : CwSt) (s : State) : State :=
  updBatch j.c j.old (fun b => { b with frames := lmod b.frames j.f fun f => { f with cws := f.cws.set j.w x } }) s

/-- The code rate of the frame a codeword is of. -/
def cwRate (s : State) (j : Job) : Nat := (((getBatch s j.c j.old).frames[j.f]?).map (·.mode.rate)).getD 0

/-- The decoder's values after `n` iterations. -/
def bpAfter (rate off : Nat) (llr : List Int) : Nat → Bp
  | 0 => bpStart rate llr
  | n + 1 => bpIterate rate off (bpAfter rate off llr n)

/-- The outcome of a decoding that ends after `n` iterations for the reason `why` (R171): syndrome 0 makes it CONVERGED or
MISCORRECTED by the CRC; one that is cut at its release, or that never had an iteration, is checked no more. -/
def outcomeOf (rate n : Nat) (bp : Bp) (why : Outcome) : Outcome :=
  let h := bpHard bp
  if why = .deadline ∨ n = 0 ∨ !syndromeZero rate h then why
  else if crcOk rate h then .converged else .miscorrected

/-- The place of an outcome in a carrier's counter list (R188). -/
def outcomeCnt : Outcome → Nat
  | .converged => 1
  | .miscorrected => 2
  | .limit => 3
  | .starved => 4
  | .deadline => 5

/-- Count a codeword's outcome and raise its events (R187, R188). -/
def noteOutcome (j : Job) (o : Outcome) (s : State) : State :=
  let s := bump (fecCnt j.c (outcomeCnt o)) s
  let failed (s : State) : State := updBatch j.c j.old (fun b => { b with failures := b.failures + 1 }) s
  match o with
  | .converged => s
  | .miscorrected => fecOnce j.c 1 s
  | .starved => fecOnce j.c 3 (failed s)
  | .limit => failed s
  | .deadline => fecOnce j.c 5 (failed s)

/-- A codeword's outcome is decided, with the bits it delivers (R171): counted; the corrected bits of a good one too (R183,
R188). -/
def decideCw (j : Job) (o : Outcome) (llr : List Int) (h : Array Bool) (s : State) : State :=
  let s := setCw j (.decided o (o == .converged) (h.toList.take (infoBits (cwRate s j)))) (noteOutcome j o s)
  if o ≠ .converged then s
  else
    let n := correctedBits llr h
    let s := if n = 0 then s else bumpBy (fecCnt j.c 8) n s
    updFecC j.c (fun f => { f with sumBits := f.sumBits + n, sumGood := f.sumGood + 1 }) s

/-- A first decoding has ended after `n` iterations (R171, R172, R177): what is left of the guarantee becomes surplus; one that
failed while there is time to be decoded `again` waits for that. -/
def firstEnds (again : Bool) (j : Job) (why : Outcome) (llr : List Int) (n : Nat) (s : State) : State :=
  let b := getBatch s j.c j.old
  let rate := cwRate s j
  let bp := bpAfter rate b.offset llr n
  let h := bpHard bp
  let s := updBatch j.c j.old (fun b => { b with surplus := b.surplus + (b.g - n) }) s
  let s := bump (fecCnt j.c 0) (updFecC j.c (fun f => { f with sumCw := f.sumCw + 1 }) s)
  let o := outcomeOf rate n bp why
  if again && b.redecode && o != .converged && o != .deadline then
    setCw j (.failed o llr (h.toList.take (infoBits rate)) 0) s
  else decideCw j o llr h s

/-- A first decoding has ended before its release. -/
def endFirst (j : Job) (why : Outcome) (llr : List Int) (n : Nat) (s : State) : State := firstEnds true j why llr n s

/-- A re-decode has ended after `n` iterations (R172): its result counts only when it converges. -/
def endAgain (j : Job) (o why : Outcome) (llr : List Int) (bits : List Bool) (n : Nat) (s : State) : State :=
  let b := getBatch s j.c j.old
  let rate := cwRate s j
  let bp := bpAfter rate (b.offset + 1) (redecodeLlr llr) n
  if outcomeOf rate n bp why = .converged then decideCw j .converged llr (bpHard bp) (bump (fecCnt j.c 7) s)
  else setCw j (.decided o false bits) (noteOutcome j o s)

/-- One iteration with a credit already drawn, and the end of the decoding where it comes to one (R170, R171). -/
def iterate (j : Job) (s : State) : State :=
  let b := getBatch s j.c j.old
  let rate := cwRate s j
  let s := bump (fecCnt j.c 9) (updPool j.old (fun x => { x with used := x.used + 1 })
    (updFecC j.c (fun x => { x with sumIter := x.sumIter + 1 }) s))
  match cwAt s j with
  | some (.waiting llr n) =>
    if (b.early && bpConverged rate (bpAfter rate b.offset llr (n + 1))) || b.maxIter ≤ n + 1 then
      endFirst j .limit llr (n + 1) s
    else setCw j (.waiting llr (n + 1)) s
  | some (.failed o llr bits n) =>
    let s := if n = 0 then bump (fecCnt j.c 6) s else s
    if (b.early && bpConverged rate (bpAfter rate (b.offset + 1) (redecodeLlr llr) (n + 1))) || b.redIter ≤ n + 1 then
      endAgain j o .limit llr bits (n + 1) s
    else setCw j (.failed o llr bits (n + 1)) s
  | _ => s

/-- A decoding for whose next iteration there is no credit (R171, R177). -/
def starve (j : Job) (s : State) : State :=
  match cwAt s j with
  | some (.waiting llr n) => endFirst j .starved llr n s
  | some (.failed o llr bits n) => endAgain j o .starved llr bits n s
  | _ => s

/-- Is a codeword still to be decoded, and in its first decoding? -/
def inFirst (s : State) (j : Job) : Option Bool := match cwAt s j with
  | some (.waiting _ _) => some true
  | some (.failed _ _ _ _) => some false
  | _ => none

/-- Has its present decoding begun? -/
def begun (s : State) (j : Job) : Bool := match cwAt s j with
  | some (.waiting _ n) | some (.failed _ _ _ n) => n != 0
  | _ => false

/-- The credit open to a decoding for its next iteration: the lines of R177 in order. -/
def drawAny (j : Job) (s : State) : Option State :=
  let first := match cwAt s j with
    | some (.waiting _ n) => drawReserve j.c j.old n s
    | _ => none
  [drawSurplus j.c j.old, drawHome j.c j.old, drawCommon j.c j.old, drawOther j.c j.old].foldl (fun r d => r.orElse fun _ => d s) first

/-! ## The cores (R172, R175): rounds of one iteration, 48 CORE cycles, 125 in a tick -/

/-- The round of its decode tick in which the last LLR of codeword `w` has entered. DEDUCED: a frame's LLRs enter evenly over
the decode tick (R159, R175). -/
def entryRound (f : DecFrame) (w : Nat) : Nat :=
  let m : Mode := { n := f.n, const := f.mode.const, k := f.mode.k, rate := f.mode.rate, roll := f.mode.roll }
  125 * ((w + 1) * (30720 / (2 * m.m))) / m.payload

/-- The places of a batch with their entry rounds, in order of entry. -/
def batchJobs (s : State) (c : Line) (old : Bool) : List (Job × Nat) :=
  (getBatch s c old).frames.zipIdx.flatMap fun f =>
    (List.range f.1.cws.length).map fun w => ({ c := c, old := old, f := f.2, w := w }, entryRound f.1 w)

/-- Merge two lists of places by entry round, the first list's first at equal rounds. -/
def mergeJobs (x y : List (Job × Nat)) : List (Job × Nat) :=
  y.foldl (fun l e => l.takeWhile (fun a => a.2 ≤ e.2) ++ [e] ++ l.dropWhile fun a => a.2 ≤ e.2) x

/-- The codewords in the pool in round `r` of the present tick, in the order in which their last LLR entered: those of the
decode tick before, then those of the present one that have entered (R172). -/
def poolJobs (s : State) (r : Nat) : List Job :=
  let older := mergeJobs (batchJobs s .a true) (batchJobs s .b true)
  let now := (mergeJobs (batchJobs s .a false) (batchJobs s .b false)).filter fun x => x.2 ≤ r
  (older ++ now).map (·.1)

/-- The decodings that have a core in a round (R172): those begun keep theirs; free cores go to first decodings in order of
entry, then to re-decodes. -/
def onCores (s : State) (r : Nat) : List Job :=
  let jobs := poolJobs s r
  let run := jobs.filter (begun s)
  let wait := jobs.filter fun j => !begun s j
  let next := wait.filter (fun j => inFirst s j == some true) ++ wait.filter fun j => inFirst s j == some false
  run ++ next.take (activeCores s - run.length)

/-- One phase of a round: the decodings that draw from one source get their iteration; those that could not are left. -/
def phase (draw : Job → State → Option State) (jobs : List Job) (s : State) : List Job × List Job × State :=
  jobs.foldl (fun (a : List Job × List Job × State) j =>
    match draw j a.2.2 with
    | some s => (a.1 ++ [j], a.2.1, s)
    | none => (a.1, a.2.1 ++ [j], a.2.2)) ([], [], s)

/-- Two lists taken in turn, the first list first. -/
def inTurn : List Job → List Job → List Job
  | [], y => y
  | x, [] => x
  | a :: x, b :: y => a :: b :: inTurn x y

/-- The order in which decodings draw from the common part of a decode tick (R178): the lower FEC_LEND_PRIO first, in turn at
equal priority. -/
def commonOrder (s : State) (old : Bool) (jobs : List Job) : List Job :=
  let of_ (c : Line) : List Job := jobs.filter fun j => j.c == c && j.old == old
  let pa := (getBatch s .a old).prio
  let pb := (getBatch s .b old).prio
  if pa < pb then of_ .a ++ of_ .b
  else if pb < pa then of_ .b ++ of_ .a
  else inTurn (of_ s.fec.turn) (of_ s.fec.turn.other)

/-- Draw from the common part of a decode tick; after both carriers have drawn at equal priority, the one that did not draw
last goes first next time. -/
def commonPhase (old : Bool) (jobs : List Job) (s : State) : List Job × List Job × State :=
  let (got, left, s) := phase (fun j => drawCommon j.c j.old) (commonOrder s old jobs) s
  let both := jobs.any (·.c == .a) && jobs.any (·.c == .b) && (getBatch s .a old).prio == (getBatch s .b old).prio
  (got, left, match both, got.getLast? with
    | true, some j => updFec (fun x => { x with turn := j.c.other }) s
    | _, _ => s)

/-- A round (R177, R178): every decoding on a core draws its credit, from the reserve and its own surplus, then owners from their
home shares, then from the common part, then from the other's share; then the iterations run. -/
def poolRound (r : Nat) (s : State) : State :=
  let jobs := onCores s r
  let own (j : Job) (s : State) : Option State :=
    (match cwAt s j with
      | some (.waiting _ n) => drawReserve j.c j.old n s
      | _ => none).orElse fun _ => drawSurplus j.c j.old s
  let (g1, l, s) := phase own jobs s
  let (g2, l, s) := phase (fun j => drawHome j.c j.old) l s
  let (g3, lo, s) := commonPhase true (l.filter (·.old)) s
  let (g4, ln, s) := commonPhase false (l.filter (!·.old)) s
  let (g5, l, s) := phase (fun j => drawOther j.c j.old) (lo ++ ln) s
  l.foldl (fun s j => starve j s) ((g1 ++ g2 ++ g3 ++ g4 ++ g5).foldl (fun s j => iterate j s) s)

/-! ## Release (R172, R173) -/

/-- A codeword leaves the pool (R172, R173): a first decoding still running, or waiting for a core, is cut there, one that never had
an iteration and has no credit open to it ends STARVED (R180); a re-decode is cancelled, the first outcome stands and the cut
is counted; an uncorrected codeword is reported. -/
def releaseCw (j : Job) (s : State) : State :=
  let s := match cwAt s j with
    | some (.waiting llr n) =>
      firstEnds false j (if n = 0 ∧ (drawAny j s).isNone then .starved else .deadline) llr n s
    | some (.failed o _ bits _) =>
      fecOnce j.c 5 (bump (fecCnt j.c 5) (setCw j (.decided o false bits) (noteOutcome j o s)))
    | _ => s
  match cwAt s j with
  | some (.decided _ good bits) =>
    let s := setCw j (.released good bits) s
    if good then s else fecOnce j.c 0 (updFecC j.c (fun f => { f with sumBad := f.sumBad + 1 }) s)
  | _ => s

/-- The codewords of the decode tick before whose time has come by round `r` leave, one tick after their last LLR entered
(R173). -/
def releaseDue (r : Nat) (s : State) : State :=
  (mergeJobs (batchJobs s .a true) (batchJobs s .b true)).foldl (fun s x => if x.2 ≤ r then releaseCw x.1 s else s) s

/-- The next round of the tick: what its time has come for leaves, then the iterations run. -/
def poolStep (s : State) : State :=
  updFec (fun x => { x with round := x.round + 1 }) (poolRound s.fec.round (releaseDue s.fec.round s))

/-- Rounds run until something holds; none where it does not come to hold in `n` of them. -/
def poolUntil (p : State → Bool) : Nat → State → Option State
  | 0, s => if p s then some s else none
  | n + 1, s => if p s then some s else poolUntil p n (poolStep s)

/-- The rounds that are left of the tick. -/
def poolRest (s : State) : Nat := 125 - s.fec.round

/-- The pool runs on to the moment of one of its own events in this tick; where that does not come in it, nothing happens. -/
def poolAt (p : State → Bool) (s : State) : State := (poolUntil p (poolRest s) s).getD s

/-- The work of the pool in what is left of a tick. -/
def poolWork (s : State) : State :=
  if bothLines.all fun c => (getFec s c).prev.frames.isEmpty && (getFec s c).cur.frames.isEmpty then s
  else releaseDue 125 ((List.range (poolRest s)).foldl (fun s _ => poolStep s) s)

/-- The round at which a codeword of the decode tick before leaves; none for one of the present decode tick. -/
def leaveRound (s : State) (j : Job) : Option Nat :=
  if j.old then ((getBatch s j.c true).frames[j.f]?).map fun f => entryRound f j.w else none

/-- Is a codeword's release in this tick still to come? -/
def releaseAhead (s : State) (j : Job) : Bool := match cwAt s j with
  | some (.released _ _) | none => false
  | _ => (leaveRound s j).any fun r => s.fec.round ≤ r

/-- A codeword's first decoding comes to its end (R171, R172). -/
def decodeEnd (j : Job) (s : State) : State :=
  if inFirst s j = some true then poolAt (fun s => inFirst s j != some true) s else s

/-- A codeword's re-decode begins, once its first decoding has failed and a core is free (R172). -/
def redecodeStart (j : Job) (s : State) : State :=
  if (inFirst s j).isSome then poolAt (fun s => inFirst s j == some false && begun s j) s else s

/-- A codeword leaves the pool at its time (R173). -/
def codewordRelease (j : Job) (s : State) : State :=
  if releaseAhead s j then releaseCw j (poolAt (fun s => (leaveRound s j).any fun r => r ≤ s.fec.round) s) else s

/-- The end of a carrier's decode tick. DESIGN CHOICE (log entry 176): credits of a decode tick lapse with the release of its last
codeword, since every iteration of its codewords, those in the following tick too, counts against them (R175, R177). The frames
whose codewords have all left go to the line frame, those without a converged
codeword are counted (R137); the batch becomes the one before, that one the last completed. -/
def batchClose (c : Line) (s : State) : State :=
  let f := getFec s c
  let good (x : DecFrame) : Bool := x.cws.any fun
    | .released g _ => g
    | _ => false
  let s := updRx c (fun r => { r with noConv := f.prev.frames.foldl (fun n x => if good x then 0 else n + 1) r.noConv }) s
  updFecC c (fun f => { f with
    last := { f.prev with frames := [] }, prev := f.cur, cur := {}, ready := f.ready ++ f.prev.frames,
    drawnNow := 0, drawnLast := f.drawnNow }) s

/-- The end of a tick for the pool. -/
def fecClose (s : State) : State :=
  let s := batchClose .b (batchClose .a (poolWork s))
  updFec (fun x => { x with rep := x.prev, prev := x.cur, round := 0 }) s

/-- The end of an epoch: averages and their alarm (R183, R187). DESIGN CHOICE (log entry 177): both averages are rounded down; the
specification gives their units only. -/
def fecEpoch (c : Line) (s : State) : State :=
  let f := getFec s c
  let avg := if f.sumCw = 0 then none else some (100 * f.sumIter / f.sumCw)
  let ber := if f.sumGood = 0 then none else some (100000000 * f.sumBits / (30720 * f.sumGood))
  let s := updFecC c (fun f => { f with
    avgIter := avg, ber := ber, epochBad := f.sumBad, sumIter := 0, sumCw := 0, sumBits := 0, sumGood := 0,
    sumBad := 0 }) s
  raiseIf (s.parN 0x5006 c.inst < avg.getD 0) (lineEvt 0x50 c 4) s

/-- The place that a row's number names: the frames in the pool in order, 256 numbers for each. -/
def jobOf (s : State) (c : Line) (cw : Nat) : Job :=
  let n := (getFec s c).prev.frames.length
  let k := cw / 256
  if k < n then { c := c, old := true, f := k, w := cw % 256 } else { c := c, old := false, f := k - n, w := cw % 256 }

/-! ## What the line frame takes of a decoded frame (R108, R189) -/

/-- A decoded frame's bits, first to last. -/
def frameBits (f : DecFrame) : List Bool :=
  let m : Mode := { n := f.n, const := f.mode.const, k := f.mode.k, rate := f.mode.rate, roll := f.mode.roll }
  f.cws.flatMap fun
    | .released _ bits => wordFrameBits m bits
    | _ => []

/-- The uncorrected codewords of a frame. -/
def badWords (f : DecFrame) : List Nat :=
  (List.range f.cws.length).filter fun w => match f.cws[w]? with
    | some (.released good _) => !good
    | _ => true

/-! ## Cores (R181, R182) -/

/-- The Replace Request cause for more than 2 disabled cores. -/
def checkCores (s : State) : State :=
  if 2 < popcount 48 (s.fec.disabled ||| s.fec.leaving) then svcCause 8 s else s

/-- The result of a core's test (R181): a failing core leaves the pool at the next commit window; an ungated one joins
it once it has passed; a waiting FEC_CORE_TEST is answered. -/
def coreTested (core : Nat) (pass : Bool) (s : State) : State :=
  let m := 2 ^ core
  let asked := s.fec.tests.filter fun t => t.2.1 == core && t.2.2 < s.elapsed
  let s := updFec (fun x => { x with
    tested := x.tested ||| m, untested := if pass then setBit x.untested core false else x.untested,
    leaving := if pass then x.leaving else x.leaving ||| m,
    tests := x.tests.filter fun t => !asked.contains t }) s
  let s := if pass then s else checkCores (raise 0x56 (bump 344 s))
  asked.foldl (fun s t => finish t.1 (if pass then .ok else .st 0x1503) s) s

/-- The FEC_CORE_TESTs whose core has been gated or disabled before the tick of their test (R185). -/
def testsOrphaned (s : State) : State :=
  let gone := s.fec.tests.filter fun t =>
    t.2.2 < s.elapsed && bit (s.fec.disabled ||| s.fec.leaving ||| s.pwr.gatedCores) t.2.1
  gone.foldl (fun s t => finish t.1 (.st stWrongState) s)
    (updFec (fun x => { x with tests := x.tests.filter fun t => !gone.contains t }) s)

/-- Is a core's test due: in the pool or waiting to join it, and not tested in this epoch, or asked for? -/
def coreTestDue (s : State) (core : Nat) : Bool :=
  !bit (s.fec.disabled ||| s.fec.leaving ||| s.pwr.gatedCores) core
    && (!bit s.fec.tested core || bit s.fec.untested core
      || s.fec.tests.any fun t => t.2.1 == core && t.2.2 < s.elapsed)

/-- Does the pool still cover 6 codeword-iterations per codeword with these cores gated (R182)? DESIGN CHOICE (log entry 178): a
carrier that is not in TRACKING has no receive mode in force and counts 0. -/
def gateLeaves (s : State) (cores : Nat) : Bool :=
  let left := 48 - popcount 48 (s.fec.disabled ||| s.fec.leaving ||| s.pwr.gatedCores ||| s.fec.untested ||| cores)
  6 * (batchWords s .a + batchWords s .b) ≤ 125 * left

/-! ## Commands (R185) -/

/-- FEC_STATUS. -/
def infoFecStatus : CmdInfo := { op := 0x0500, carriers := [1, 2], len := .fixed 16, desc := true }
/-- FEC_POOL. -/
def infoFecPool : CmdInfo := { op := 0x0501, len := .fixed 16, desc := true }
/-- FEC_CORE_TEST. -/
def infoFecCoreTest : CmdInfo := { op := 0x4500, len := .fixed 1 }

/-- An epoch measure or its marker. -/
def orMarker (v : Option Nat) : Nat := v.getD 0x80000000

/-- The 48 bytes of FEC_STATUS. -/
def fecStatusBytes (s : State) (c : Line) : Bytes :=
  let f := getFec s c
  let b := f.last
  [byteOf b.rate, byteOf (s.parN 0x5000 c.inst)] ++ le 2 b.charged ++ le 2 b.reserveUsed
    ++ le 2 b.home ++ le 2 b.keep ++ le 2 b.lendable ++ le 2 b.drawn ++ le 2 b.borrowed ++ le 2 b.lent
    ++ le 2 b.failures ++ le 4 (orMarker f.avgIter) ++ le 4 (orMarker f.ber) ++ le 4 f.epochBad ++ le 8 b.tick
    ++ zeros 8

/-- The 32 bytes of FEC_POOL, for the last completed decode tick but for the disabled and gated cores. -/
def fecPoolBytes (s : State) : Bytes :=
  let r := s.fec.rep
  le 2 r.p ++ [byteOf r.cores, byteOf r.g] ++ le 6 s.fec.disabled ++ le 6 s.pwr.gatedCores
    ++ le 2 r.lend ++ le 2 r.common ++ le 2 r.used ++ zeros 2 ++ le 8 r.tick

end Sys2Proof.Machine
end

