-- ==== Sys2Proof/Machine/Frame.lean ====
section
/-! DEFINITION. Frame.lean: the line frame at the receiver (group 0x6, R189 to R220): alignment, announcements, parity,
defects, the GCC, the commands of the group. -/
namespace Sys2Proof.Machine

/-- A carrier's line frame. -/
def getFrm (s : State) (c : Line) : Frm := s.frm.get c

/-- Change a carrier's line frame. -/
def updFrm (c : Line) (f : Frm → Frm) (s : State) : State := { s with frm := s.frm.upd c f }

/-- A parameter as in force in the receive blocks that follow frame alignment (R41). -/
def rxPar (s : State) (pid inst : Nat) : Bytes := tableVal s.lag.view (pkey pid inst)

/-- Its number. -/
def rxParN (s : State) (pid inst : Nat) : Nat := unle (rxPar s pid inst)

/-- The first counter of a carrier's list (R220). -/
def frmCnt (c : Line) (n : Nat) : Nat := 384 + 19 * c.ix + n

/-! ## Slot maps (R194, R195) -/

/-- The payload type of slot `i` in a 48-byte slot map. -/
def mapPt (m : Bytes) (i : Nat) : Nat := byteAt m (2 * i)

/-- The slot map entry of slot `i`. -/
def mapIx (m : Bytes) (i : Nat) : Nat := byteAt m (2 * i + 1)

/-- A slot map from separate payload types and entries. -/
def mapOf (pt ix : Bytes) : Bytes := (List.range 24).flatMap fun i => [pt.getD i 0, ix.getD i 0]

/-- Is a payload type that of a client? -/
def ptClient (p : Nat) : Bool := p == 1 || p == 2 || p == 3

/-- The slots of client index `x` in a slot map. -/
def mapSlots (m : Bytes) (x : Nat) : List Nat :=
  (List.range 24).filter fun i => ptClient (mapPt m i) && mapIx m i / 16 == x

/-- Is slot `i`'s entry consistent with the rest of the map (R195)? -/
def slotConsistent (m : Bytes) (i : Nat) : Bool :=
  let p := mapPt m i
  let x := mapIx m i
  if p = 0 then x == 0xFF
  else if p = 0xFD ∨ p = 0xFE then x == 0xF0
  else if ptClient p then
    let k := (ptSlots p).getD 0
    let own := mapSlots m (x / 16)
    x / 16 ≤ 11 && own.length == k && own.all (fun j => mapPt m j == p && mapIx m j % 16 < k)
      && ((own.map fun j => mapIx m j % 16).eraseDups).length == k
  else false

/-- Is a slot map consistent (R195)? -/
def mapConsistent (m : Bytes) : Bool := (List.range 24).all (slotConsistent m)

/-- The accepted slot map of a carrier (R201). -/
def accMapOf (s : State) (c : Line) : Bytes := mapOf (getFrm s c).accPt (getFrm s c).accMap

/-! ## Alignment (R198, R199) -/

/-- Discard every GCC message in reassembly, each counted (R210). -/
def gccDrop (c : Line) (s : State) : State :=
  let g := (getFrm s c).gcc
  let n := b2n g.rxHost.msg.isSome + b2n g.rxKey.msg.isSome
  let s := updFrm c (fun f => { f with gcc := {
    f.gcc with
    rxHost := { f.gcc.rxHost with msg := none }, rxKey := { f.gcc.rxKey with msg := none } } }) s
  if n = 0 then s else bumpBy (frmCnt c 11) n s

/-- A Domain message in reassembly on neighbour `i`'s segments is discarded and counted (R210 as R317 takes it over). -/
def dmDropReasm (i : Nat) (s : State) : State :=
  if (s.dm.reasm.getD i {}).msg.isSome then
    bump 852 { s with dm := { s.dm with reasm := lmod s.dm.reasm i fun r => { r with msg := none } } }
  else s

/-- Every message in reassembly on a carrier is discarded (R210): those of the GCC and of the DCH. -/
def dropReasm (c : Line) (s : State) : State := dmDropReasm c.ix (gccDrop c s)

/-- Enter OOF, and OOM with it (R198, R199). DESIGN CHOICE (log entry 170): how many frames pass in OOF is not counted, so the first valid
frame after it has no predecessor to match. -/
def goOof (c : Line) (s : State) : State :=
  let wasM := (getFrm s c).inM
  let s := updFrm c (fun f => { f with
    inF := false, pos := none, run := 0, miss := 0, oof := 0,
    inM := false, good := 0, bad := 0, oom := if f.inM then 0 else f.oom, lastMfc := none, gap := 0, counted := false }) s
  let s := bump (frmCnt c 2) s
  dropReasm c (if wasM then bump (frmCnt c 3) s else s)

/-- Three detections one frame apart: OOF to IF. -/
def frameGain (c : Line) (s : State) : State :=
  let f := getFrm s c
  if !f.inF && 3 ≤ f.run && lockInd s c then
    updFrm c (fun f => { f with inF := true, miss := 0, lof := false }) s
  else s

/-- Five consecutive misses, or the receiver has left PILOT and TRACKING: IF to OOF. -/
def frameLoss (c : Line) (s : State) : State :=
  let f := getFrm s c
  if f.inF && (5 ≤ f.miss || !lockInd s c) then goOof c s else s

/-- 1,500 ticks in OOF set raw dLOF. -/
def lofTimer (c : Line) (s : State) : State :=
  let f := getFrm s c
  if !f.inF && 1500 ≤ f.oof then updFrm c (fun f => { f with lof := true }) s else s

/-- 1,500 ticks in OOM set raw dLOM. -/
def lomTimer (c : Line) (s : State) : State :=
  let f := getFrm s c
  if !f.inM && 1500 ≤ f.oom then updFrm c (fun f => { f with lom := true }) s else s

/-- A tick of alignment: what the receive DSP found of the alignment sequence (R155, R198). A tick in which, by the far clock, the
sequence could not end neither counts nor misses. -/
def frmAlign (c : Line) (s : State) : State :=
  let f := getFrm s c
  let seen := if lockInd s c then (getRx s c).align.found else none
  let due : Bool := (getRx s c).align.due || seen.isSome || !lockInd s c
  let s := if f.inF && seen.isSome && seen != f.pos then bump (frmCnt c 5) s else s
  let s := updFrm c (fun f =>
    if f.inF then (if due then { f with miss := if seen = f.pos then 0 else f.miss + 1 } else f)
    else if due then
      { f with run := if seen.isNone then 0 else if seen = f.pos then f.run + 1 else 1, pos := seen, oof := f.oof + 1 }
    else { f with oof := f.oof + 1 }) s
  let s := updFrm c (fun f => { f with oom := if f.inM || f.oomNow then 0 else f.oom + 1, oomNow := false }) s
  lomTimer c (lofTimer c (frameGain c (frameLoss c s)))

/-- A valid frame in IF takes part in multiframe alignment (R199). -/
def multiframe (c : Line) (mfc : Nat) (s : State) : State :=
  let f := getFrm s c
  let m := match f.lastMfc with
    | some x => (x + f.gap) % 256 == mfc
    | none => false
  let s := updFrm c (fun f => { f with lastMfc := some mfc, gap := 0 }) s
  if f.inM then
    if m then updFrm c (fun f => { f with bad := 0 }) s
    else
      let s := bump (frmCnt c 4) (updFrm c (fun f => { f with bad := f.bad + 1 }) s)
      if 5 ≤ f.bad + 1 then
        bump (frmCnt c 3) (updFrm c (fun f => { f with inM := false, good := 0, bad := 0, oom := 0, oomNow := true }) s)
      else s
  else
    let n := if m then f.good + 1 else 1
    if 3 ≤ n then updFrm c (fun f => { f with inM := true, good := 0, bad := 0, lom := false }) s
    else updFrm c (fun f => { f with good := n }) s

/-- The number nearest to `t` with these low 32 bits (R8). DESIGN CHOICE: of two equally near, 2^31 away on either side, it is
the one with the high bits of `t`; the specification says only "nearest". -/
def nearest32 (t lo : Nat) : Nat :=
  let base := t - t % 2 ^ 32 + lo % 2 ^ 32
  if t + 2 ^ 31 < base ∧ 2 ^ 32 ≤ base then base - 2 ^ 32
  else if base + 2 ^ 31 < t then base + 2 ^ 32 else base

/-! ## Persistence checks -/

/-- One frame of a persistence check: `up` frames in a row turn it on, `down` turn it off. -/
def Deb.step (up down : Nat) (v : Bool) (d : Deb) : Deb :=
  if v = d.on then { d with run := 0 }
  else if (if v then up else down) ≤ d.run + 1 then { on := v, run := 0 }
  else { d with run := d.run + 1 }

/-- Persistence of the received payload types and slot map entries: key is the byte's place, 0 to 47 (R201). -/
def acceptByte (k : Nat) (v : Byte) (f : Frm) : Frm :=
  let acc := if k < 24 then f.accPt.getD k 0 else f.accMap.getD (k - 24) 0
  if v = acc then { f with cand := SMap.del k f.cand }
  else
    let n := match SMap.find f.cand k with
      | some (w, n) => if w = v then n + 1 else 1
      | none => 1
    if 5 ≤ n then
      let f := { f with cand := SMap.del k f.cand }
      if k < 24 then { f with accPt := f.accPt.set k v } else { f with accMap := f.accMap.set (k - 24) v }
    else { f with cand := SMap.ins k (v, n) f.cand }

/-! ## Announcements (R200, R201) -/

/-- The content that identical announcements share: NMA fields, NPT and NSMAP. -/
def annContent (oh : Bytes) : Bytes := slice oh 64 14 ++ slice oh 80 48

/-- A valid frame with frame tick `ft` names an announcement's NMA_TICK, with or without NMA_FLAGS[7] (R200). Conflicting
content withdraws it; three identical receptions with the flag accept it, or show that its target breaks the conditions. -/
def noteAnn (c : Line) (ft : Nat) (oh : Bytes) (s : State) : State :=
  let t := nearest32 ft (unbe (slice oh 72 4))
  let body := annContent oh
  let put (a : Ann) (s : State) : State :=
    updFrm c (fun f => { f with anns := f.anns.map fun x => if x.t = a.t then { a with lastAt := ft } else x }) s
  let bad (a : Ann) (s : State) : State :=
    raise (lineEvt 0x60 c 4) (bump (frmCnt c 14) (put { a with st := .bad } s))
  match (getFrm s c).anns.find? (·.t == t) with
  | none =>
    if bit (byteAt oh 64) 7 then
      updFrm c (fun f => { f with anns := f.anns ++ [{ t := t, content := body, lastAt := ft }] }) s
    else s
  | some a =>
    if a.st = .bad then put a s
    else if a.content ≠ body then if a.st = .accepted ∧ a.t ≤ ft then s else bad a s
    else
      let a := { a with count := a.count + 1 }
      if a.count = 3 then
        if t % 256 = 0 ∧ ft + 1 ≤ t ∧ t ≤ ft + 256 then
          raise (lineEvt 0x60 c 3) (bump (frmCnt c 13) (put { a with st := .accepted } s))
        else bad a s
      else put a s

/-- The receive mode in an announcement's content (R193). -/
def annMode (b : Bytes) : RxMode := { const := byteAt b 1, k := unbe (slice b 2 2), rate := byteAt b 4, roll := byteAt b 5 }

/-- The frame whose frame tick is an accepted T (R201): payload types and slot map change, and, where the stages ahead of frame
alignment have not switched to it, the receive mode from the next frame that reaches them. An announcement is kept while frames name it, a multiframe long,
and until its T. -/
def applyAnn (c : Line) (ft : Nat) (s : State) : State :=
  let f := getFrm s c
  let s := match f.anns.find? (fun a => a.t == ft && a.st == .accepted) with
    | none => s
    | some a =>
      if f.inF && (getRx s c).st == .tracking then
        let b := a.content
        let s := if a.switched then s else updRx c (fun r => { r with modeDue := some (annMode b, 2) }) s
        let npt := slice b 14 24
        updFrm c (fun f => { f with
          accPt := npt, accMap := slice b 38 24, cand := [],
          expPt := if rxParN s 0x6010 c.inst = 2 then npt else f.expPt }) s
      else s
  updFrm c (fun f => { f with anns := f.anns.filter fun a => ft < a.t || ft < a.lastAt + 256 && a.st != .accepted }) s

/-! ## Defects (R205 to R207) -/

/-- The raw states: [0] dLOS, [1] dLOCK, [2] dLOF, [3] dLOM, [4] dFECF, [5] dBDI. Nothing is raw while the carrier does
not run. -/
def rawDefects (s : State) (c : Line) : Nat :=
  let f := getFrm s c
  let st := (getRx s c).st
  if st = .off then 0
  else b2n (st == .signal) + 2 * b2n (st == .cdScan || st == .timing || st == .equalise) + 4 * b2n f.lof
    + 8 * b2n f.lom + 16 * b2n f.fecf.on + 32 * b2n f.bdi.on

/-- The reported defects: the highest of ranks 1 to 5, and dBDI when none of them is. -/
def reportOf (raw : Nat) : Nat :=
  match (List.range 5).find? (bit raw) with
  | some i => 2 ^ i
  | none => raw

/-- Raw payload-type mismatch of slot `i` (R206). -/
def plmRaw (s : State) (c : Line) (i : Nat) : Bool :=
  let f := getFrm s c
  if rxParN s 0x6010 c.inst = 0 then false
  else
    let p := byteAt f.accPt i
    let want := if rxParN s 0x6010 c.inst = 1 then rxPar s 0x6011 c.inst else f.expPt
    p != byteAt want i || (ptSlots p).isNone || !slotConsistent (accMapOf s c) i

/-- A number with a bit for each slot that satisfies a test. -/
def slotMask (f : Nat → Bool) : Nat := maskOf 24 f

/-- Bring the reported defects up to date and raise the events of what changed: TRIB_DEFECT for each defect of each slot (R205,
R207). -/
def frmReport (c : Line) (s : State) : State :=
  let f := getFrm s c
  let rep := reportOf (rawDefects s c)
  let open_ : Bool := rep % 32 == 0 && (getRx s c).st != .off
  let ais (i : Nat) : Bool := open_ && (f.ais.getD i {}).on
  let plm (i : Nat) : Bool := open_ && !ais i && plmRaw s c i
  let keyx (i : Nat) : Bool := open_ && !ais i && !plm i && (f.keyx.getD i {}).raw
  let a := slotMask ais
  let p := slotMask plm
  let k := slotMask keyx
  let s := updFrm c (fun f => { f with reported := rep, repAis := a, repPlm := p, repKeyx := k }) s
  let s := raiseIf (rep % 32 != f.reported % 32) (lineEvt 0x60 c 0) s
  let diff (x y : Nat) : Nat := popcount 24 (x ^^^ y)
  let n := diff a f.repAis + diff p f.repPlm + diff k f.repKeyx
  let s := (List.range n).foldl (fun s _ => raise (lineEvt 0x60 c 1) s) s
  raiseIf (rep / 32 != f.reported / 32) (lineEvt 0x60 c 2) s

/-- Is a rank 1 to 5 defect reported? -/
def lineFault (s : State) (c : Line) : Bool := (getFrm s c).reported % 32 != 0

/-- The slots with a reported per-tributary defect: what BTRI carries back (R203). -/
def tribFault (s : State) (c : Line) : Nat :=
  (getFrm s c).repAis ||| (getFrm s c).repPlm ||| (getFrm s c).repKeyx

/-- One frame of the dKEYX detector (R205, R261): the result of the slot's check. -/
inductive TagRes
  | pass
  | fail
  | noKey
  | farBlocked
  | notChecked
deriving DecidableEq, Repr

/-- Advance a dKEYX detector by one result. -/
def KeyDet.step (r : TagRes) (d : KeyDet) : KeyDet :=
  match r with
  | .pass => { raw := d.raw && d.passes + 1 < 3, fails := 0, blks := 0, passes := d.passes + 1 }
  | .fail => { raw := d.raw || 3 ≤ d.fails + 1, fails := d.fails + 1, blks := 0, passes := 0 }
  | .noKey => { raw := true, fails := 0, blks := 0, passes := 0 }
  | .farBlocked => { raw := d.raw || 3 ≤ d.blks + 1, fails := 0, blks := d.blks + 1, passes := 0 }
  | .notChecked => d

/-! ## The GCC (R208 to R210) -/

/-- The largest message of a channel: 4,096 bytes for the host, 512 for the key engine. -/
def gccLimit (chan : Nat) : Nat := if chan = 2 then 512 else 4096

/-- One segment of a channel whose full segments carry `full` bytes: the channel's state after it, a completed message, and
whether one was discarded. -/
def segStep (full lim : Nat) (start : Bool) (data : Bytes) (r : Reasm) : Reasm × Option Bytes × Bool :=
  let ends := data.length < full
  let lost := start && r.msg.isSome
  if start || (r.msg.isSome && !r.discard) then
    let m := (if start then [] else r.msg.getD []) ++ data
    if lim < m.length then ({ msg := none, discard := !ends }, none, true)
    else if ends then ({}, some m, lost)
    else ({ msg := some m }, none, lost)
  else ({ r with discard := r.discard && !ends }, none, false)

/-- A received GCC segment (R208, R210); channel 3 is discarded. -/
def gccSegment (c : Line) (ft : Nat) (seg : Bytes) (s : State) : State :=
  let h := byteAt seg 0
  let chan := h / 64
  if chan = 0 ∨ chan = 3 then s
  else
    let g := (getFrm s c).gcc
    let r := if chan = 1 then g.rxHost else g.rxKey
    let (r, m, lost) := segStep 31 (gccLimit chan) (bit h 5) (slice seg 1 (h % 32)) r
    let s := if lost then bump (frmCnt c 11) s else s
    updFrm c (fun f => { f with gcc := {
      f.gcc with
      rxHost := if chan = 1 then r else f.gcc.rxHost,
      rxKey := if chan = 1 then f.gcc.rxKey else r,
      done := f.gcc.done ++ (match m with
        | some b => [{ chan := chan, tick := ft, bytes := b }]
        | none => []) } }) s

/-- A complete message is passed on: to the key engine, or into the host's receive queue of 16 (R210). -/
def gccPass (c : Line) (s : State) : State :=
  match (getFrm s c).gcc.done with
  | [] => s
  | m :: rest =>
    let s := updFrm c (fun f => { f with gcc := { f.gcc with done := rest } }) s
    let msgs := fun (x : CryC) => { x with msgs := x.msgs ++ [m.bytes] }
    if m.chan = 2 then
      bump (frmCnt c 10) (match c with
        | .a => { s with cry := { s.cry with a := msgs s.cry.a } }
        | .b => { s with cry := { s.cry with b := msgs s.cry.b } })
    else if (getFrm s c).gcc.queue.length < 16 then
      raise (lineEvt 0x60 c 5) (bump (frmCnt c 10)
        (updFrm c (fun f => { f with gcc := { f.gcc with queue := f.gcc.queue ++ [m] } }) s))
    else bump (frmCnt c 12) s

/-- The segment of one channel's first message, `off` bytes of it sent: the 32 bytes, and whether it ends there. -/
def segOf (chan : Nat) (m : Bytes) (off : Option Nat) : Bytes × Bool :=
  let d := (m.drop (off.getD 0)).take 31
  ([byteOf (64 * chan + 32 * b2n off.isNone + d.length)] ++ padTo 31 d, d.length < 31)

/-- The next GCC segment of a carrier and the state with it taken (R209, R266): idle with the channel disabled, below
TRAFFIC, or with nothing to send; key engine and host in turn; host segments wait while the GCC is in clear. The flag
says that a key-engine message was finished. -/
def gccNext (c : Line) (clear : Bool) (s : State) : Bytes × Bool × State :=
  let g := (getFrm s c).gcc
  if s.parN 0x6002 c.inst = 0 ∨ (s.tx.get c).eff < 2 then (zeros 32, false, s)
  else
    let host := !g.host.isEmpty && !clear
    let both := host && !g.key.isEmpty
    let useKey := !g.key.isEmpty && (!both || !g.lastKey)
    if useKey then
      let (seg, e) := segOf 2 (g.key.headD []) g.keyOff
      let s := updFrm c (fun f => { f with gcc := {
        f.gcc with
        lastKey := both, key := if e then f.gcc.key.tail else f.gcc.key,
        keyOff := if e then none else some (f.gcc.keyOff.getD 0 + 31) } }) s
      (seg, e, if e then bump (frmCnt c 9) s else s)
    else if host then
      let (seg, e) := segOf 1 (g.host.headD []) g.hostOff
      let s := updFrm c (fun f => { f with gcc := {
        f.gcc with
        lastKey := false, host := if e then f.gcc.host.tail else f.gcc.host,
        hostOff := if e then none else some (f.gcc.hostOff.getD 0 + 31) } }) s
      (seg, false, if e then bump (frmCnt c 9) s else s)
    else (zeros 32, false, updFrm c (fun f => { f with gcc := { f.gcc with lastKey := false } }) s)

/-- Queue a key-engine message on a carrier's GCC (R274). -/
def gccSendKey (c : Line) (m : Bytes) (s : State) : State :=
  updFrm c (fun f => { f with gcc := { f.gcc with key := f.gcc.key ++ [m] } }) s

/-- One frame's worth of the APS acceptance check (R211). -/
def apsStep (c : Line) (ok : Bool) (w : Nat) (s : State) : State :=
  if !ok then updFrm c (fun f => { f with apsRun := 0 }) s
  else
    let f := getFrm s c
    let n := if w = f.apsCand then f.apsRun + 1 else 1
    let s := updFrm c (fun f => { f with apsCand := w, apsRun := n }) s
    if 3 ≤ n ∧ w ≠ f.apsAcc then raise (lineEvt 0x60 c 6) (updFrm c (fun f => { f with apsAcc := w }) s) else s

/-! ## Parity (R202) -/

/-- The bit-interleaved parity of a byte string, bit 7 − k for indices congruent to k. -/
def bip8 (bs : Bytes) : Byte := bs.foldl (· ^^^ ·) 0

/-- No frame came in between: nothing is left to compare with (R202). -/
def bipClear (c : Line) (s : State) : State := updFrm c (fun f => { f with par1 := none, par2 := none }) s

/-- The parity check of a frame: BIP8 of a valid overhead covers the frame two before it. -/
def bipCheck (c : Line) (valid : Bool) (sent : Nat) (own : Option Nat) (s : State) : State :=
  let f := getFrm s c
  let s := match valid, f.par2 with
    | true, some p =>
      let n := popcount 8 (p ^^^ sent)
      let s := updFrm c (fun f => { f with beiTx := n }) s
      if n = 0 then s else bumpBy (frmCnt c 6) n s
    | _, _ => s
  updFrm c (fun f => { f with par2 := f.par1, par1 := if valid && f.inF then own else none }) s

/-! ## Commands (R217) -/

/-- FRM_STATUS. -/
def infoFrmStatus : CmdInfo := { op := 0x0600, carriers := [1, 2], len := .fixed 16, desc := true }
/-- FRM_GCC_SEND. -/
def infoFrmGccSend : CmdInfo := { op := 0x0601, carriers := [1, 2], len := .range 1 4096 1 }
/-- FRM_GCC_RECV. -/
def infoFrmGccRecv : CmdInfo := { op := 0x0602, carriers := [1, 2], len := .fixed 16, desc := true }
/-- FRM_APS_SET. -/
def infoFrmApsSet : CmdInfo := { op := 0x0603, carriers := [1, 2], len := .fixed 4 }
/-- FRM_OH_CAPTURE. -/
def infoFrmOhCapture : CmdInfo := { op := 0x4600, carriers := [1, 2], len := .fixed 16, desc := true }

/-- The BKI byte a carrier's transmitter sends (R203). -/
def bkiByte (s : State) (c : Line) : Nat := 128 * b2n (lineFault s c) + (getFrm s c).beiTx

/-- The 96 bytes of FRM_STATUS. -/
def frmStatusBytes (s : State) (c : Line) : Bytes :=
  let f := getFrm s c
  le 8 s.tick ++ [byteOf (b2n f.inF), byteOf (b2n f.inM), byteOf f.reported, byteOf (rawDefects s c)]
    ++ le 3 f.repAis ++ le 3 f.repPlm ++ le 3 f.repKeyx ++ le 3 f.btri ++ le 4 f.tickLo
    ++ [byteOf f.bei, f.txOh.getD 9 0] ++ le 2 f.seqId ++ padTo 24 f.accPt ++ padTo 24 f.accMap
    ++ le 4 f.apsAcc ++ le 4 f.apsTx ++ le 8 (match f.anns.find? (·.st == .accepted) with
      | some a => a.t
      | none => 0)

end Sys2Proof.Machine
end

