-- ==== Sys2Proof/Machine/Crypto.lean ====
section
/-! DEFINITION. Crypto.lean: secure associations, their keys and switches (group 0x8, R255 to R273). -/
namespace Sys2Proof.Machine

/-- A carrier's encryption. -/
def getCry (s : State) (c : Line) : CryC := match c with
  | .a => s.cry.a
  | .b => s.cry.b

/-- Change a carrier's encryption. -/
def updCry (c : Line) (f : CryC → CryC) (s : State) : State :=
  { s with cry := match c with
    | .a => { s.cry with a := f s.cry.a }
    | .b => { s.cry with b := f s.cry.b } }

/-- SA `i` of a carrier. -/
def getSa (s : State) (c : Line) (i : Nat) : Sa := (getCry s c).sas.getD i {}

/-- Change a transmit half. -/
def updTxH (c : Line) (i : Nat) (f : TxHalf → TxHalf) (s : State) : State :=
  updCry c (fun x => { x with sas := lmod x.sas i fun a => { a with tx := f a.tx } }) s

/-- Change a receive half. -/
def updRxH (c : Line) (i : Nat) (f : RxHalf → RxHalf) (s : State) : State :=
  updCry c (fun x => { x with sas := lmod x.sas i fun a => { a with rx := f a.rx } }) s

/-- The first counter of a carrier's list (R286). -/
def cryCnt (c : Line) (n : Nat) : Nat := 704 + 13 * c.ix + n

/-- Raise a carrier's event at most once per tick. -/
def cryOnce (c : Line) (n : Nat) (s : State) : State :=
  if (getCry s c).once.contains n then s
  else raise (lineEvt 0x80 c n) (updCry c (fun x => { x with once := n :: x.once }) s)

/-- Is a transmit half BLOCKED (R264)? -/
def blocked (s : State) (c : Line) (i : Nat) : Bool := (getSa s c i).tx.cur.isNone

/-- Every key held by any half of any SA of either carrier (R257). -/
def heldKeys (s : State) : List Bytes :=
  bothLines.flatMap fun c => (getCry s c).sas.flatMap fun a =>
    (a.tx.cur.toList ++ a.tx.next.toList).map (·.key)
      ++ (a.rx.cur.toList ++ a.rx.next.toList ++ a.rx.incoming.toList ++ a.rx.retired.toList).map (·.k.key)

/-- Does a frozen key switch name transmit half `i` (R267)? -/
def switchFrozen (s : State) (c : Line) (i : Nat) : Bool :=
  s.cmd.entries.any fun e => e.frozen && (match e.action with
    | .cmd => e.opcode == 0x0802 && lineOf e.p.carrier.toNat == c && bit (fld (paramBytes e.p) 0 4) i
    | .keSwitch d m => d == c && bit m i
    | _ => false)

/-- The carriers' limit (R263). -/
def useLimit (s : State) (c : Line) : Nat := s.parN 0x8000 c.inst

/-- A privileged SA enters or leaves clear sending (R266), as a running carrier's framer finds it: the first frame that leaves
in clear raises PRIV_CLEAR, and so does the first protected one after it. DESIGN CHOICE: a carrier that stops neither enters
nor leaves clear sending (log entry 181). -/
def privClear (c : Line) (s : State) : State :=
  if !carrierRuns s c then s
  else
    let x := getCry s c
    let c24 := blocked s c 24
    let c25 := blocked s c 25
    let s := updCry c (fun x => { x with clear24 := c24, clear25 := c25 }) s
    raiseIf (x.clear25 != c25) (lineEvt 0x80 c 6) (raiseIf (x.clear24 != c24) (lineEvt 0x80 c 6) s)

/-! ## Transmit halves (R263 to R265) -/

/-- Does a KEY_ZEROISE of transmit half `i` still wait in this commit window? It zeroises before the half switches, whichever
was accepted first (R269). -/
def zeroDue (s : State) (c : Line) (i : Nat) : Bool :=
  s.cmd.entries.any fun e =>
    e.frozen && e.execTick ≤ s.tick && e.action == .cmd && e.opcode == 0x0803 && (pktLines e.p).contains c
      && bit (fld (paramBytes e.p) 0 4) i && bit (byteAt (paramBytes e.p) 4) 0

/-- A transmit half switches at frame tick T, or misses its switch (R264, R269). -/
def switchHalf (c : Line) (s : State) (i : Nat) : State :=
  let h := (getSa s c i).tx
  match if zeroDue s c i then none else h.next with
  | none => bump (cryCnt c 8) s
  | some k =>
    let s := updTxH c i (fun h => { h with
      cur := some k, next := none, phase := !h.phase, count := 0, limited := false, warned := false }) s
    let s := raise (lineEvt 0x80 c 3) (bump (cryCnt c 6) s)
    raiseIf h.cur.isNone (lineEvt 0x80 c 2) s

/-- The transmit halves a bitmap names. -/
def saSet (mask : Nat) : List Nat := bitsSet 26 mask

/-- A key switch of the named halves (R267). -/
def switchHalves (c : Line) (mask : Nat) (s : State) : State := privClear c ((saSet mask).foldl (switchHalf c) s)

/-- Do all named halves hold a next key (R267)? -/
def switchReady (s : State) (c : Line) (mask : Nat) : Bool := (saSet mask).all fun i => (getSa s c i).tx.next.isSome

/-- A transmit half loses its keys: SA_BLOCKED when it was KEYED (R264). -/
def zeroTx (c : Line) (s : State) (i : Nat) : State :=
  let was := !blocked s c i
  raiseIf was (lineEvt 0x80 c 1)
    (updTxH c i (fun h => { h with cur := none, next := none, limited := false, warned := false }) s)

/-- A receive half loses its keys. -/
def zeroRx (c : Line) (s : State) (i : Nat) : State := updRxH c i (fun _ => {}) s

/-- KEY_ZEROISE takes effect on one carrier (R264). -/
def zeroiseNow (c : Line) (mask halves : Nat) (s : State) : State :=
  let s := if bit halves 0 then (saSet mask).foldl (zeroTx c) s else s
  privClear c (if bit halves 1 then (saSet mask).foldl (zeroRx c) s else s)

/-- Every key of both carriers is zeroised (R257): every SA enters Blocked. -/
def zeroiseAll (s : State) : State :=
  bothLines.foldl (fun s c => zeroiseNow c (2 ^ 26 - 1) 3 s) s

/-- A backward step zeroises every key, and every transmit half raises SA_BLOCKED, KEYED before or not (R58, R264). -/
def zeroiseStep (s : State) : State :=
  zeroiseAll (bothLines.foldl (fun s c => (List.range 26).foldl (fun s i => raiseIf (blocked s c i) (lineEvt 0x80 c 1) s) s) s)

/-- The message of frame tick F would make the count exceed the limit: the half is BLOCKED (R264). -/
def useLimitHit (c : Line) (i : Nat) (s : State) : State :=
  let h := (getSa s c i).tx
  if h.cur.isSome && useLimit s c ≤ h.count then
    privClear c (raise (lineEvt 0x80 c 1) (updTxH c i (fun h => { h with cur := none, limited := true, warned := false }) s))
  else s

/-- Would a message of SA `i` be formed in this tick: an equipped slot or a privileged field (R258)? -/
def carried (s : State) (c : Line) (i : Nat) : Bool :=
  24 ≤ i || (mapPt (s.par 0x6000 c.inst) i != 0 && i < (txMode s.params c).slots)

/-- A message is sent under a half's current key: counted, with the warning at nine tenths of the limit (R263). -/
def countMsg (c : Line) (i : Nat) (s : State) : State :=
  let n := (getSa s c i).tx.count + 1
  let w := (9 * useLimit s c + 9) / 10
  let due := w ≤ n && !(getSa s c i).tx.warned
  let s := bump (cryCnt c 0) (updTxH c i (fun h => { h with count := n, warned := h.warned || due }) s)
  raiseIf due (lineEvt 0x80 c 0) s

/-- Is an automatic switch of half `i` already scheduled? -/
def autoPending (s : State) (c : Line) (i : Nat) : Bool :=
  s.cmd.entries.any fun e => match e.action with
    | .autoSwitch d m => d == c && bit m i
    | _ => false

/-- Is an automatic switch of half `i` frozen (R265, R283)? -/
def autoFrozen (s : State) (c : Line) (i : Nat) : Bool :=
  s.cmd.entries.any fun e => e.frozen && (match e.action with
    | .autoSwitch d m => d == c && bit m i
    | _ => false)

/-- Does the condition for an automatic switch of half `i` hold (R265)? -/
def autoDue (s : State) (c : Line) (i : Nat) : Bool :=
  let h := (getSa s c i).tx
  s.parN 0x8001 c.inst == 1 && h.next.isSome && !autoPending s c i
    && (h.cur.isNone || useLimit s c ≤ h.count + 512)

/-- An entry the device makes on its own account: no place in the table, no completion (R265, R277). -/
def internalEntry (s : State) (a : Action) (t : Nat) : Entry :=
  { p := { q := 0 }, action := a, cls := .line, atTick := t, execTick := t, acceptNo := s.cmd.acceptNo,
    acceptTick := s.tick, internal := true }

/-- Add an entry of the device's own. -/
def addInternal (a : Action) (t : Nat) (s : State) : State :=
  { s with cmd := { s.cmd with
    entries := s.cmd.entries ++ [internalEntry s a t], acceptNo := s.cmd.acceptNo + 1 } }

/-- AUTO_SWITCH_SET, once for each half whose switch is scheduled (R265). -/
def autoSet (c : Line) (mask : Nat) (s : State) : State :=
  (saSet mask).foldl (fun s _ => raise (lineEvt 0x80 c 7) s) s

/-- The associations of a carrier whose automatic switch is due, bit i for association i (R265). -/
def autoMask (s : State) (c : Line) : Nat := maskOf 26 (autoDue s c)

/-- Schedule the automatic switches whose condition has arisen, at the smallest multiple of 256 at least 256 ticks on
(R265). -/
def autoSchedule (c : Line) (s : State) : State :=
  let m := autoMask s c
  if m = 0 then s else autoSet c m (addInternal (.autoSwitch c m) (roundUp 256 (s.tick + 256)) s)

/-! ## Receive halves (R261, R263) -/

/-- The key a frame's phase names, and whether it is the next key (R261). -/
def rxKeyFor (h : RxHalf) (q : Bool) : Option (RxKey × Nat) :=
  let phased (k : Option RxKey) : Option RxKey := k.filter fun x => x.phase == q
  match phased h.cur with
  | some k => some (k, 0)
  | none =>
    match phased h.retired with
    | some k => some (k, 1)
    | none => h.next.map fun k => (k, 2)

/-- The largest number of checks under a receive key (R263). -/
def checkLimit : Nat := 2 ^ 33 + 65536

/-- The IV of a message (R258). -/
def msgIv (k : Key) (ft : Nat) : Bytes := k.salt ++ be 8 ft

/-- Count a check under the key in place `n`. -/
def addCheck (c : Line) (i n : Nat) (s : State) : State :=
  let inc (k : Option RxKey) : Option RxKey := k.map fun x => { x with checks := x.checks + 1 }
  updRxH c i (fun h => match n with
    | 0 => { h with cur := inc h.cur }
    | 1 => { h with retired := inc h.retired }
    | _ => { h with next := inc h.next }) s

/-- The receive switch: the next key passed a frame of phase `q` (R261). -/
def rxSwitch (c : Line) (i : Nat) (q : Bool) (ft : Nat) (s : State) : State :=
  raise (lineEvt 0x80 c 4) (bump (cryCnt c 7) (updRxH c i (fun h => {
    h with
    cur := h.next.map fun k => { k with phase := q }, next := none, retired := h.cur, retireAfter := ft + 255 }) s))

/-- The key installed in this commit window becomes the next key of a receive half (R261, R269). -/
def takeIncoming (c : Line) (i : Nat) (s : State) : State :=
  updRxH c i (fun h => if h.incoming.isSome then { h with next := h.incoming, incoming := none, retired := none } else h) s

/-- Does this message switch a receive half to the next key it holds (R261)? -/
def switchesRx (h : RxHalf) (q : Bool) (ft : Nat) (aad ct tag : Bytes) : Bool :=
  match rxKeyFor h q with
  | some (k, n) => n == 2 && gcmTag k.k.key (msgIv k.k ft) aad ct == tag
  | none => false

/-- Check one message of a received frame (R261): result, plaintext on PASS, state. A key installed in the frame's own tick
replaces the next key before the check, or, where the frame switches to the next key, after the switch (R269). -/
def checkMsg (c : Line) (i : Nat) (q clear checked : Bool) (ft : Nat) (aad ct tag : Bytes) (s : State) :
    TagRes × Bytes × State :=
  if clear then (.farBlocked, [], bump (cryCnt c 5) s)
  else if !checked then (.notChecked, [], bump (cryCnt c 3) s)
  else
    let s := if switchesRx (getSa s c i).rx q ft aad ct tag then s else takeIncoming c i s
    match rxKeyFor (getSa s c i).rx q with
    | none => (.noKey, [], bump (cryCnt c 4) s)
    | some (k, n) =>
      let s := addCheck c i n s
      if gcmTag k.k.key (msgIv k.k ft) aad ct = tag then
        let s := bump (cryCnt c 1) (if n = 2 then takeIncoming c i (rxSwitch c i q ft s) else s)
        (.pass, gcmCrypt k.k.key (msgIv k.k ft) ct, s)
      else (.fail, [], cryOnce c 5 (bump (cryCnt c 2) s))

/-- A retired key is zeroised once the frame tick has passed its end (R261). -/
def retireKey (c : Line) (i : Nat) (s : State) : State :=
  let h := (getSa s c i).rx
  if h.retired.isSome && h.retireAfter < (getFrm s c).frameTick then updRxH c i (fun h => { h with retired := none }) s
  else s

/-- A receive key is zeroised at its check limit (R263). -/
def rxLimit (c : Line) (i : Nat) (s : State) : State :=
  let keep (k : Option RxKey) : Option RxKey := k.filter fun x => x.checks < checkLimit
  updRxH c i (fun h => { h with cur := keep h.cur, next := keep h.next, retired := keep h.retired }) s

/-! ## Key epochs (R270 to R273) -/

/-- One 16-byte record slot of R271: value, sequence, CRC, marker; none when it is not valid. -/
def recSlot (bs : Bytes) : Option (Nat × Nat) :=
  if fld bs 12 4 = 0xA5 ∧ fld bs 8 4 = crc32c (bs.take 8) then some (fld bs 0 4, fld bs 4 4) else none

/-- The valid record of two slots with the highest sequence: slot, value, sequence. -/
def recBest (s : State) (a0 a1 : Nat) : Option (Nat × Nat × Nat) :=
  match recSlot (flashRead s a0 16), recSlot (flashRead s a1 16) with
  | none, none => none
  | some x, none => some (0, x.1, x.2)
  | none, some y => some (1, y.1, y.2)
  | some x, some y => if x.2 < y.2 then some (1, y.1, y.2) else some (0, x.1, x.2)

/-- Are all 16 bytes of a record slot erased? -/
def recErased (s : State) (a : Nat) : Bool := (flashRead s a 16).all (· == 0xFF)

/-- Write a 16-byte record into the slot that does not hold the highest valid sequence (R271): none when the next
sequence would pass its range. -/
def recWrite (a0 a1 v : Nat) (s : State) : Option State :=
  let (slot, seq) := match recBest s a0 a1 with
    | none => (0, 0)
    | some (i, _, q) => (1 - i, q + 1)
  if 2 ^ 32 ≤ seq then none
  else
    let a := if slot = 0 then a0 else a1
    let b := le 4 v ++ le 4 seq
    some (flashProgram a (b ++ le 4 (crc32c b) ++ le 4 0xA5) (flashErase a 4096 s))

/-- Would the next write of a record fail for want of a sequence (R271)? -/
def recSpent (s : State) (a0 a1 : Nat) : Bool :=
  match recBest s a0 a1 with
  | some (_, _, q) => 2 ^ 32 ≤ q + 1
  | none => false

/-- The status of a block whose record could not be written: EPOCH_WRITE_FAIL. -/
def stEpochWriteFail : Nat := 0x1902

/-- Is the key `k` held, or pending installation (R257, R273)? -/
def keyDup (s : State) (k : Bytes) : Bool :=
  (heldKeys s).contains k || s.cry.installs.any fun x => x.key.key == k

/-- The checks of R273 in order; 0 when all pass. `pend` says whether pending installations count. -/
def installCheck (s : State) (x : Install) (pend : Bool) : Nat :=
  if s.cry.recordBad then stWrongState
  else if (if pend then keyDup s x.key.key else (heldKeys s).contains x.key.key) then 0x1802
  else if x.key.epoch ≤ s.cry.floor then 0x1901
  else if x.tx && switchFrozen s x.line x.sa then stWrongState
  else 0

/-- Is a write of a high-water mark at least `e` already queued? -/
def epochQueued (s : State) (e : Nat) : Bool :=
  s.flash.ops.any fun o => o.kind == .epochRecord && o.aux == e && o.aux2 == 0

/-- Queue an accepted installation: at once when its epoch is at most H, else after the record's write (R270, R273). -/
def addInstall (x : Install) (s : State) : State :=
  let ready : Bool := x.key.epoch ≤ s.cry.high
  let x := { x with due := if ready then some (s.elapsed + 8) else none }
  let s := { s with cry := { s.cry with installs := s.cry.installs ++ [x] } }
  if ready || epochQueued s x.key.epoch then s else flashAdd { kind := .epochRecord, aux := x.key.epoch } s

/-- Make an installation (R261, R270): the next key is set; a receive half's retired key is zeroised. Where a receive half
holds a next key, that one stays until the frame of the tick has been checked (R269). -/
def install (x : Install) (s : State) : State :=
  if x.tx then updTxH x.line x.sa (fun h => { h with next := some x.key }) s
  else updRxH x.line x.sa (fun h => if h.next.isNone then { h with next := some { k := x.key }, retired := none }
    else { h with incoming := some { k := x.key }, retired := none }) s

/-! ## Commands of group 0x8 (R283) -/

/-- CRY_STATUS. -/
def infoCryStatus : CmdInfo := { op := 0x0800, carriers := [1, 2], len := .fixed 16, desc := true }
/-- KEY_INSTALL. -/
def infoKeyInstall : CmdInfo := { op := 0x0801, long := true, carriers := [1, 2], len := .fixed 48 }
/-- KEY_SWITCH. -/
def infoKeySwitch : CmdInfo := { op := 0x0802, timed := true, carriers := [1, 2], len := .fixed 4 }
/-- KEY_ZEROISE. -/
def infoKeyZeroise : CmdInfo := { op := 0x0803, timed := true, carriers := [1, 2, 3], len := .fixed 5 }
/-- CRY_GCM_TEST. -/
def infoCryGcmTest : CmdInfo := { op := 0x4800, long := true, len := .fixed 76, desc := true }

/-- The 16 bytes of an SA in CRY_STATUS. -/
def saBytes (s : State) (c : Line) (i : Nat) : Bytes :=
  let a := getSa s c i
  let st := if a.tx.cur.isSome then 2 else b2n a.tx.limited
  let held (k : Option RxKey) : Nat := b2n k.isSome
  [byteOf st, byteOf (b2n a.tx.phase), byteOf (b2n a.tx.next.isSome + 2 * b2n (switchFrozen s c i || autoFrozen s c i)),
    byteOf (held a.rx.cur + 2 * held a.rx.next + 4 * held a.rx.retired + 8 * b2n (a.rx.cur.map (·.phase) == some true))]
    ++ le 4 ((a.tx.cur.map (·.epoch)).getD 0) ++ le 8 a.tx.count

/-- The 432 bytes of CRY_STATUS. -/
def cryStatusBytes (s : State) (c : Line) : Bytes := le 8 s.tick ++ zeros 8 ++ (List.range 26).flatMap (saBytes s c)

/-- The installation a KEY_INSTALL asks for. -/
def pktInstall (p : Packet) : Install :=
  let b := paramBytes p
  { owner := some (packetKey p), line := pktLine p, sa := byteAt b 0, tx := byteAt b 1 == 0, due := none,
    key := { key := slice b 16 32, salt := slice b 8 4, epoch := fld b 4 4 } }

/-- A tick of the GCM tests: 64 KiB of the first one's input; with the last of it the test is answered. -/
def gcmTestDone (s : State) : State :=
  match s.cry.gcmTest with
  | [] => s
  | (k, left, bs) :: rest =>
    if 65536 < left then { s with cry := { s.cry with gcmTest := (k, left - 65536, bs) :: rest } }
    else finish k (.data bs) { s with cry := { s.cry with gcmTest := rest } }

end Sys2Proof.Machine
end

