-- ==== Sys2Proof/Machine/Blocks.lean ====
section
/-! DEFINITION. Blocks.lean: 66-bit blocks, rate adapters, scramblers, block lock, test patterns (R226 to R237). -/
namespace Sys2Proof.Machine

/-! ## Blocks (R226): sync header 10 is the number 1, 01 the number 2 -/

/-- An idle block. -/
def idleBlk : Blk := { sync := 1, data := 0x1E }

/-- An error block: eight /E/ control characters. -/
def errorBlk : Blk := { sync := 1, data := 0x1E + ((List.range 8).map fun i => 0x1E * 2 ^ (8 + 7 * i)).foldl (· + ·) 0 }

/-- A fault block: the Local Fault ordered set. -/
def faultBlk : Blk := { sync := 1, data := 0x4B + 2 ^ 24 }

/-- The block type of a control block. -/
def Blk.ty (b : Blk) : Option Nat := if b.sync = 1 then some (b.data % 256) else none

/-- A start block. -/
def Blk.isStart (b : Blk) : Bool := b.ty == some 0x78

/-- Whether the stream is inside a packet after a block: a start block opens one; a terminate block, an idle block or an
ordered set ends it (R229); an error block that stands for a lost one does neither. -/
def pktAfter (inPkt : Bool) (b : Blk) : Bool :=
  if b.isStart then true else if b == errorBlk then inPkt else if b.ty.isSome then false else inPkt

/-! ## Rate adapters (R228 to R230) -/

/-- What an adapter did in a tick: idle blocks inserted and deleted, overflows and underflows inside a packet, and whether its
buffer was full or empty at all. -/
structure AdCount where
  ins : Nat := 0
  del : Nat := 0
  overs : Nat := 0
  under : Nat := 0
  slip : Bool := false
deriving DecidableEq, Repr

/-- The error block that closes the packet already passed on, once (R230). -/
def Adapter.closing (a : Adapter) : List Blk := if a.close then [errorBlk] else []

/-- A block arrives. When it finds the buffer full it is discarded with all that follow up to the next start block that finds
room, and the packet passed on is to be closed; an idle block so discarded is a deleted one (R240, R254). -/
def Adapter.push (cap : Nat) (a : Adapter) (n : AdCount) (b : Blk) : Adapter × AdCount :=
  let now := pktAfter a.inTake b
  let gone := { n with del := n.del + b2n (b == idleBlk) }
  if a.dropping && !b.isStart then ({ a with inTake := now }, gone)
  else if a.buf.length + a.closing.length < cap then
    ({ a with buf := a.buf ++ (a.closing ++ [b]), dropping := false, close := false, inTake := now }, n)
  else if a.dropping then ({ a with inTake := now }, gone)
  else ({ a with dropping := true, close := a.inTake, inTake := now },
    { gone with overs := n.overs + b2n (a.inTake || now), slip := true })

/-- A fault block takes a block's place (R241): the packet in progress is closed with one error block first. DESIGN CHOICE (log entry
179): under the fault signal the buffer is held at its target fill, so that data that is valid again follows without a slip. -/
def Adapter.fault (cap : Nat) (a : Adapter) : Adapter :=
  let a := { a with close := a.close || (a.inTake && !a.dropping), dropping := false, inTake := false }
  if a.buf.length + a.closing.length < cap then
    { a with buf := a.buf ++ (a.closing ++ [faultBlk]), close := false }
  else a

/-- The block at one output position. -/
def Adapter.emit (target : Nat) (a : Adapter) (n : AdCount) : Blk × Adapter × AdCount :=
  match a.buf with
  | [] =>
    if a.close then (errorBlk, { a with inPkt := false, close := false }, n)
    else if a.inPkt then
      (errorBlk, { a with inPkt := false, dropping := true }, { n with under := n.under + 1, slip := true })
    else (idleBlk, a, { n with ins := n.ins + 1, slip := true })
  | b :: rest =>
    let point := !a.inPkt || b.isStart
    if point && a.buf.length < target then (idleBlk, a, { n with ins := n.ins + 1 })
    else if point && target < a.buf.length && b == idleBlk then
      match rest with
      | [] => (idleBlk, { a with buf := [] }, n)
      | d :: rest => (d, { a with buf := rest, inPkt := pktAfter a.inPkt d }, { n with del := n.del + 1 })
    else (b, { a with buf := rest, inPkt := pktAfter a.inPkt b }, n)

/-- A tick of an adapter under way: the adapter, what it did, the blocks sent (newest first), whether fault blocks take the
place of what arrives. -/
structure AdRun where
  a : Adapter
  n : AdCount := {}
  acc : List Blk := []
  flt : Bool := false
deriving DecidableEq, Repr

/-- Several arrivals. -/
def AdRun.take (cap : Nat) (r : AdRun) (bs : List Blk) : AdRun :=
  bs.foldl (fun r b =>
    if r.flt then { r with a := r.a.fault (cap / 2) }
    else
      let (a, n) := r.a.push cap r.n b
      { r with a := a, n := n }) r

/-- One output position; toward the host (`host`) a slip inside a packet turns the rest of the tick's arrivals into fault
blocks (R240). -/
def AdRun.give (target : Nat) (host : Bool) (r : AdRun) : AdRun :=
  let (b, a, n) := r.a.emit target r.n
  { a := a, n := n, acc := b :: r.acc, flt := r.flt || (host && n.overs + n.under != 0) }

/-- One tick: `total` arrivals spread evenly over `out` output positions, position `j` next. -/
def adaptRun (cap target total out : Nat) (host : Bool) : Nat → Nat → List Blk → AdRun → AdRun
  | 0, _, arr, r => r.take cap arr
  | k + 1, j, arr, r =>
    let m := total * (j + 1) / out - total * j / out
    adaptRun cap target total out host k (j + 1) (arr.drop m) ((r.take cap (arr.take m)).give target host)

/-- A tick of an adapter of `k` slots with these arrivals and `out` output positions: the blocks sent, the adapter, what it
did; `flt`: fault blocks replace all the arrivals. -/
def Adapter.tick (k out : Nat) (host flt : Bool) (arr : List Blk) (a : Adapter) : List Blk × Adapter × AdCount :=
  let r := adaptRun (256 * k) (128 * k) arr.length out host out 0 arr { a := a, flt := flt }
  (r.acc.reverse, r.a, r.n)

/-- `n` fault blocks, the first of them an error block when a packet is in progress (R227). -/
def faultBlks (n : Nat) (inPkt : Bool) : List Blk :=
  if inPkt then errorBlk :: List.replicate (n - 1) faultBlk else List.replicate n faultBlk

/-- An adapter brought to its target fill (R240): the oldest blocks discarded, or idle blocks inserted; a packet that is so cut
short is closed. -/
def Adapter.toTarget (k : Nat) (a : Adapter) : Adapter :=
  let t := 128 * k
  let buf := if t < a.buf.length then a.buf.drop (a.buf.length - t)
    else List.replicate (t - a.buf.length) idleBlk ++ a.buf
  { a with inPkt := false, buf := if a.inPkt then errorBlk :: buf.tail else buf }

/-! ## Bits of a slot (R233 to R235) -/

/-- The number of a bit string, least significant first. -/
def unbitsLsb : List Bool → Nat
  | [] => 0
  | b :: bs => b2n b + 2 * unbitsLsb bs

/-- The bits of a byte string, most significant first (R258). -/
def bitsOf (bs : Bytes) : List Bool := bs.flatMap fun b => (bitsLsb 8 b.toNat).reverse

/-- One bit more of a byte string being packed: whole bytes newest first, the bits of the next byte and how many. -/
def packStep (r : Bytes × Nat × Nat) (b : Bool) : Bytes × Nat × Nat :=
  let v := 2 * r.2.1 + b2n b
  if r.2.2 = 7 then (byteOf v :: r.1, 0, 0) else (r.1, v, r.2.2 + 1)

/-- A bit string as bytes, most significant bit first, the last byte filled with zeros. -/
def packBits (bs : List Bool) : Bytes :=
  let (done, v, n) := bs.foldl packStep ([], 0, 0)
  (if n = 0 then done else byteOf (v * 2 ^ (8 - n)) :: done).reverse

/-- The feedback of the slot scrambler x^58 + x^39 + 1. -/
def scrTap (st : Nat) : Bool := xor (st.testBit 38) (st.testBit 57)

/-- The scrambler's state after the line bit `b`. -/
def scrShift (st : Nat) (b : Bool) : Nat := (2 * st + b2n b) % 2 ^ 58

/-- Scramble bits: the line bits newest first, and the state. -/
def scramble (st : Nat) (bs : List Bool) : List Bool × Nat :=
  let r := bs.foldl (fun (r : List Bool × Nat) b =>
    let o := xor b (scrTap r.2)
    (o :: r.1, scrShift r.2 o)) ([], st)
  (r.1.reverse, r.2)

/-- Descramble line bits. -/
def descramble (st : Nat) (bs : List Bool) : List Bool × Nat :=
  let r := bs.foldl (fun (r : List Bool × Nat) b => (xor b (scrTap r.2) :: r.1, scrShift r.2 b)) ([], st)
  (r.1.reverse, r.2)

/-- The 66 line bits of each block of a slot, payload scrambled. -/
def blkBits (st : Nat) (bs : List Blk) : List Bool × Nat :=
  let r := bs.foldl (fun (r : List Bool × Nat) b =>
    let (x, st) := scramble r.2 (bitsLsb 64 b.data)
    (x.reverse ++ ((bitsLsb 2 b.sync).reverse ++ r.1), st)) ([], st)
  (r.1.reverse, r.2)

/-- `n` bits of the pattern x^31 + x^28 + 1 and the register after them (R194). -/
def prbsBits (n : Nat) (st : Nat) : List Bool × Nat :=
  let r := (List.range n).foldl (fun (r : List Bool × Nat) _ =>
    let (o, x) := lfsrStep 31 28 r.2
    (o :: r.1, x)) ([], st)
  (r.1.reverse, r.2)

/-! ## Block lock (R237) -/

/-- One sync header of a slot: the slot after it. -/
def RxSlot.header (valid : Bool) (r : RxSlot) : RxSlot :=
  let n := if valid then r.goodRun + 1 else 0
  if r.locked then
    let w := (valid :: r.window).take 64
    if 16 ≤ (w.filter (!·)).length then { r with locked := false, goodRun := 0, window := [] }
    else { r with goodRun := n, window := w }
  else if 64 ≤ n then { r with locked := true, goodRun := n, window := [] }
  else { r with goodRun := n }

/-- What a slot delivers in a frame: its blocks, whether it was locked throughout, how often lock was lost or gained. -/
structure SlotOut where
  blks : List Blk := []
  locked : Bool := true
  losses : Nat := 0
  changes : Nat := 0
deriving DecidableEq, Repr

/-- Take the blocks of a slot's bit stream, at most `n` of them. -/
def lockRun (hunt : Bool) : Nat → List Bool → RxSlot → SlotOut → RxSlot × SlotOut
  | 0, bs, r, o => ({ r with carry := bs }, { o with blks := o.blks.reverse })
  | n + 1, bs, r, o =>
    let bs := bs.drop r.slip
    let r := { r with slip := 0 }
    if (bs.drop 65).isEmpty then ({ r with carry := bs }, { o with blks := o.blks.reverse })
    else
      let h := unbitsLsb (bs.take 2)
      let valid := h == 1 || h == 2
      let (d, scr) := descramble r.scr ((bs.drop 2).take 64)
      let was := r.locked
      let r := RxSlot.header valid { r with scr := scr }
      let move := hunt && !valid && !r.locked
      let r := if move then { r with cand := (r.cand + 1) % 66 } else r
      lockRun hunt n (bs.drop (if move then 67 else 66)) r {
        blks := { sync := h, data := unbitsLsb d } :: o.blks, locked := o.locked && r.locked,
        losses := o.losses + b2n (was && !r.locked), changes := o.changes + b2n (was != r.locked) }

/-- A frame that delivers a slot's data: in hunt mode it goes on behind the bits left of the frame before, or where none are
left at the candidate boundary (R237). -/
def RxSlot.frame (hunt : Bool) (bytes : Bytes) (r : RxSlot) : RxSlot × SlotOut :=
  if !hunt then lockRun false 3130 (bitsOf bytes) { r with cand := 0, slip := 0 } { locked := r.locked }
  else if r.carry.isEmpty then
    lockRun true 3130 ((bitsOf bytes).drop r.cand) { r with slip := 0 } { locked := r.locked }
  else lockRun true 3130 (r.carry ++ bitsOf bytes) r { locked := r.locked }

/-- A frame that delivers no data of the slot: the lock is reset (R237); the candidate boundary stays. -/
def RxSlot.none_ (r : RxSlot) : RxSlot := { r with locked := false, goodRun := 0, window := [], carry := [], slip := 0 }

/-- A PRBS slot's bits under way: the slot, its wrong bits of the frame, those since it synchronised. -/
structure PrbsRun where
  r : RxSlot
  err : Nat := 0
  bad : Nat := 0
deriving DecidableEq, Repr

/-- One bit of a PRBS slot: the register holds the last 31 bits; while synchronised it runs on its own, up to the 64th wrong
bit of the frame. -/
def prbsStep (x : PrbsRun) (b : Bool) : PrbsRun :=
  let r := x.r
  let want := xor (r.prbs.testBit 30) (r.prbs.testBit 27)
  if r.prbsSync then
    let bad := x.bad + b2n (b != want)
    let keep := decide (bad < 64)
    { r := { r with prbs := (2 * r.prbs + b2n want) % 2 ^ 31, prbsSync := keep, prbsRun := if keep then r.prbsRun else 0 },
      err := x.err + b2n (b != want), bad := if keep then bad else 0 }
  else
    let n := if b = want then r.prbsRun + 1 else 0
    { x with r := { r with prbs := (2 * r.prbs + b2n b) % 2 ^ 31, prbsRun := n, prbsSync := 31 ≤ n } }

/-- A frame of a PRBS slot (R235): its wrong bits counted. -/
def RxSlot.prbsFrame (bytes : Bytes) (r : RxSlot) : RxSlot × Nat :=
  let x := (bitsOf bytes).foldl prbsStep { r := r }
  (x.r, x.err)

end Sys2Proof.Machine
end

