-- ==== Sys2Proof/Machine/Pcs.lean ====
section
/-! DEFINITION. Pcs.lean: the client PCS between 66-bit blocks and the symbols of the host lanes (R225, R226, R243): scrambling,
256b/257b transcoding, RS(544,514), striping, alignment markers. The spec names these of IEEE 802.3 and gives the order; the
field, the generator, the flows and interleaved codewords, the marker period and the striping of each client type are PRESUMED of
802.3 (log entry 157); what the markers contain is open. -/
namespace Sys2Proof.Machine

/-! ## RS(544,514) over 10-bit symbols -/

/-- The product in GF(2^10) of x^10 + x^3 + 1. -/
def gfMul (a b : Nat) : Nat :=
  (List.range 10).foldr (fun i acc =>
    let d := 2 * acc
    let d := if 1024 ≤ d then (d ^^^ 0x409) % 1024 else d
    if b.testBit i then d ^^^ a else d) 0

/-- A power in the field. -/
def gfPow (a : Nat) : Nat → Nat
  | 0 => 1
  | n + 1 => gfMul a (gfPow a n)

/-- The inverse of a field element, 0 for 0. -/
def gfInv (a : Nat) : Nat := gfPow a 1022

/-- A polynomial, highest power first, at a point. -/
def gfEval (p : List Nat) (x : Nat) : Nat := p.foldl (fun acc c => gfMul acc x ^^^ c) 0

/-- A polynomial, highest power first, times x + r. -/
def timesRoot (p : List Nat) (r : Nat) : List Nat :=
  ((p ++ [0]).zip (0 :: p)).map fun (x : Nat × Nat) => x.1 ^^^ gfMul r x.2

/-- The generator with the roots a^0 to a^29, without its leading 1. -/
def rsGen : List Nat := ((List.range 30).foldl (fun p j => timesRoot p (gfPow 2 j)) [1]).tail

/-- The 30 parity symbols of 514 message symbols. -/
def rsParity (msg : List Nat) : List Nat :=
  msg.foldl (fun (reg : List Nat) m =>
    let f := m ^^^ reg.headD 0
    ((reg.tail ++ [0]).zip rsGen).map fun (x : Nat × Nat) => x.1 ^^^ gfMul f x.2) (List.replicate 30 0)

/-- The 30 syndromes of a word. -/
def rsSyndromes (w : List Nat) : List Nat := (List.range 30).map fun j => gfEval w (gfPow 2 j)

/-- The sum of two polynomials, lowest power first. -/
def gfAdd (p q : List Nat) : List Nat :=
  (List.range (max p.length q.length)).map fun i => p.getD i 0 ^^^ q.getD i 0

/-- The search for the shortest recurrence of the syndromes: the polynomial, the one before the last change of length, its
discrepancy, the steps since, the length. -/
structure RsSearch where
  c : List Nat := [1]
  b : List Nat := [1]
  d : Nat := 1
  gap : Nat := 1
  len : Nat := 0
deriving DecidableEq, Repr

/-- One syndrome more. -/
def RsSearch.step (syn : List Nat) (r : RsSearch) (n : Nat) : RsSearch :=
  let d := (List.range (r.len + 1)).foldl (fun acc i => acc ^^^ gfMul (r.c.getD i 0) (syn.getD (n - i) 0)) 0
  if d = 0 then { r with gap := r.gap + 1 }
  else
    let q := gfMul d (gfInv r.d)
    let c := gfAdd r.c (List.replicate r.gap 0 ++ r.b.map (gfMul q))
    if 2 * r.len ≤ n then { c := c, b := r.c, d := d, gap := 1, len := n + 1 - r.len }
    else { r with c := c, gap := r.gap + 1 }

/-- A polynomial, lowest power first, at a point. -/
def gfAt (p : List Nat) (x : Nat) : Nat := gfEval p.reverse x

/-- The errors of a word, each with its power of x and its value; none when the word is not correctable: more than 15 of
them, or roots that do not account for them. -/
def rsErrors (w : List Nat) : Option (List (Nat × Nat)) :=
  let syn := rsSyndromes w
  let r := (List.range 30).foldl (RsSearch.step syn) {}
  let at_ := (List.range w.length).filter fun i => gfAt r.c (gfInv (gfPow 2 i)) == 0
  if 15 < r.len ∨ at_.length ≠ r.len then none
  else
    let om := (List.range 30).map fun n =>
      (List.range (n + 1)).foldl (fun acc i => acc ^^^ gfMul (r.c.getD i 0) (syn.getD (n - i) 0)) 0
    let der := (List.range r.c.length).map fun i => if i % 2 = 0 then r.c.getD (i + 1) 0 else 0
    some (at_.map fun i =>
      let x := gfPow 2 i
      (i, gfMul x (gfMul (gfAt om (gfInv x)) (gfInv (gfAt der (gfInv x))))))

/-- A decoded word: its message symbols and how many symbols were corrected; none when it cannot be corrected. -/
def rsDecode (w : List Nat) : Option (List Nat × Nat) :=
  (rsErrors w).map fun es =>
    (((es.foldl (fun w e => w.modify (w.length - 1 - e.1) (· ^^^ e.2)) w).take 514), es.length)

/-! ## 256b/257b -/

/-- The block types of the client's PCS (R226). -/
def blkTypes : List Nat :=
  [0x1E, 0x2D, 0x33, 0x4B, 0x55, 0x66, 0x78, 0x87, 0x99, 0xAA, 0xB4, 0xCC, 0xD2, 0xE1, 0xFF]

/-- The bits of a 257-bit unit from four blocks with scrambled payloads: one bit when all are data; else which are, and the
first control block without bits 4 to 7 of its type. -/
def unitBits (bs : List (Bool × List Bool)) : List Bool :=
  if bs.all (·.1) then true :: bs.flatMap (·.2)
  else
    let c := (bs.map (·.1)).idxOf false
    false :: bs.map (·.1) ++ bs.zipIdx.flatMap fun x => if x.2 = c then x.1.2.take 4 ++ x.1.2.drop 8 else x.1.2

/-- The upper half of the block type with this lower half. -/
def typeHigh (low : List Bool) : List Bool :=
  bitsLsb 4 ((blkTypes.find? fun t => t % 16 == unbitsLsb low).getD 0 / 16)

/-- A block of a unit, `cut` being the one that lacks four bits; the descrambler runs on. -/
def unitBlk (cut data : Bool) (bits : List Bool) (st : Nat) : Blk × Nat :=
  let sync := if data then 2 else 1
  if cut then
    let (lo, st) := descramble st (bits.take 4)
    let (_, st) := scramble st (typeHigh lo)
    let (rest, st) := descramble st (bits.drop 4)
    ({ sync := sync, data := unbitsLsb (lo ++ (typeHigh lo ++ rest)) }, st)
  else
    let (d, st) := descramble st bits
    ({ sync := sync, data := unbitsLsb d }, st)

/-- The four blocks of a unit. -/
def unitBlks (u : List Bool) (st : Nat) : List Blk × Nat :=
  if u.headD false then
    (List.range 4).foldl (fun (a : List Blk × Nat) j =>
      let (b, st) := unitBlk false true ((u.drop (1 + 64 * j)).take 64) a.2
      (a.1 ++ [b], st)) ([], st)
  else
    let flags := (u.drop 1).take 4
    let c := flags.idxOf false
    (List.range 4).foldl (fun (a : List Blk × Nat) j =>
      let lo := 5 + 64 * j - if c < j then 4 else 0
      let (b, st) := unitBlk (j == c) (flags.getD j false) ((u.drop lo).take (if j = c then 60 else 64)) a.2
      (a.1 ++ [b], st)) ([], st)

/-! ## Codewords and lanes -/

/-- What the PCS of a client type has (PRESUMED, log entry 157: the spec names 400GBASE-R, 800GBASE-R and 1.6TBASE-R of IEEE 802.3):
flows among which the blocks are dealt, codewords interleaved in a flow, units the markers of a period take, units of a period. -/
structure PcsKind where
  flows : Nat
  words : Nat
  amUnits : Nat
  period : Nat
deriving DecidableEq, Repr

/-- The PCS of a client type (R222). -/
def pcsKind (ty : Nat) : PcsKind := match ty with
  | 2 => { flows := 2, words := 2, amUnits := 8, period := 163840 }
  | 3 => { flows := 1, words := 4, amUnits := 16, period := 327680 }
  | _ => { flows := 1, words := 2, amUnits := 8, period := 163840 }

/-- Every `k`-th entry of a list, from entry `i` on. -/
def dealt {α : Type} (k i : Nat) (xs : List α) : List α := (xs.zipIdx.filter fun x => x.2 % k == i).map (·.1)

/-- Lists taken an entry from each in turn, as long as all have one. -/
def weave {α : Type} : Nat → List (List α) → List α
  | 0, _ => []
  | n + 1, ls => if ls.isEmpty || ls.any (·.isEmpty) then [] else ls.filterMap List.head? ++ weave n (ls.map List.tail)

/-- Lists taken in turn to the end of the first. -/
def woven {α : Type} (ls : List (List α)) : List α := weave (ls.headD []).length ls

/-- The symbols of a bit string, the first bit least significant. -/
def symbolsOf (bits : List Bool) : List Nat :=
  (List.range (bits.length / 10)).map fun i => unbitsLsb ((bits.drop (10 * i)).take 10)

/-- The symbols of 20 units for each of the interleaved codewords. -/
def wordGroup (words : Nat) (units : List (List Bool)) : List Nat :=
  woven ((List.range words).map fun i =>
    let msg := dealt words i (symbolsOf units.flatten)
    msg ++ rsParity msg)

/-- Unit `i` of the markers of flow `f`. -/
def amUnit (k : PcsKind) (ty f i : Nat) : List Bool := bitsLsb 257 (Config.markerUnit ty (k.amUnits * f + i)).toNat

/-- One unit more on the way to the lanes. -/
def TxFlow.unit (k : PcsKind) (u : List Bool) (p : TxFlow) : TxFlow :=
  let us := p.units ++ [u]
  let p := { p with units := us, count := (p.count + 1) % k.period }
  if us.length < 20 * k.words then p else { p with units := [], syms := p.syms ++ wordGroup k.words us }

/-- The markers come first in each period. -/
def TxFlow.markers (k : PcsKind) (ty f : Nat) (p : TxFlow) : TxFlow :=
  if p.count = 0 then (List.range k.amUnits).foldl (fun p i => p.unit k (amUnit k ty f i)) p else p

/-- One block more toward the host in a flow: scrambled; four make a unit. A block without a valid sync header leaves as an error
block. -/
def TxFlow.block (k : PcsKind) (ty f : Nat) (b : Blk) (p : TxFlow) : TxFlow :=
  let b := if b.sync = 1 ∨ b.sync = 2 then b else errorBlk
  let (bits, st) := scramble p.scr (bitsLsb 64 b.data)
  let g := p.group ++ [(b.sync == 2, bits)]
  if g.length < 4 then { p with scr := st, group := g }
  else ({ p with scr := st, group := [] }.markers k ty f).unit k (unitBits g)

/-- One block more toward the host. -/
def PcsTx.block (k : PcsKind) (ty : Nat) (p : PcsTx) (b : Blk) : PcsTx :=
  { flows := lmod p.flows p.next (TxFlow.block k ty p.next b), next := (p.next + 1) % k.flows }

/-- A tick's blocks toward the host. -/
def PcsTx.run (k : PcsKind) (ty : Nat) (bs : List Blk) (p : PcsTx) : PcsTx :=
  bs.foldl (PcsTx.block k ty) { p with flows := p.flows.map fun f => { f with syms := [] } }

/-- The symbols of lane `i` of `n` out of those of the flows that carry any, inverted where the lane's polarity is (R249). -/
def laneSyms (n i : Nat) (invert : Bool) (flows : List (List Nat)) : List Nat :=
  (woven ((flows.filter (!·.isEmpty)).map (dealt n i))).map fun x => if invert then x ^^^ 1023 else x

/-- What a client's ingress decodes in a tick: its blocks, corrected symbols, uncorrectable codewords. -/
structure PcsOut where
  blks : List Blk := []
  corrected : Nat := 0
  uncorr : Nat := 0
deriving DecidableEq, Repr

/-! ## Markers and deskew (R225) -/

/-- The symbols by which lane `i` of `n` knows its marker: its share of the whole symbols of the markers' units. -/
def laneMark (k : PcsKind) (ty n i : Nat) : List Nat :=
  laneSyms n i false ((List.range k.flows).map fun f =>
    let syms := symbolsOf ((List.range k.amUnits).flatMap (amUnit k ty f))
    syms.take (syms.length / n * n))

/-- Symbols of a lane from one marker to the next. -/
def lanePeriod (k : PcsKind) (n : Nat) : Nat := k.flows * (k.period / 20 * 544) / max 1 n

/-- A symbol more of a lane (R225). PRESUMED (log entry 157): a marker found where none was known is confirmed by the next at its place;
five missed in a row lose the lane. -/
def LaneRx.symbol (mark : List Nat) (period : Nat) (l : LaneRx) (x : Nat) : LaneRx :=
  let l := { l with tail := lastN (max mark.length 8192) (l.tail ++ [x]), since := l.since.map (· + 1) }
  let hit := lastN mark.length l.tail == mark
  match l.since with
  | none => if hit then { l with since := some mark.length, missed := 0 } else l
  | some d =>
    if d < period + mark.length then l
    else if hit then { l with since := some mark.length, lock := true, missed := 0 }
    else if l.lock && l.missed < 4 then { l with since := some mark.length, missed := l.missed + 1 }
    else {}

/-- The lanes' symbols since their last markers, where every lane is locked and the skew is at most 180 ns: symbols of 10 bits at
212.5 or 106.25 Gb/s. -/
def deskew (fast : Bool) (ls : List LaneRx) : Option (List Nat) :=
  let d := ls.filterMap (·.since)
  let lim := if fast then 3825 else 1912
  if ls.all (·.lock) && d.length == ls.length && d.foldl max 0 ≤ d.foldl min (d.headD 0) + lim then some d else none

/-! ## Decoding (R225, R226) -/

/-- One unit of a flow from the lanes: a marker, which leaves four places without a block, or four blocks; error blocks where its
codeword could not be corrected (R226). -/
def RxFlow.unit (k : PcsKind) (ok : Bool) (r : RxFlow × List (Option Blk)) (u : List Bool) : RxFlow × List (Option Blk) :=
  let (p, out) := r
  let n := p.count
  let p := { p with count := (n + 1) % k.period }
  if n < k.amUnits then (p, out ++ List.replicate 4 none)
  else
    let (bs, st) := unitBlks u p.scr
    ({ p with scr := st }, out ++ (if ok then bs else List.replicate 4 errorBlk).map some)

/-- The interleaved codewords of a flow decoded: the flow, its block places, symbols corrected, which codewords failed. -/
def RxFlow.group (k : PcsKind) (syms : List Nat) (p : RxFlow) : RxFlow × List (Option Blk) × Nat × List Bool :=
  let ws := (List.range k.words).map fun i => dealt k.words i syms
  let ds := ws.map rsDecode
  let msg := woven ((ws.zip ds).map fun x => (x.2.map (·.1)).getD (x.1.take 514))
  let bits := msg.flatMap (bitsLsb 10)
  let ok := ds.all (·.isSome)
  let (p, out) := ((List.range (20 * k.words)).map fun j => (bits.drop (257 * j)).take 257).foldl (RxFlow.unit k ok) (p, [])
  (p, out, (ds.map fun d => (d.map (·.2)).getD 0).foldl (· + ·) 0, ds.map (·.isNone))

/-- A group of codewords of every flow, `lanes` the symbols of each lane that make it. -/
def PcsRx.group (k : PcsKind) (lanes : List (List Nat)) (r : PcsRx × PcsOut) : PcsRx × PcsOut :=
  let (p, o) := r
  let gs := (List.range k.flows).map fun f =>
    (p.flows.getD f {}).group k (woven (lanes.map (dealt k.flows f)))
  let bad := gs.flatMap (·.2.2.2)
  ({ p with
      flows := gs.map (·.1) ++ p.flows.drop k.flows, held := p.held ++ woven (gs.map (·.2.1)),
      bad := bad.foldl (fun n b => if b then n + 1 else if n < 3 then 0 else n) p.bad },
   { o with
      corrected := o.corrected + (gs.map (·.2.2.1)).foldl (· + ·) 0, uncorr := o.uncorr + (bad.filter id).length })

/-- Every whole group among the symbols that wait. -/
def PcsRx.decode (k : PcsKind) (n : Nat) (p : PcsRx) : PcsRx × PcsOut :=
  let per := k.flows * k.words * 544 / max 1 n
  let groups := if per = 0 then 0 else (p.lanes.map List.length).foldl min ((p.lanes.headD []).length) / per
  let lanes := p.lanes
  (List.range groups).foldl (fun r j => PcsRx.group k (lanes.map fun l => (l.drop (per * j)).take per) r)
    ({ p with lanes := lanes.map (·.drop (per * groups)) }, {})

/-- The blocks leave at the pace at which their symbols come, 80 places for 544 symbols, the first a group of codewords late, so that
what is decoded in whole codewords reaches the rate adapter evenly (R231, R232). -/
def PcsRx.pace (k : PcsKind) (come : Nat) (p : PcsRx) : List Blk × PcsRx :=
  let come := p.come + come
  let n := come * 5 / 34 - k.flows * k.words * 80 - p.gone
  let n := min n p.held.length
  ((p.held.take n).filterMap id, { p with come := come, gone := p.gone + n, held := p.held.drop n })

/-- The lanes come to hold their markers and the deskew: decoding begins with the group of codewords in which the latest lane is. -/
def PcsRx.begin_ (k : PcsKind) (n : Nat) (d : List Nat) (p : PcsRx) : PcsRx :=
  let per := max 1 (k.flows * k.words * 544 / max 1 n)
  let q := d.foldl min (d.headD 0) / per
  let lanes := (p.marks.zip d).map fun x => lastN (x.2 - q * per) x.1.tail
  { marks := p.marks, up := true, lanes := lanes, come := (lanes.map List.length).foldl (· + ·) 0,
    flows := List.replicate 2 { count := q * 20 * k.words % k.period } }

/-- A tick's symbols from the lanes, each a list (R225), the first `fast` at 212.5 Gb/s; `clock` is whether every lane's clock is
recovered. PRESUMED (log entry 157): a lane that loses its markers, or three uncorrectable codewords in a row, end the
alignment, and the lanes hunt anew. -/
def PcsRx.run (ty rate : Nat) (clock : Bool) (lanes : List (List Nat)) (p : PcsRx) : PcsRx × PcsOut :=
  let k := pcsKind ty
  let n := lanes.length
  let marks := lanes.zipIdx.map fun l =>
    l.1.foldl (LaneRx.symbol (laneMark k ty n l.2) (lanePeriod k n)) (p.marks.getD l.2 {})
  if p.up then
    let come := (lanes.map List.length).foldl (· + ·) 0
    let wait := (List.range n).map fun i => p.lanes.getD i [] ++ lanes.getD i []
    let (p, o) := PcsRx.decode k n { p with marks := marks, lanes := wait }
    let (bs, p) := p.pace k come
    let holds := clock && marks.all (·.lock)
    (if !holds then { marks := marks } else if 3 ≤ p.bad then {} else p, { o with blks := bs })
  else
    let p := { p with marks := marks }
    match if clock && n != 0 then deskew (rate == 1) marks else none with
    | some d => (p.begin_ k n d, {})
    | none => (p, {})

end Sys2Proof.Machine
end

