-- ==== Sys2Proof/Machine/Client.lean ====
section
/-! DEFINITION. Client.lean: host lanes and clients (group 0x7, R221 to R254). -/
namespace Sys2Proof.Machine

/-- Client `i`. -/
def getCli (s : State) (i : Nat) : Client := s.cli.clients.getD i {}

/-- Change client `i`. -/
def updCli (i : Nat) (f : Client → Client) (s : State) : State :=
  { s with cli := { s.cli with clients := lmod s.cli.clients i f } }

/-- The first counter of a client's list (R254). -/
def cliCnt (i n : Nat) : Nat := 448 + 18 * i + n

/-- Raise an event of the group at most once per tick. -/
def cliOnce (e : Nat) (s : State) : State :=
  if s.cli.once.contains e then s else raise e { s with cli := { s.cli with once := e :: s.cli.once } }

/-- A client's carrier. -/
def View.cliLine (v : View) (i : Nat) : Line := lineOf (v.parN 0x7001 (0x40 + i))

/-- The slots of a client type (R222). -/
def typeSlots (t : Nat) : Nat := (ptSlots t).getD 0

/-- Is a client's own placement allowed: rate supported, first lane a multiple of the count, within the 32 lanes? -/
def View.placeOk (v : View) (i : Nat) : Bool :=
  match v.cliLanes i with
  | none => false
  | some n => v.parN 0x7002 (0x40 + i) % n == 0 && v.parN 0x7002 (0x40 + i) + n ≤ 32

/-- Do two clients share no lane, and no quad at different rates (R223)? -/
def View.pairOk (v : View) (i j : Nat) : Bool :=
  (v.laneSet i).all fun x => (v.laneSet j).all fun y =>
    x != y && (x / 4 != y / 4 || v.parN 0x7003 (0x40 + i) == v.parN 0x7003 (0x40 + j))

/-- The lane conditions of R223. -/
def View.lanesOk (v : View) : Bool :=
  v.cliOn.all v.placeOk && v.cliOn.all fun i => v.cliOn.all fun j => i == j || v.pairOk i j

/-- Does a carrier's transmit slot map agree with the clients (R224)? -/
def View.clientsOk (v : View) (c : Line) : Bool :=
  let m := v.par 0x6000 c.inst
  (List.range 24).all fun i =>
    !ptClient (mapPt m i) || (mapIx m i / 16 ≤ 11 && v.cliType (mapIx m i / 16) == mapPt m i
      && v.cliLine (mapIx m i / 16) == c)

/-- Is client `i` configured? -/
def cliOn (s : State) (i : Nat) : Bool := View.cliType s.params i != 0

/-- The carrier of client `i`. -/
def cliLine (s : State) (i : Nat) : Line := View.cliLine s.params i

/-- The slots of a client's type. -/
def cliK (s : State) (i : Nat) : Nat := typeSlots (View.cliType s.params i)

/-- The transmit slots client `i` holds. -/
def cliTxSlots (s : State) (i : Nat) : List Nat := mapSlots (s.par 0x6000 (cliLine s i).inst) i

/-- The received slots client `i` takes (R236): those whose accepted index is its own, whatever their payload type. -/
def cliRxSlots (s : State) (i : Nat) : List Nat :=
  (List.range 24).filter fun j => mapIx (accMapOf s (cliLine s i)) j / 16 == rxParN s 0x7004 (0x40 + i)

/-! ## Lane power (R221) -/

/-- The configured client that owns a lane. -/
def laneOwner (s : State) (lane : Nat) : Option Nat :=
  (View.cliOn s.params).find? fun i => (View.laneSet s.params i).contains lane

/-- Is a lane powered: owned by a client that runs or is brought up (R221, R247)? -/
def lanePowered (s : State) (lane : Nat) : Bool :=
  (laneOwner s lane).any fun i => (getCli s i).lanesUp || (getCli s i).disrupt

/-- Is a lane's TX output driven, not held at common mode? -/
def laneDriven (s : State) (lane : Nat) : Bool :=
  (laneOwner s lane).any fun i => (getCli s i).lanesUp && !(getCli s i).squelch

/-- Every lane's power and output follow its owner; a lane without power has no clock recovery. -/
def lanesNow (s : State) : State :=
  let mask (f : Nat → Bool) : Nat := (List.range 32).foldl (fun m l => m + if f l then 2 ^ l else 0) 0
  { s with cli := { s.cli with
    powered := mask (lanePowered s), driven := mask (laneDriven s), laneOk := s.cli.laneOk &&& mask (lanePowered s) } }

/-! ## Squelch and fault signal (R241, R242, R247) -/

/-- Are a client's TX lanes to be squelched: its fault mode, a disruptive sequence before its lanes run, or the STANDBY
role of the mate link (R242)? -/
def squelchWanted (s : State) (i : Nat) : Bool :=
  let x := getCli s i
  cliOn s i && ((match x.faultSince with
    | none => false
    | some t => rxParN s 0x7005 (0x40 + i) == 1
        || (rxParN s 0x7005 (0x40 + i) == 2 && t + rxParN s 0x7006 (0x40 + i) ≤ s.elapsed))
    || (x.disrupt && !x.lanesUp)
    || (s.parN 0xB010 0 == 1 && !s.mate.active && bit (s.parN 0xB012 0) i))

/-- Bring a client's squelch up to date, and the lanes with it (R221, R242); a client that is not configured stays as the change that
took it away left it. -/
def setSquelch (s : State) (i : Nat) : State :=
  let was := (getCli s i).squelch
  let w := if cliOn s i then squelchWanted s i else was
  raiseIf (was != w) 0x78 (lanesNow (updCli i (fun x => { x with squelch := w }) s))

/-- CLIENT_UP once a changed client is aligned and its egress carries valid data (R247). -/
def checkUp (s : State) (i : Nat) : State :=
  let x := getCli s i
  if x.pendUp && x.aligned && x.faultSince.isNone && x.lanesUp && cliOn s i then
    raise 0x7A (updCli i (fun x => { x with pendUp := false }) s)
  else s

/-- The client's data of a frame tick is valid or not: the fault signal starts and ends with it (R241). -/
def setFault (i : Nat) (valid : Bool) (s : State) : State :=
  let was := (getCli s i).faultSince
  let s :=
    if valid then
      if was.isSome then raise 0x77 (updCli i (fun x => { x with faultSince := none }) s) else s
    else if was.isNone then raise 0x77 (updCli i (fun x => { x with faultSince := some s.elapsed }) s)
    else s
  checkUp (setSquelch s i) i

/-- A disruptive change of a client executes (R247 step 1): squelched, with the fault signal on while it stays configured; with the
client taken away its fault signal ends. -/
def clientDisrupt (i : Nat) (s : State) : State :=
  let x := getCli s i
  let on := cliOn s i
  let s := updCli i (fun x => { x with
    disrupt := on, lanesUp := false, pendUp := on, disruptAt := s.elapsed, aligned := false, ing := {}, egr := {},
    pcsTx := {}, pcsRx := {}, editIn := [], editOut := [], laneOut := [], arr := [], arrAcc := 0, takeAcc := 0, squelch := true,
    faultSince := if on then some (x.faultSince.getD s.elapsed) else none }) s
  let s := raise 0x7B s
  let s := raiseIf x.aligned 0x70 s
  let s := raiseIf (x.faultSince.isSome != on) 0x77 s
  raiseIf (!x.squelch) 0x78 (lanesNow s)

/-- The clients of a carrier have no valid data in this tick any more (R67, R239). -/
def clientsFault (c : Line) (s : State) : State :=
  ((View.cliOn s.params).filter fun i => cliLine s i == c).foldl
    (fun s i => setFault i false (updCli i (fun x => { x with arr := [] }) s)) s

/-- LANE_RETUNE_DONE: the TX lanes run, on a carrier that runs, and the fault signal replaces the squelch (R247 step 3,
R464). -/
def laneRetuned (i : Nat) (s : State) : State :=
  if (getCli s i).disrupt then
    setSquelch (updCli i (fun x => { x with disrupt := false, lanesUp := carrierRuns s (cliLine s i) }) s) i
  else s

/-! ## Ingress (R225 to R227) -/

/-- The ingress alignment of a client changes to what its PCS has found (R225). -/
def ingressAlign (i : Nat) (v : Bool) (s : State) : State :=
  if cliOn s i && (getCli s i).pcsRx.up == v && (getCli s i).aligned != v then
    checkUp (raise 0x70 (updCli i (fun x => { x with aligned := v }) s)) i
  else s

/-- Do all of a client's RX lanes hold clock recovery? -/
def cliSignal (s : State) (i : Nat) : Bool := (View.laneSet s.params i).all (bit s.cli.laneOk)

/-- Count what an adapter did, `d` being 0 at ingress and 1 at egress; ADAPT_SLIP at most once per tick (R230). -/
def countAdapter (i d : Nat) (n : AdCount) (s : State) : State :=
  let add (k v : Nat) (s : State) : State := if v = 0 then s else bumpBy (cliCnt i k) v s
  let s := add (2 + d) n.ins (add (4 + d) n.del (add (6 + d) n.overs (add (8 + d) n.under s)))
  if n.overs = 0 ∧ n.under = 0 then s else cliOnce 0x75 s

/-- The blocks of a packet whose byte 0 follows /S/ (R245): start, data, terminate. -/
def pktBlks (pkt : Bytes) : List Blk :=
  let body := pkt.drop 7
  let whole := body.length / 8
  let r := body.length % 8
  let term := [0x87, 0x99, 0xAA, 0xB4, 0xCC, 0xD2, 0xE1, 0xFF].getD r 0
  { sync := 1, data := 0x78 + 256 * unle (pkt.take 7) }
    :: ((List.range whole).map fun i => ({ sync := 2, data := unle (slice body (8 * i) 8) } : Blk))
    ++ [{ sync := 1, data := term + 256 * unle (body.drop (8 * whole)) }]

/-- One block of a stream whose packets get one-step timestamps (R246): a packet is known by its blocks as far as they have
come, and replaced by the new ones. -/
def editStep (q : List (List (Blk × Blk))) (b : Blk) (rest : List Blk) : Blk × List (List (Blk × Blk)) :=
  let put (es : List (Blk × Blk)) (q : List (List (Blk × Blk))) : List (List (Blk × Blk)) :=
    if es.isEmpty then q else es :: q
  match q with
  | ((o, n) :: es) :: more =>
    if !o.isStart then if o == b then (n, put es more) else (b, more)
    else if !b.isStart then (b, q)
    else
      match q.findIdx? fun e => (e.zip (b :: rest)).all fun x => x.1.1 == x.2 with
      | none => (b, q)
      | some i =>
        let e := q.getD i []
        (((e.head?).map (·.2)).getD b, put e.tail (q.eraseIdx i))
  | _ => (b, q)

/-- A tick's blocks of such a stream. -/
def editRun : List (List (Blk × Blk)) → List Blk → List Blk × List (List (Blk × Blk))
  | q, [] => ([], q)
  | q, b :: bs =>
    let (n, q) := editStep q b bs
    let (out, q) := editRun q bs
    (n :: out, q)

/-- What a client's PCS finds and decodes in its lanes' symbols, inverted where the lane's polarity is (R225, R249): a lane without
clock recovery holds no markers. -/
def pcsIn (i : Nat) (x : CliIn) (s : State) : PcsOut × State :=
  let first := s.parN 0x7002 (0x40 + i)
  let n := (View.cliLanes s.params i).getD 0
  let lanes := (List.range n).map fun l =>
    let y := if bit s.cli.laneOk (first + l) then x.lanes.getD l [] else []
    if bit (s.parN 0x7101 (0x80 + first + l)) 1 then y.map (· ^^^ 1023) else y
  let c := getCli s i
  let (p, o) := c.pcsRx.run (View.cliType s.params i) (s.parN 0x7003 (0x40 + i)) (cliSignal s i) lanes
  let (blks, q) := editRun c.editIn o.blks
  ({ o with blks := blks }, updCli i (fun c => { c with pcsRx := p, editIn := q }) s)

/-- A client's ingress in one tick: the blocks of its frame and whether they are valid data (R225 to R228). -/
def ingressTick (i : Nat) (x : CliIn) (s : State) : List Blk × Bool × State :=
  let k := cliK s i
  let s := ingressAlign i (getCli s i).pcsRx.up s
  let c := getCli s i
  let (o, s) := pcsIn i x s
  let s := if o.corrected = 0 then s else bumpBy (cliCnt i 0) o.corrected s
  let s := if o.uncorr = 0 then s else cliOnce 0x71 (bumpBy (cliCnt i 1) o.uncorr s)
  let s := updCli i (fun c => { c with corrected := c.corrected + o.corrected, uncorr := c.uncorr + o.uncorr }) s
  if (cliTxSlots s i).isEmpty then
    ([], false, if c.aligned && !o.blks.isEmpty then bumpBy (cliCnt i 10) o.blks.length s else s)
  else
    let (out, a, n) := c.ing.tick k (3128 * k) false false o.blks
    let ok := c.aligned && !c.disrupt && !n.slip
    let s := countAdapter i 0 n (updCli i (fun c => { c with
      ing := if ok then a else { a with inPkt := false }, ins := c.ins + n.ins }) s)
    (if ok then out else faultBlks (3128 * k) c.ing.inPkt, ok, s)

/-! ## Egress (R236 to R241) -/

/-- The slot of order `o` among some slots of a map. -/
def slotOrder (m : Bytes) (own : List Nat) (o : Nat) : Option Nat := own.find? fun j => mapIx m j % 16 == o

/-- Does a mismatch of R236 hold for client `i`? -/
def rxMismatch (s : State) (i : Nat) : Bool :=
  let m := accMapOf s (cliLine s i)
  let own := cliRxSlots s i
  let k := cliK s i
  cliOn s i && !own.isEmpty
    && (own.any (fun j => mapPt m j != View.cliType s.params i) || own.length != k
      || !(List.range k).all fun o => (slotOrder m own o).isSome)

/-- Note a mismatch that begins in this frame (R236). -/
def noteMismatch (i : Nat) (s : State) : State :=
  let w := rxMismatch s i
  let was := (getCli s i).mismatch
  raiseIf (w && !was) 0x76 (updCli i (fun x => { x with mismatch := w }) s)

/-- `n` rounds of one block from each list in turn; fault blocks where a list has ended. -/
def interleave : Nat → List (List Blk) → List Blk
  | 0, _ => []
  | n + 1, xs => xs.map (·.headD faultBlk) ++ interleave n (xs.map List.tail)

/-- The blocks of a frame for client `i` from its slots' blocks (R233). -/
def gather (s : State) (i : Nat) (outs : List SlotOut) : List Blk :=
  let m := accMapOf s (cliLine s i)
  let own := cliRxSlots s i
  let k := cliK s i
  interleave 3128 ((List.range k).map fun o => match slotOrder m own o with
    | some j => (outs.getD j {}).blks
    | none => [])

/-- A received frame reaches client `i` (R239): `deliv` says which slots delivered data, `outs` their blocks. Its blocks, fault blocks
where it has no valid data, wait for the egress to take them. -/
def clientFrame (deliv : Nat) (outs : List SlotOut) (s : State) (i : Nat) : State :=
  let c := cliLine s i
  let s := noteMismatch i s
  let own := cliRxSlots s i
  let x := getCli s i
  let ok := cliOn s i && !own.isEmpty && !x.mismatch && !x.disrupt && !lineFault s c && !s.sys.deviceFault && !(s.tx.get c).disrupt
    && own.all (fun j => bit deliv j && !bit (tribFault s c) j && (outs.getD j {}).locked)
  let k := cliK s i
  let bs := if ok then (gather s i outs).map fun b => (true, b) else List.replicate (3128 * k) (false, faultBlk)
  setFault i ok (updCli i (fun x => { x with arr := x.arr ++ bs }) s)

/-- What the TX lanes send of a client's blocks (R243): one-step timestamps in place, through the PCS, striped; nothing on
lanes held at common mode. -/
def pcsOut (i : Nat) (bs : List Blk) (s : State) : State :=
  let x := getCli s i
  let n := ((View.cliLanes s.params i).getD 0)
  let (bs, q) := editRun x.editOut bs
  let p := x.pcsTx.run (pcsKind (View.cliType s.params i)) (View.cliType s.params i) bs
  let first := s.parN 0x7002 (0x40 + i)
  let lane (l : Nat) : List Nat :=
    if bit s.cli.driven (first + l) then laneSyms n l (bit (s.parN 0x7101 (0x80 + first + l)) 0) (p.flows.map (·.syms)) else []
  updCli i (fun x => { x with out := bs, editOut := q, pcsTx := p, laneOut := (List.range n).map lane }) s

/-- The blocks that come to a client's egress in a tick, out of those that wait (R228, R239): 3,128 for each slot in a frame's symbols,
as many symbols as the receiver has had in the tick, a whole frame's where it has none. DEDUCED: the frame layer works whole
frames, the demapper hands blocks over at the far clock's pace. -/
def arrivals (i : Nat) (s : State) : List (Bool × Blk) × State :=
  let x := getCli s i
  let c := cliLine s i
  let n := max 1 (s.parN 0x4000 c.inst)
  let m := if (getRx s c).eqOut.isEmpty then n else (getRx s c).eqOut.length
  let acc := x.arrAcc + m * (3128 * cliK s i)
  (x.arr.take (acc / n), updCli i (fun x => { x with arr := x.arr.drop (acc / n), arrAcc := acc % n }) s)

/-- The blocks a client's TX lanes take in a tick (R228, R361): 3,125 for each slot in a tick of the nominal rate, at the rate of the
lane PLL of its first quad, steered or on HREFCLK alone, against the timescale's. -/
def laneTakes (i : Nat) (href : Int) (s : State) : Nat × State :=
  let q := s.parN 0x7002 (0x40 + i) / 4
  let rate := if s.parN 0x2015 (0x30 + q) = 1 then s.tm.quads.getD q 0 else href
  let acc := (getCli s i).takeAcc + 3125 * cliK s i * (1000000000000 + rate).toNat
  let per := max 1 (1000000000000 + s.tm.control).toNat
  (acc / per, updCli i (fun x => { x with takeAcc := acc % per }) s)

/-- The runs of equal validity in what arrives. -/
def validRuns : List (Bool × Blk) → List (Bool × List Blk)
  | [] => []
  | (v, b) :: rest =>
    match validRuns rest with
    | [] => [(v, [b])]
    | (w, bs) :: more => if v = w then (v, b :: bs) :: more else (v, [b]) :: (w, bs) :: more

/-- One run of arrivals passes the adapter while the lanes take `out` blocks: fault blocks where it is not valid (R240, R241). A slip
inside a packet makes the rest of the run fault blocks, and the adapter is brought to its target before the next run. -/
def egressRun (i : Nat) (r : List Blk × State) (v : Bool) (bs : List Blk) (out : Nat) : List Blk × State :=
  let (sent, s) := r
  let k := cliK s i
  let x := getCli s i
  let ok := v && !s.sys.deviceFault
  let (o, a, n) := (if x.reset_ then x.egr.toTarget k else x.egr).tick k out true (!ok) bs
  let slip := ok && n.overs + n.under != 0
  let s := countAdapter i 1 n (updCli i (fun x => { x with egr := a, reset_ := slip, del := x.del + n.del }) s)
  (sent ++ o, if ok && !slip then s else setFault i false s)

/-- The egress of client `i` in one tick: the blocks that have come, or fault blocks, pass the adapter; the TX lanes take theirs
(R228, R240, R241). A tick in which nothing has come takes what the adapter holds. -/
def egressTick (i : Nat) (href : Int) (s : State) : State :=
  if !cliOn s i || !carrierRuns s (cliLine s i) then s
  else
    let (come, s) := arrivals i s
    let (out, s) := laneTakes i href s
    let runs := validRuns come
    let total := max 1 come.length
    let (sent, s, _) := (if runs.isEmpty then [((getCli s i).faultSince.isNone, [])] else runs).foldl
      (fun (a : List Blk × State × Nat) r =>
        let upto := a.2.2 + r.2.length
        let take := if upto = come.length then out - a.1.length else out * upto / total - a.1.length
        let (o, s) := egressRun i (a.1, a.2.1) r.1 r.2 take
        (o, s, upto)) ([], s, 0)
    let s := pcsOut i sent s
    if (getCli s i).faultSince.isSome then bump (cliCnt i 12) s else s

/-- The end of an epoch: figures of CLI_STATUS and SER_HIGH (R253). -/
def cliEpoch (s : State) (i : Nat) : State :=
  let x := getCli s i
  let s := updCli i (fun x => { x with
    lastEpoch := (x.corrected, x.uncorr, x.ins, x.del), corrected := 0, uncorr := 0, ins := 0, del := 0 }) s
  let lim := s.parN 0x7008 (0x40 + i)
  raiseIf (lim != 0 && lim < x.corrected && cliOn s i) 0x72 s

/-! ## Timestamps (R244 to R246) -/

/-- Does a packet match a filter entry (R245)? -/
def tsMatch (e pkt : Bytes) : Bool :=
  (List.range (byteAt e 2)).all fun i =>
    byteAt e 1 + i < pkt.length && byteAt pkt (byteAt e 1 + i) &&& byteAt e (24 + i) == byteAt e (8 + i)

/-- The frame check sequence of a packet whose first 7 bytes are preamble. -/
def pktFcs (pkt : Bytes) : Nat :=
  crcRefl 0xEDB88320 0xFFFFFFFF ((pkt.drop 7).take (pkt.length - 11)) ^^^ 0xFFFFFFFF

/-- The packet with the timestamp written and its frame check sequence replaced; one wrong on arrival stays wrong
(R246). -/
def oneStepPkt (off sec ns : Nat) (pkt : Bytes) : Bytes :=
  let good := pktFcs pkt == unle (pkt.drop (pkt.length - 4))
  let new := patch pkt off (be 6 sec ++ be 4 ns)
  let f := pktFcs new
  patch new (pkt.length - 4) (le 4 (if good then f else f ^^^ 0xFFFFFFFF))

/-- A packet start crosses the balls `ns` ns and `frac`/65,536 ns into the present tick (R7, R244). DESIGN CHOICE (log entry 180): where
more than one filter matches, the entry takes number, signature and one-step flag from the lowest-numbered; the specification
does not say which. -/
def tsPacket (i : Nat) (d : Dir) (ns frac : Nat) (pkt : Bytes) (s : State) : State :=
  let f := chunks 40 (s.par 0x7010 (0x40 + i))
  let want := match d with
    | .rx => 0
    | .tx => 1
  match (f.zipIdx.find? fun e => bit (byteAt e.1 0) want && tsMatch e.1 pkt) with
  | none => s
  | some (e, k) =>
    if !cliOn s i then s
    else
      let sec := s.tick / tps
      let nanos := s.tick % tps * 2000 + ns
      let off := byteAt e 4
      let one := bit (byteAt e 0) 2
      let fits := off + 10 ≤ pkt.length
      let s := if one && !fits then bump (cliCnt i 17) s else s
      let new := if one && fits then oneStepPkt off sec nanos pkt else pkt
      let edit := if new = pkt then [] else [(pktBlks pkt).zip (pktBlks new)]
      let s := updCli i (fun x => { x with
        lastPkt := new, editIn := x.editIn ++ (if want = 0 then edit else []),
        editOut := x.editOut ++ (if want = 1 then edit else []) }) s
      let ent : TsEnt := { seconds := sec, nanos := nanos, frac := frac, filter := k, oneStep := one && fits,
                           sig := unle (slice pkt (byteAt e 3) 2) }
      let q := if want = 0 then (getCli s i).tsIn else (getCli s i).tsOut
      if 64 ≤ q.length then cliOnce 0x7C (bump (cliCnt i (15 + want)) s)
      else
        let s := bump (cliCnt i (13 + want)) (updCli i (fun x =>
          if want = 0 then { x with tsIn := x.tsIn ++ [ent] } else { x with tsOut := x.tsOut ++ [ent] }) s)
        raiseIf q.isEmpty 0x79 s

/-! ## Commands (R251) -/

/-- CLI_STATUS. -/
def infoCliStatus : CmdInfo := { op := 0x0700, len := .fixed 17, desc := true }
/-- CLI_TS_READ. -/
def infoCliTsRead : CmdInfo := { op := 0x0701, len := .fixed 20, desc := true }
/-- CLIENT_BITSLIP. -/
def infoClientBitslip : CmdInfo := { op := 0x4700, len := .fixed 3 }

/-- The check of a client index: at most 11 and configured. -/
def needClient (i off : Nat) (s : State) : Option Refuse := need (i ≤ 11 && cliOn s i) (badParam off)

/-- The receiver of slot `j` of a carrier. -/
def getRxSlot (s : State) (c : Line) (j : Nat) : RxSlot :=
  (match c with
  | .a => s.cli.a
  | .b => s.cli.b).rx.getD j {}

/-- Change a carrier's slots. -/
def updSlots (c : Line) (f : Slots → Slots) (s : State) : State :=
  { s with cli := match c with
    | .a => { s.cli with a := f s.cli.a }
    | .b => { s.cli with b := f s.cli.b } }

/-- The 64 bytes of CLI_STATUS. -/
def cliStatusBytes (s : State) (i : Nat) : Bytes :=
  let x := getCli s i
  let c := cliLine s i
  let (co, un, ins, del) := x.lastEpoch
  let off : Bool := !x.lanesUp && !x.disrupt
  let ing := if off then 0 else if x.aligned then 3 else if cliSignal s i then 2 else 1
  let egr := if off then 0 else if x.squelch then 1 else if x.faultSince.isSome then 2 else 3
  le 8 s.tick ++ [byteOf (View.cliType s.params i), byteOf c.inst, byteOf (s.parN 0x7002 (0x40 + i)),
    byteOf (s.parN 0x7003 (0x40 + i)), byteOf ing, byteOf egr, 0, 0]
    ++ le 3 (slotMask fun j => (cliTxSlots s i).contains j)
    ++ le 3 (slotMask fun j => (cliRxSlots s i).contains j && (getRxSlot s c j).locked) ++ zeros 2
    ++ le 4 x.ing.buf.length ++ le 4 x.egr.buf.length ++ le 4 co ++ le 4 un ++ le 4 ins ++ le 4 del
    ++ le 2 x.tsIn.length ++ le 2 x.tsOut.length ++ zeros 12

/-- The 16 bytes of a timestamp entry. -/
def tsBytes (e : TsEnt) : Bytes :=
  le 6 e.seconds ++ le 4 e.nanos ++ le 2 e.frac ++ [byteOf (e.filter + 4 * b2n e.oneStep), 0] ++ le 2 e.sig

/-- The result of CLI_TS_READ for at most `m` entries of a queue: how many, how many stay, and the entries. -/
def tsReadBytes (m : Nat) (q : List TsEnt) : Bytes :=
  le 2 (q.take m).length ++ le 2 (q.drop m).length ++ zeros 4 ++ (q.take m).flatMap tsBytes

end Sys2Proof.Machine
end

