-- ==== Sys2Proof/Machine/EngWord.lean ====
section
/-! DEFINITION. EngWord.lean: the words of an engine's program (R392, R393, R525) and the form of a program image (R400,
R401). -/
namespace Sys2Proof.Machine

/-- An instruction word's fields (R392). -/
structure EWord where
  cls : Nat
  fn : Nat
  d : Nat
  a : Nat
  b : Nat
  guard : Nat
  width : Nat
  rsvd : Nat
  imm : BitVec 32
deriving DecidableEq, Repr

/-- The fields of a 64-bit word. -/
def eword (n : Nat) : EWord :=
  { cls := bits n 63 60, fn := bits n 59 56, d := bits n 55 51, a := bits n 50 46, b := bits n 45 41,
    guard := bits n 40 38, width := bits n 37 36, rsvd := bits n 35 32, imm := BitVec.ofNat 32 n }

/-- The kind of register a field names (R525). -/
inductive RegKind
  | unused
  | s
  | v
  | p
deriving DecidableEq, Repr

/-- Does a field's value name a register of this kind? -/
def RegKind.ok : RegKind → Nat → Bool
  | .unused, n => n == 0
  | .s, n => n < 16
  | .v, n => n < 32
  | .p, n => n < 8

/-- The kinds of d, a and b of a function, or none for an invalid class or function (R393, R525). -/
def fnKinds (cls fn : Nat) : Option (RegKind × RegKind × RegKind) :=
  match cls with
  | 0 => if fn < 4 then some (.unused, .unused, .unused) else if fn = 4 then some (.s, .unused, .unused) else none
  | 1 =>
    if fn < 8 then some (.s, .s, .s) else if fn = 8 then some (.s, .unused, .unused)
    else if fn = 9 then some (.s, .s, .unused) else if fn < 13 then some (.p, .s, .s) else none
  | 2 => if fn < 3 then some (.s, .s, .s) else none
  | 3 =>
    if fn < 9 then some (.v, .v, .v) else if fn < 12 then some (.v, .v, .unused)
    else if fn < 14 then some (.p, .v, .v) else none
  | 4 => if fn < 5 then some (.v, .v, .v) else none
  | 5 =>
    match fn with
    | 0 => some (.v, .s, .unused)
    | 1 => some (.v, .v, .v)
    | 2 => some (.v, .v, .unused)
    | 3 => some (.s, .v, .unused)
    | 4 => some (.v, .s, .unused)
    | 5 => some (.s, .v, .unused)
    | _ => none
  | 6 =>
    if fn < 2 then some (.p, .p, .p) else if fn = 2 then some (.p, .p, .unused)
    else if fn = 3 then some (.p, .s, .unused) else none
  | 7 =>
    match fn with
    | 0 => some (.s, .s, .unused)
    | 1 => some (.unused, .s, .s)
    | 2 => some (.v, .s, .unused)
    | 3 => some (.unused, .s, .v)
    | _ => none
  | 8 =>
    match fn with
    | 0 => some (.v, .unused, .unused)
    | 1 => some (.unused, .unused, .v)
    | 2 => some (.s, .unused, .unused)
    | 3 => some (.unused, .unused, .s)
    | _ => none
  | 9 =>
    match fn with
    | 0 => some (.v, .s, .unused)
    | 1 => some (.unused, .s, .v)
    | 2 => some (.unused, .unused, .unused)
    | _ => none
  | _ => none

/-- Is the word at `pc` of a code of `len` bytes valid (R401)? A branch goes to its own address plus imm. -/
def wordOk (len pc n : Nat) : Bool :=
  let w := eword n
  match fnKinds w.cls w.fn with
  | none => false
  | some (d, a, b) =>
    let dest := (pc : Int) + w.imm.toInt
    d.ok w.d && a.ok w.a && b.ok w.b && w.rsvd == 0
      && (w.cls != 0 || w.fn != 2 || (decide (0 ≤ dest) && decide (dest < len) && dest % 8 == 0))

/-- An ECDSA P-384 signature r and s over SHA-384 of a message, under a 97-byte public key (R280). -/
def sigOk (key msg sig : Bytes) : Bool :=
  let x := unbe (slice key 1 48)
  let y := unbe (slice key 49 48)
  let r := unbe (slice sig 0 48)
  let q := unbe (slice sig 48 48)
  key.length == 97 && byteAt key 0 == 4 && onCurve x y && 0 < r && r < n384 && 0 < q && q < n384
    && ecdsaOk x y (unbe (sha384 msg)) r q

/-- The code length, data length and trailer length an image's header gives. -/
def imgLens (img : Bytes) : Nat × Nat × Nat := (fld img 12 4, fld img 16 4, if byteAt img 4 = 1 then 96 else 4)

/-- Are the header, lengths, words and a user image's check value right (R400, R401)? -/
def imgOk (img : Bytes) : Bool :=
  let (code, data, tr) := imgLens img
  let entry := fld img 24 2
  fld img 0 4 == 0x4D480001 && byteAt img 4 ≤ 1 && byteAt img 5 == 1 && code % 8 == 0 && 8 ≤ code && entry % 8 == 0
    && entry < code && rsv img 27 64 && code + data + fld img 20 4 ≤ 65536 && img.length == 64 + code + data + tr
    && (List.range (code / 8)).all (fun i => wordOk code (8 * i) (fld img (64 + 8 * i) 8))
    && (byteAt img 4 == 1 || fld img (64 + code + data) 4 == crc32c (img.take (64 + code + data)))

/-- The status of an image: 0, IMAGE_BAD or AUTH_FAIL. A vendor image's signature verifies under the public key of the
firmware that runs, which is the key of the fused key hash (R401, R500). -/
def imgStatus (s : State) (img : Bytes) : Nat :=
  let (code, data, _) := imgLens img
  let n := 64 + code + data
  if !imgOk img then 0x1D03
  else if byteAt img 4 = 1 && !sigOk s.boot.pubKey (img.take n) (img.drop n) then 0x60
  else 0

end Sys2Proof.Machine
end

