-- ==== Sys2Proof/Machine/Steward.lean ====
section
/-! DEFINITION. Steward.lean: the Resource Steward (group 0xD, R402 to R422): tenants, engine grants and their placement,
pages, leases, images, revocation, quarantine, engine health. -/
namespace Sys2Proof.Machine

/-- Tenant `t`. -/
def getTen (s : State) (t : Nat) : Tenant := s.stw.tenants.getD t {}

/-- Change tenant `t`. -/
def updTen (t : Nat) (f : Tenant → Tenant) (s : State) : State :=
  updStw (fun x => { x with tenants := lmod x.tenants t f }) s

/-- Engine `e`. -/
def getEng (s : State) (e : Nat) : Eng := SMap.get {} s.stw.engs e

/-- Set engine `e`. -/
def setEng (e : Nat) (v : Eng) (s : State) : State := updStw (fun x => { x with engs := SMap.put {} x.engs e v }) s

/-- The `i`-th counter of tenant `t` (R422). -/
def tenCnt (t i : Nat) : Nat := 1024 + 10 * t + i

/-- A tenant's parameter. -/
def tenN (s : State) (pid t : Nat) : Nat := s.parN pid (0xC0 + t)

/-- The tenants the host may name for pages, channels and images (R403). -/
def hostTenants : List Nat := (List.range 62).map (· + 2)

/-- The line a device tenant serves. -/
def devLine (t : Nat) : Line := if t = 1 then .b else .a

/-- Pages a tenant holds, its image pages included. -/
def heldPages (s : State) (t : Nat) : List Nat :=
  (s.stw.pages.filter fun x => x.2.owner == some t).map (·.1)

/-- How many pages a tenant holds. -/
def heldCount (s : State) (t : Nat) : Nat := (heldPages s t).length

/-- Does the tenant hold page `g` as other than an image page? -/
def ownsPage (s : State) (t g : Nat) : Bool := (getPg s g).owner == some t && !(getPg s g).image

/-! ## Ports (R396, R418) -/

/-- A port's entry of TEN_PORTS when bound: first page, page count, Z. -/
def portEntry (v : Bytes) (k : Nat) : Option (Nat × Nat × Nat) :=
  let e := slice v (16 * k) 16
  if byteAt e 0 = 1 then some (fld e 2 2, fld e 4 2, fld e 6 2) else none

/-- Port `k` of a tenant as active now. -/
def portOf (s : State) (t k : Nat) : Option (Nat × Nat × Nat) := portEntry (s.par 0xD00A (0xC0 + t)) k

/-- Are all ring pages of these ports held by the tenant, and none an image page? -/
def ringsHeld (s : State) (t : Nat) (v : Bytes) : Bool :=
  (List.range 8).all fun k => match portEntry v k with
    | none => true
    | some (f, c, _) => (List.range c).all fun i => ownsPage s t (f + i)

/-- Is page `g` in a ring of the tenant's active ports? -/
def ringPage (s : State) (t g : Nat) : Bool :=
  (List.range 8).any fun k => match portOf s t k with
    | none => false
    | some (f, c, _) => f ≤ g && g < f + c

/-- A new TEN_PORTS sets each port's base to 0 (R396). -/
def tenPortsChanged (t : Nat) (s : State) : State := updTen t (fun x => { x with bases := List.replicate 8 0 }) s

/-! ## Reclamation (R410) -/

/-- Change channel `n`. -/
def updCh (n : Nat) (f : Dma → Dma) (s : State) : State := updStr (fun x => { x with ch := lmod x.ch n f }) s

/-- Channel `n`. -/
def getCh (s : State) (n : Nat) : Dma := s.str.ch.getD n {}

/-- The channels a tenant holds. -/
def heldChs (s : State) (t : Nat) : List Nat := (List.range 16).filter fun n => (getCh s n).tenant == some t

/-- The lowest free channel (R409). -/
def freeCh (s : State) : Option Nat := (List.range 16).find? fun n => (getCh s n).tenant.isNone

/-- Ask for the abort of a channel's chain: it takes effect in a commit window (R437). -/
def dmaAbort (n st : Nat) (s : State) : State :=
  updCh n (fun x => if x.run.isSome && x.abort.isNone then { x with abort := some st } else x) s

/-- Reclaim everything a tenant holds: transfers aborted and channels freed, images removed, pages sent away. -/
def reclaim (t : Nat) (s : State) : State :=
  let s := (heldChs s t).foldl (fun s n => updCh n (fun x => { x with tenant := none }) (dmaAbort n stAborted s)) s
  let ps := heldPages s t
  let s := updStw (fun x => { x with
    images := x.images.filter (·.tenant != t),
    engs := x.engs.map fun e => if (e.2.last.map (·.1)) == some t then (e.1, { e.2 with last := none }) else e }) s
  let s := ps.foldl leavePg (bumpBy (tenCnt t 8) ps.length s)
  updTen t (fun x => { x with missed := 0 }) s

/-- A tenant's waiting page requests end with a status. -/
def endRequests (t st : Nat) (s : State) : State :=
  let rs := s.stw.reqs.filter (·.tenant == t)
  rs.foldl (fun s r => finish r.owner (.st st) s)
    (updStw (fun x => { x with reqs := x.reqs.filter (·.tenant != t) }) s)

/-- A tenant's loads in progress complete ABORTED (R402, R417). -/
def endLoads (t : Nat) (s : State) : State :=
  let ls := s.stw.loads.filter (·.2.1 == t)
  ls.foldl (fun s l => finish l.1 (.st stAborted) s)
    (updStw (fun x => { x with loads := x.loads.filter (·.2.1 != t) }) s)

/-- TEN_CLASS has been committed (R402). -/
def tenClassChanged (t : Nat) (s : State) : State :=
  let st := (getTen s t).st
  if tenN s 0xD000 t ≠ 0 then
    if st = .off then updTen t (fun x => { x with st := .active }) s else s
  else if st = .off then s
  else updTen t (fun x => { x with st := .off }) (endLoads t (endRequests t stAborted (reclaim t s)))

/-- Revocations and quarantines act in the first commit window after they were asked for (R413, R414). -/
def revokeOne (s : State) (r : Option CmdKey × Nat × Bool) : State :=
  let (owner, t, quar) := r
  if (getTen s t).st = .off then finishOpt owner .ok s
  else if quar then
    if (getTen s t).st = .quarantined then finishOpt owner .ok s
    else
      let s := endLoads t (endRequests t 0x1D04 (reclaim t s))
      finishOpt owner .ok (raise 0xD3 (updTen t (fun x => { x with st := .quarantined }) s))
  else finishOpt owner .ok (raise 0xD5 (endLoads t (reclaim t s)))

/-- The Steward's part of the commit window before sets are applied. -/
def stwWindowFirst (s : State) : State :=
  s.stw.revokes.foldl revokeOne (updStw (fun x => { x with revokes := [] }) s)

/-! ## Leases (R408) -/

/-- Renew a tenant's lease. -/
def renew (t : Nat) (s : State) : State := updTen t (fun x => { x with renewed := true, renewTick := s.tick }) s

/-- One tenant at a lease boundary. A tenant without pages has no lease. -/
def leaseOne (noEng : Bool) (s : State) (t : Nat) : State :=
  let s := updTen t (fun x => { x with refusals := 0 }) s
  if heldCount s t = 0 then updTen t (fun x => { x with renewed := false, missed := 0 }) s
  else
    let s := if noEng && tenN s 0xD008 t == 1 then renew t s else s
    let m := if (getTen s t).renewed then 0 else (getTen s t).missed + 1
    let s := updTen t (fun x => { x with renewed := false, missed := m }) s
    if 2 ≤ m then raise 0xD6 (bump (tenCnt t 9) (reclaim t s)) else s

/-- Do engines run in the present power state? -/
def lineState (s : State) : Bool := s.pwr.state == 3 || s.pwr.state == 4

/-- The lease boundary of an executed tick whose number is a multiple of 500. -/
def leases (s : State) : State :=
  let noEng := s.stw.noEng || !lineState s
  let s := hostTenants.foldl (leaseOne noEng) s
  updStw (fun x => { x with noEng := !lineState s }) s

/-! ## Pages (R407, R409, R411) -/

/-- The runs of free pages, first page and length, from page `from_` on. -/
def gaps : Nat → SMap Pg → List (Nat × Nat)
  | f, [] => if f < 32768 then [(f, 32768 - f)] else []
  | f, (g, _) :: r => if f < g then (f, g - f) :: gaps (g + 1) r else gaps (g + 1) r

/-- The lowest `k` pages of a list of runs. -/
def takeLow : Nat → List (Nat × Nat) → List Nat
  | 0, _ => []
  | _, [] => []
  | k, (f, n) :: r => (List.range (min k n)).map (f + ·) ++ takeLow (k - min k n) r

/-- The free pages that other tenants' guarantees still claim. -/
def pageClaims (s : State) (t : Nat) : Nat :=
  ((hostTenants.filter (· != t)).map fun u => tenN s 0xD004 u - heldCount s u).foldl (· + ·) 0

/-- The pages a grant of `k` would take, when it can be made. -/
def findPages (s : State) (t k : Nat) (consec : Bool) : Option (List Nat) :=
  if freePages s < k + pageClaims s t then none
  else
    let gs := gaps 0 s.stw.pages
    if consec then (gs.find? fun x => k ≤ x.2).map fun x => (List.range k).map (x.1 + ·)
    else some (takeLow k gs)

/-- Grant pages to a tenant. -/
def takePages (t : Nat) (image : Bool) (ps : List Nat) (s : State) : State :=
  let s := ps.foldl (fun s g => setPg g { owner := some t, image := image } s) s
  lowCheck (renew t (bumpBy (tenCnt t 7) ps.length s))

/-- May a result of `n` bytes be written through this command's descriptor? -/
def fitsReply (s : State) (k : CmdKey) (n : Nat) : Bool :=
  match openCmd s k with
  | none => true
  | some o => n ≤ fld (paramBytes o.p) 8 4

/-- Remove a page request. -/
def dropReq (r : PageReq) (s : State) : State := updStw (fun x => { x with reqs := x.reqs.filter (· != r) }) s

/-- Decide one page request; the flag says that a waiting one ahead could not be granted. -/
def pageOne (bs : Bool × State) (r : PageReq) : Bool × State :=
  let (blocked, s) := bs
  if r.wait && 750000 ≤ s.elapsed - r.at_ then
    (blocked, finish r.owner (.st stNoResource) (bump 1665 (dropReq r s)))
  else
    match if blocked then none else findPages s r.tenant r.n r.consec with
    | some ps =>
      if fitsReply s r.owner (2 * r.n) then
        let s := raiseIf r.waited 0xDB (takePages r.tenant false ps (dropReq r s))
        (blocked, finish r.owner (.data (ps.flatMap (le 2))) s)
      else (blocked, finish r.owner (.data (zeros (2 * r.n))) (dropReq r s))
    | none =>
      if r.wait then
        (true, updStw (fun x => { x with reqs := x.reqs.map fun y => if y = r then { y with waited := true } else y }) s)
      else (blocked, finish r.owner (.st stNoResource) (dropReq r s))

/-- Page requests by priority, then acceptance. -/
def reqOrder (s : State) : List PageReq :=
  (List.range 8).flatMap fun lv => s.stw.reqs.filter fun r => tenN s 0xD001 r.tenant == lv

/-- The page requests of a commit window. -/
def pagesWindow (s : State) : State := ((reqOrder s).foldl pageOne (false, s)).2

/-- PAGE_REQUEST_TIMEOUT: requests that have waited 1.5 s end. -/
def pageTimeout (s : State) : State :=
  (s.stw.reqs.filter fun r => r.wait && 750000 ≤ s.elapsed - r.at_).foldl (fun s r =>
    finish r.owner (.st stNoResource) (bump 1665 (dropReq r s))) s

/-! ## Images (R400, R401) -/

/-- The pages an image takes. -/
def imgPages (img : Bytes) : Nat := (img.length + 4095) / 4096

/-- Store a checked image: pages newly granted, a handle from 1 to 256; at most 16 images a tenant. -/
def loadOne (s : State) (l : CmdKey × Nat × Bytes) : State :=
  let (owner, t, img) := l
  let k := imgPages img
  let s := updStw (fun x => { x with loads := x.loads.filter (·.1 != owner) }) s
  if 16 ≤ (s.stw.images.filter (·.tenant == t)).length || tenN s 0xD005 t < heldCount s t + k then
    finish owner (.st 0x1D02) s
  else
    match ((List.range 256).map (· + 1)).find? fun h => !(s.stw.images.any (·.handle == h)), findPages s t k false with
    | some h, some ps =>
      let (code, data, _) := imgLens img
      let im : Image := {
        handle := h, tenant := t, code := slice img 64 code, data := slice img (64 + code) data, entry := fld img 24 2,
        ports := byteAt img 26, pages := ps }
      let s := takePages t true ps (updStw (fun x => { x with images := x.images ++ [im] }) s)
      finish owner (.ok h) (raise 0xDC s)
    | _, _ => finish owner (.st stNoResource) s

/-- The loads of a commit window. -/
def loadsWindow (s : State) : State := s.stw.loads.foldl loadOne s

/-- The image with a handle. -/
def imageOf (s : State) (h : Nat) : Option Image := s.stw.images.find? (·.handle == h)

/-! ## Dealing out engines (R405, R406) -/

/-- Is engine `e` neither disabled nor gated? -/
def engUsable (s : State) (e : Nat) : Bool := !bit s.stw.disabled e && !bit s.pwr.gatedClusters (e / 16)

/-- The engines neither disabled nor gated. -/
def usableEngs (s : State) : List Nat := (List.range 256).filter (engUsable s)

/-- A tenant as the arbitration sees it: number, priority, guarantee, quota, request, the image its run is warm for. -/
structure Bid where
  t : Nat
  prio : Nat
  guar : Nat
  quota : Nat
  req : Nat
  image : Option Nat
deriving DecidableEq, Repr

/-- The engines of RX_NLC_ENGINES while a carrier runs with compensation on (R403). -/
def nlcEngines (s : State) (c : Line) : Nat :=
  if carrierRuns s c && s.parN 0x4070 c.inst != 0 then s.parN 0x4071 c.inst else 0

/-- A tenant's bid (R403, R405). -/
def bidOf (s : State) (t : Nat) : Bid :=
  if t < 2 then
    let n := nlcEngines s (devLine t)
    { t := t, prio := 0, guar := n, quota := n, req := n, image := some 0 }
  else
    let v := s.par 0xD009 (0xC0 + t)
    let im := (imageOf s (fld v 0 2)).bind fun i => if i.tenant = t then some i.handle else none
    let ok := im.isSome && ringsHeld s t (s.par 0xD00A (0xC0 + t))
    { t := t, prio := tenN s 0xD001 t, guar := tenN s 0xD002 t, quota := tenN s 0xD003 t,
      req := if ok then fld v 2 2 else 0, image := im }

/-- The bids in the order of pass 1: priority, then number. -/
def bidOrder (s : State) : List Bid :=
  let bs := ((List.range 64).filter fun t => (getTen s t).st == .active).map (bidOf s)
  (List.range 8).flatMap fun lv => bs.filter (·.prio == lv)

/-- Pass 1: guarantees. The grants so far and what is left. -/
def passOne (bs : List Bid) (avail : Nat) : SMap Nat × Nat :=
  bs.foldl (fun (r : SMap Nat × Nat) b =>
    let n := min (min b.req b.guar) r.2
    (SMap.put 0 r.1 b.t n, r.2 - n)) ([], avail)

/-- The first member at or after `r` in tenant order, wrapping. -/
def memberFrom (w : List Nat) (r : Nat) : Option Nat := (w.find? (r ≤ ·)).orElse fun _ => w.head?

/-- Pass 2 at one level: one slot at a time in turn (fuel: the engines there are). -/
def passTwo (cap : Nat → Nat) : Nat → List Nat → Nat → Nat → SMap Nat → Nat → SMap Nat × Nat × Nat
  | 0, _, _, rr, g, avail => (g, avail, rr)
  | k + 1, w, t, rr, g, avail =>
    if avail = 0 then (g, avail, rr)
    else
      let g := SMap.put 0 g t (SMap.get 0 g t + 1)
      let w := if SMap.get 0 g t = cap t then w.filter (· != t) else w
      match memberFrom w (t + 1) with
      | none => (g, avail - 1, rr)
      | some u => passTwo cap k w u u g (avail - 1)

/-- Pass 2: the levels in turn. -/
def passLevels (bs : List Bid) (rr : List Nat) (g : SMap Nat) (avail : Nat) : SMap Nat × List Nat :=
  let r := (List.range 8).foldl (fun (x : SMap Nat × List Nat × Nat) lv =>
    let cap (t : Nat) : Nat := ((bs.find? (·.t == t)).map fun b => min b.req b.quota).getD 0
    let w := ((bs.filter fun b => b.prio == lv && decide (SMap.get 0 x.1 b.t < cap b.t)).map (·.t))
    match memberFrom w (x.2.1.getD lv 0) with
    | none => x
    | some t =>
      let (g, avail, p) := passTwo cap 256 w t (x.2.1.getD lv 0) x.1 x.2.2
      (g, x.2.1.set lv p, avail)) (g, rr, avail)
  (r.1, r.2.1)

/-- One round of placement: each tenant in order takes engines of a kind until it holds its grant. -/
def placeRound (bs : List Bid) (g : SMap Nat) (kind : Bid → Nat → Bool) (use : List Nat) (placed : SMap Nat) : SMap Nat :=
  bs.foldl (fun pl b =>
    let have_ := (pl.filter (·.2 == b.t)).length
    let es := (use.filter fun e => (SMap.find pl e).isNone && kind b e).take (SMap.get 0 g b.t - have_)
    es.foldl (fun pl e => SMap.ins e b.t pl) pl) placed

/-- Is engine `e` warm for the bid's run? -/
def warmFor (s : State) (b : Bid) (e : Nat) : Bool :=
  match b.image with
  | none => false
  | some h => (getEng s e).last == some (b.t, h)

/-- The placement of grants on engines in three rounds (R406). -/
def placeAll (s : State) (bs : List Bid) (g : SMap Nat) : SMap Nat :=
  let use := usableEngs s
  let p1 := placeRound bs g (warmFor s) use []
  let p2 := placeRound bs g (fun _ e => !(bs.any fun b => warmFor s b e)) use p1
  placeRound bs g (fun _ _ => true) use p2

/-- Start the run of a tenant on engine `e` with slot index `i` (R389). -/
def startRun (b : Bid) (e i : Nat) (s : State) : State :=
  let h := b.image.getD 0
  let warm := warmFor s b e
  let im := imageOf s h
  let mem : SMap Byte :=
    if warm then (getEng s e).mem
    else match im with
      | none => []
      | some m => SMap.putAll (0 : Byte) [] 0 (m.code ++ m.data)
  let s := bump (tenCnt b.t 0) (if warm then s else bump (tenCnt b.t 4) s)
  setEng e {
    last := some (b.t, h), mem := mem,
    run := some {
      tenant := b.t, image := h, slot := i, cold := !warm, pc := (im.map (·.entry)).getD 0,
      cycle := if warm then 0 else 1024 } } s

/-- The arbitration of a commit window: grants, events, placement, and the start of the runs (R405, R406). -/
def arbitrate (s : State) : State :=
  let bs := bidOrder s
  let (g1, left) := passOne bs (if lineState s then (usableEngs s).length else 0)
  let short := bs.any fun b => decide (SMap.get 0 g1 b.t < min b.req b.guar)
  let s := if short then raise 0xD7 s else if s.stw.short then raise 0xD8 s else s
  let (g, rr) := passLevels bs s.stw.rr g1 left
  let s := updStw (fun x => { x with
    short := short, rr := rr, tenants := x.tenants.map fun y => { y with grantedLast := y.granted, granted := 0, requested := 0 } }) s
  let s := bs.foldl (fun s b =>
    let n := SMap.get 0 g b.t
    bumpBy (tenCnt b.t 5) n (bumpBy (tenCnt b.t 6) (b.req - n)
      (updTen b.t (fun x => { x with granted := n, requested := b.req }) s))) s
  let pl := placeAll s bs g
  let s := bs.foldl (fun s b =>
    ((pl.filter (·.2 == b.t)).zipIdx).foldl (fun s x => startRun b x.1.1 x.2 s) s) s
  let s := if lineState s then s else updStw (fun x => { x with noEng := true }) s
  updRx .b (fun r => { r with engines := SMap.get 0 g 1 }) (updRx .a (fun r => { r with engines := SMap.get 0 g 0 }) s)

/-- Lease boundary, once in its tick. -/
def leasesDue (s : State) : State :=
  if s.leaseDone || s.tick % 500 ≠ 0 then s else leases { s with leaseDone := true }

/-- The Steward's part of the commit window after sets are applied. -/
def stwWindow (s : State) : State := arbitrate (pagesWindow (loadsWindow (leasesDue s)))

/-- Clusters leave the pool: their engines' next runs are cold (R389). -/
def clustersGated (mask : Nat) (s : State) : State :=
  let out (e : Nat × Eng) : Nat × Eng := if bit mask (e.1 / 16) then (e.1, { e.2 with last := none }) else e
  updStw (fun x => { x with engs := x.engs.map out }) s

/-- Outside the LINE states local memory is not kept (R465). -/
def enginesOff (s : State) : State := updStw (fun x => { x with engs := [] }) s

/-- A firmware restart: accepted Steward commands are gone (R417). -/
def stwRestart (s : State) : State :=
  updStw (fun x => { x with
    reqs := [], loads := [], tests := [], revokes := x.revokes.filter fun r => r.1.isNone }) s

/-! ## Engine health (R416) -/

/-- Is engine `e` to be tested: in its tick of the epoch while engines run, or on request; once its run has ended. -/
def engTestDue (s : State) (e : Nat) : Bool :=
  engUsable s e && !bit s.stw.tested e
    && ((lineState s && s.tick % 500 == e) || s.stw.tests.any (·.2 == e))
    && (match (getEng s e).run with
      | none => true
      | some r => r.ended.isSome)

/-- An engine's test ends. -/
def engTested (e : Nat) (pass : Bool) (s : State) : State :=
  let asked := s.stw.tests.filter (·.2 == e)
  let s := updStw (fun x => { x with tested := setBit x.tested e true, tests := x.tests.filter (·.2 != e) }) s
  let s := if pass then s
    else
      let g := getEng s e
      let s := setEng e { g with last := none, mem := [] } (updStw (fun x => { x with disabled := setBit x.disabled e true }) s)
      let s := raise 0xD9 (bump 1664 s)
      if 4 < popcount 256 s.stw.disabled then svcCause 4 s else s
  asked.foldl (fun s t => finish t.1 (if pass then .ok else .st 0x1D06) s) s

/-! ## The checks of a set (R404) -/

/-- The refusal of one tenant's settings: status and PID. -/
def tenCheck (s : State) (v : View) (t : Nat) (runInSet : Bool) : Option (Nat × Nat) :=
  let i := 0xC0 + t
  let run := fld (v.par 0xD009 i) 0 2
  let im := (imageOf s run).bind fun x => if x.tenant = t then some x else none
  let ports := v.par 0xD00A i
  let bound := (List.range 8).foldl (fun m k => if (portEntry ports k).isSome then setBit m k true else m) 0
  if v.parN 0xD003 i < v.parN 0xD002 i then some (stBadParam, 0xD003)
  else if v.parN 0xD005 i < v.parN 0xD004 i then some (stBadParam, 0xD005)
  else if run ≠ 0 ∧ im.isNone then some (stBadParam, 0xD009)
  else
    let small := (List.range 8).any fun k => match portEntry ports k with
      | none => false
      | some (_, c, z) => decide (c * 4096 < z)
    let open_ := match im with
      | none => false
      | some x => (bitsSet 8 x.ports).any fun k => !bit bound k
    if !ringsHeld s t ports || small then some (0x1D05, 0xD00A)
    else if runInSet && open_ then some (stBadParam, 0xD00A)
    else none

/-- Do the engine guarantees of a view fit the engines (R404)? -/
def engGuarFits (s : State) (v : View) (usable : Nat) : Bool :=
  let nlc (c : Line) : Nat := if carrierRuns s c && v.parN 0x4070 c.inst != 0 then v.parN 0x4071 c.inst else 0
  (hostTenants.map fun t => v.parN 0xD002 (0xC0 + t)).foldl (· + ·) (nlc .a + nlc .b) ≤ usable

/-- Do the page guarantees of a view fit the free pages (R404)? -/
def pageGuarFits (s : State) (v : View) : Bool :=
  (hostTenants.map fun t => v.parN 0xD004 (0xC0 + t) - heldCount s t).foldl (· + ·) 0 ≤ freePages s

/-! ## Commands (R419) -/

/-- A tenant above 63 gives BAD_PARAM. -/
def okTen (off t : Nat) : Option Refuse := need (t ≤ 63) (badParam off)

/-- A tenant that pages, channels, images, revocation, quarantine and release may name: not a device tenant (R403). -/
def okHostTen (off t : Nat) : Option Refuse := need (2 ≤ t && t ≤ 63) (badParam off)

/-- An OFF tenant gives WRONG_STATE. -/
def whileOn (t : Nat) (f : State → Reply × State) (s : State) : Reply × State :=
  if (getTen s t).st = .off then (.st stWrongState, s) else f s

/-- Page, DMA and image commands for a quarantined tenant complete with QUARANTINED (R414). -/
def whileActive (t : Nat) (f : State → Reply × State) (s : State) : Reply × State :=
  whileOn t (fun s => if (getTen s t).st = .quarantined then (.st 0x1D04, s) else f s) s

/-- STW_STATUS. -/
def infoStwStatus : CmdInfo := { op := 0x0D00, len := .fixed 16, desc := true }
/-- TEN_STATUS. -/
def infoTenStatus : CmdInfo := { op := 0x0D01, len := .fixed 17, desc := true }
/-- ENG_IMAGE_LOAD. -/
def infoEngImageLoad : CmdInfo := { op := 0x0D02, long := true, len := .fixed 16 }
/-- ENG_IMAGE_FREE. -/
def infoEngImageFree : CmdInfo := { op := 0x0D03, len := .fixed 2 }
/-- STW_PAGE_ALLOC: of the long class when it may wait. -/
def infoStwPageAlloc (wait : Bool) : CmdInfo := { op := 0x0D04, long := wait, len := .fixed 20, desc := true }
/-- STW_PAGE_FREE. -/
def infoStwPageFree : CmdInfo := { op := 0x0D05, len := .range 4 4096 2 }
/-- STW_RENEW. -/
def infoStwRenew : CmdInfo := { op := 0x0D06, len := .fixed 1 }
/-- STW_DMA_GRANT. -/
def infoStwDmaGrant : CmdInfo := { op := 0x0D07, len := .fixed 1 }
/-- STW_DMA_RELEASE. -/
def infoStwDmaRelease : CmdInfo := { op := 0x0D08, len := .fixed 1 }
/-- TENANT_REVOKE. -/
def infoTenantRevoke : CmdInfo := { op := 0x0D09, len := .fixed 1 }
/-- STW_QUARANTINE. -/
def infoStwQuarantine : CmdInfo := { op := 0x0D0A, len := .fixed 1 }
/-- STW_RELEASE. -/
def infoStwRelease : CmdInfo := { op := 0x0D0B, len := .fixed 1 }
/-- ENG_TEST. -/
def infoEngTest : CmdInfo := { op := 0x4D00, len := .fixed 1 }

/-- The 64 bytes of STW_STATUS. -/
def stwStatusBytes (s : State) : Bytes :=
  let chs := (List.range 16).foldl (fun m n => if (getCh s n).tenant.isNone then setBit m n true else m) 0
  le 8 s.tick ++ le 2 (usableEngs s).length ++ le 2 s.pwr.gatedClusters ++ [byteOf (popcount 256 s.stw.disabled), 0]
    ++ le 2 ((s.stw.tenants.map (·.granted)).foldl (· + ·) 0) ++ le 4 (freePages s) ++ le 4 (countPg s (·.zero.isSome))
    ++ le 2 chs ++ le 2 (s.stw.reqs.filter (·.waited)).length ++ le 32 s.stw.disabled ++ zeros 4

/-- The code of a tenant's state. -/
def tenStCode : TenSt → Nat
  | .off => 0
  | .active => 1
  | .quarantined => 2

/-- What TEN_STATE reads. DESIGN CHOICE: a device tenant, whose class never commits, reads ACTIVE while its carrier uses engines, and OFF
as at reset otherwise (R402, R403, R418; log entry 185). -/
def tenState (s : State) (t : Nat) : Nat := if t < 2 then b2n (0 < nlcEngines s (devLine t)) else tenStCode (getTen s t).st

/-- The 96 bytes of TEN_STATUS. -/
def tenStatusBytes (s : State) (t : Nat) : Bytes :=
  let x := getTen s t
  let imgs := countPg s fun g => g.owner == some t && g.image
  le 8 s.tick ++ [byteOf (tenState s t), byteOf (tenN s 0xD000 t), byteOf (tenN s 0xD001 t), byteOf (heldChs s t).length]
    ++ le 2 x.granted ++ le 2 x.requested ++ le 4 (heldCount s t) ++ le 4 imgs ++ le 8 x.renewTick ++ le 8 x.refTick
    ++ [byteOf x.refSpace, byteOf x.refEng, 0, 0] ++ le 8 x.refAddr ++ le 2 (min 65535 x.refusals) ++ le 2 x.overLast
    ++ (x.bases.flatMap (le 4)) ++ [byteOf x.evt] ++ zeros 7

/-- The pages STW_PAGE_FREE names. -/
def pagesNamed (b : Bytes) : List Nat := ((List.range (fld b 2 2)).map fun i => fld b (4 + 2 * i) 2).eraseDups

end Sys2Proof.Machine
end

