-- ==== Sys2Proof/Machine/EngineOps.lean ====
section
/-! DEFINITION. EngineOps.lean: what each instruction of a tick engine does (R391 to R398). -/
namespace Sys2Proof.Machine

/-! ## Registers -/

/-- A scalar register. -/
def Run.s (r : Run) (n : Nat) : BitVec 64 := r.sr.getD n 0

/-- A vector register. -/
def Run.v (r : Run) (n : Nat) : BitVec 512 := r.vr.getD n 0

/-- A predicate register; P0 reads as all ones. -/
def Run.p (r : Run) (n : Nat) : BitVec 64 := if n = 0 then BitVec.allOnes 64 else r.pr.getD n 0

/-- Write a scalar register. -/
def Run.setS (n : Nat) (x : BitVec 64) (r : Run) : Run := { r with sr := r.sr.set n x }

/-- Write a vector register. -/
def Run.setV (n : Nat) (x : BitVec 512) (r : Run) : Run := { r with vr := r.vr.set n x }

/-- Write a predicate register; writes to P0 are ignored. -/
def Run.setP (n : Nat) (x : BitVec 64) (r : Run) : Run := if n = 0 then r else { r with pr := r.pr.set n x }

/-- Where an instruction issues: engine, cycle, the length of the code, its own address. -/
structure Issue where
  e : Nat
  at_ : Nat
  code : Nat
  pc : Nat

/-- What an instruction does, once issued, to its run and the rest of the device. -/
abbrev EngOp := Issue → EWord → Run → State → Run × State

/-- The guard's predicate. -/
def guardOf (w : EWord) (r : Run) : BitVec 64 := r.p w.guard

/-- Does a scalar instruction execute (R392)? -/
def runs (w : EWord) (r : Run) : Bool := (guardOf w r).getLsbD 0

/-- The immediate sign-extended to 64 bits. -/
def immS (w : EWord) : BitVec 64 := w.imm.signExtend 64

/-! ## Lanes -/

/-- The lane width an instruction chooses, in bits. -/
def laneW (w : EWord) : Nat := 8 * 2 ^ w.width

/-- The lanes of a vector, lane 0 first. -/
def lanes (k : Nat) (v : BitVec 512) : List Nat := (List.range (512 / k)).map fun i => (v.toNat >>> (i * k)) % 2 ^ k

/-- A vector of lanes. -/
def unlanes (k : Nat) (xs : List Nat) : BitVec 512 :=
  BitVec.ofNat 512 (xs.foldr (fun x acc => acc * 2 ^ k + x % 2 ^ k) 0)

/-- The new lanes where the guard's lowest-byte bit is set, the old ones elsewhere (R392). -/
def maskLanes (k : Nat) (g : BitVec 64) (old new : List Nat) : List Nat :=
  (List.range (512 / k)).map fun i => if g.getLsbD (i * (k / 8)) then new.getD i 0 else old.getD i 0

/-- Write lanes to Vd under the guard. -/
def putLanes (w : EWord) (k : Nat) (new : List Nat) (r : Run) : Run :=
  r.setV w.d (unlanes k (maskLanes k (guardOf w r) (lanes k (r.v w.d)) new))

/-- A lane as a signed number. -/
def laneI (k n : Nat) : Int := sx k n

/-- Saturate to a signed lane. -/
def satLane (k : Nat) (x : Int) : Nat := ux k (clampI (-(2 ^ (k - 1) : Nat)) ((2 ^ (k - 1) : Nat) - 1) x)

/-! ## Forms -/

/-- A scalar instruction of two sources. -/
def scalar2 (f : BitVec 64 → BitVec 64 → BitVec 64) : EngOp := fun _ w r s =>
  (if runs w r then r.setS w.d (f (r.s w.a) (r.s w.b)) else r, s)

/-- A scalar shift; for 64 and more the specification states no result: a free value. -/
def scalarShift (f : BitVec 64 → Nat → BitVec 64) : EngOp := fun _ w r s =>
  let k := (r.s w.b).toNat
  if !runs w r then (r, s)
  else if k < 64 then (r.setS w.d (f (r.s w.a) k), s)
  else (r.setS w.d (BitVec.ofNat 64 s.fresh.1), s.fresh.2)

/-- A scalar comparison: Pd becomes all ones or all zeros. -/
def scalarCmp (f : BitVec 64 → BitVec 64 → Bool) : EngOp := fun _ w r s =>
  (if runs w r then r.setP w.d (if f (r.s w.a) (r.s w.b) then BitVec.allOnes 64 else 0) else r, s)

/-- A vector instruction lane by lane. -/
def vector2 (f : Nat → Nat → Nat → Nat) : EngOp := fun _ w r s =>
  let k := laneW w
  (putLanes w k (List.zipWith (f k) (lanes k (r.v w.a)) (lanes k (r.v w.b))) r, s)

/-- A vector shift by imm[5:0]; for the lane's width and more the specification states no result: free lanes. -/
def vectorShift (f : Nat → Nat → Nat → Nat) : EngOp := fun _ w r s =>
  let k := laneW w
  let n := w.imm.toNat % 64
  if n < k then (putLanes w k ((lanes k (r.v w.a)).map fun x => f k x n) r, s)
  else (putLanes w k (lanes k (BitVec.ofNat 512 s.fresh.1)) r, s.fresh.2)

/-- A vector comparison: each guarded lane's result stands in all of its byte bits of Pd. -/
def vectorCmp (f : Nat → Nat → Nat → Bool) : EngOp := fun _ w r s =>
  let k := laneW w
  let res := List.zipWith (f k) (lanes k (r.v w.a)) (lanes k (r.v w.b))
  let g := guardOf w r
  let one (p : Nat) (i : Nat) : Nat :=
    if g.getLsbD (i * (k / 8)) then
      (List.range (k / 8)).foldl (fun p j => setBit p (i * (k / 8) + j) (res.getD i false)) p
    else p
  (r.setP w.d (BitVec.ofNat 64 ((List.range (512 / k)).foldl one (r.p w.d).toNat)), s)

/-! ## Control -/

/-- END: the run completes when its outstanding Store writes have finished within the budget (R390). -/
def opEnd : EngOp := fun i w r s =>
  let last := ((r.pend.filter (·.2)).map (·.1)).foldl max (i.at_ + 1)
  (if runs w r then { r with ended := some (if last ≤ 5800 then 0 else 1) } else r, s)

/-- NOP. -/
def opNop : EngOp := fun _ _ r s => (r, s)

/-- BR: to its own address plus imm; taken, it takes 3 cycles. -/
def opBr : EngOp := fun i w r s =>
  (if runs w r then { r with pc := ((i.pc : Int) + w.imm.toInt).toNat, cycle := r.cycle + 2 } else r, s)

/-- EVT: the tenant's code of the first engine in this tick; PROG_EVENT once per tick (R421). -/
def opEvt : EngOp := fun i w r s =>
  if !runs w r then (r, s)
  else
    let t := getTen s r.tenant
    let first := match t.evtEng with
      | none => true
      | some e => decide (i.e < e)
    let s := if first then updTen r.tenant (fun x => { x with evt := w.imm.toNat % 256, evtEng := some i.e }) s else s
    (r, if s.stw.once.contains 0xD2 then s else raise 0xD2 (updStw (fun x => { x with once := 0xD2 :: x.once }) s))

/-- Bytes left on a port of a run (R396). -/
def bytesLeft (s : State) (r : Run) (k : Nat) : Nat :=
  match portOf s r.tenant k with
  | none => 0
  | some (_, _, z) => z - r.pos.getD k 0

/-- SYS: the value selected by imm[3:0]; for 7 the specification names none. -/
def opSys : EngOp := fun i w r s =>
  if !runs w r then (r, s)
  else
    let k := w.imm.toNat % 16
    if k = 7 then (r.setS w.d (BitVec.ofNat 64 s.fresh.1), s.fresh.2)
    else
      let x := match k with
        | 0 => s.tick
        | 1 => i.e
        | 2 => r.tenant
        | 3 => r.slot
        | 4 => (getTen s r.tenant).granted
        | 5 => 5800 - i.at_
        | 6 => b2n r.cold
        | _ => bytesLeft s r (k - 8)
      (r.setS w.d (BitVec.ofNat 64 x), s)

/-! ## Scalar -/

/-- ADD. -/
def opAdd : EngOp := scalar2 (· + ·)
/-- SUB. -/
def opSub : EngOp := scalar2 (· - ·)
/-- AND. -/
def opAnd : EngOp := scalar2 (· &&& ·)
/-- OR. -/
def opOr : EngOp := scalar2 (· ||| ·)
/-- XOR. -/
def opXor : EngOp := scalar2 (· ^^^ ·)
/-- SHL. -/
def opShl : EngOp := scalarShift (fun a k => a <<< k)
/-- SHR. -/
def opShr : EngOp := scalarShift (fun a k => a >>> k)
/-- SAR. -/
def opSar : EngOp := scalarShift (fun a k => a.sshiftRight k)
/-- MOVI. -/
def opMovi : EngOp := fun _ w r s => (if runs w r then r.setS w.d (immS w) else r, s)
/-- ADDI. -/
def opAddi : EngOp := fun _ w r s => (if runs w r then r.setS w.d (r.s w.a + immS w) else r, s)
/-- CMPEQ. -/
def opCmpeq : EngOp := scalarCmp (fun a b => a == b)
/-- CMPLT, signed. -/
def opCmplt : EngOp := scalarCmp (fun a b => a.slt b)
/-- CMPLTU. -/
def opCmpltu : EngOp := scalarCmp (fun a b => a.ult b)
/-- MUL: the low 64 bits. -/
def opMul : EngOp := scalar2 (· * ·)
/-- MULH: the signed high half. -/
def opMulh : EngOp := scalar2 (fun a b => BitVec.ofInt 64 ((a.toInt * b.toInt).fdiv (2 ^ 64)))
/-- MULHU: the unsigned high half. -/
def opMulhu : EngOp := scalar2 (fun a b => BitVec.ofNat 64 (a.toNat * b.toNat / 2 ^ 64))

/-! ## Vector -/

/-- ADD. -/
def opVadd : EngOp := vector2 (fun _ a b => a + b)
/-- SUB. -/
def opVsub : EngOp := vector2 (fun k a b => a + 2 ^ k - b)
/-- ADDS: signed saturating. -/
def opVadds : EngOp := vector2 (fun k a b => satLane k (laneI k a + laneI k b))
/-- SUBS: signed saturating. -/
def opVsubs : EngOp := vector2 (fun k a b => satLane k (laneI k a - laneI k b))
/-- MIN, signed. -/
def opVmin : EngOp := vector2 (fun k a b => if laneI k a ≤ laneI k b then a else b)
/-- MAX, signed. -/
def opVmax : EngOp := vector2 (fun k a b => if laneI k a ≤ laneI k b then b else a)
/-- AND. -/
def opVand : EngOp := vector2 (fun _ a b => a &&& b)
/-- OR. -/
def opVor : EngOp := vector2 (fun _ a b => a ||| b)
/-- XOR. -/
def opVxor : EngOp := vector2 (fun _ a b => a ^^^ b)
/-- SHL. -/
def opVshl : EngOp := vectorShift (fun _ x n => x <<< n)
/-- SHR. -/
def opVshr : EngOp := vectorShift (fun _ x n => x >>> n)
/-- SAR. -/
def opVsar : EngOp := vectorShift (fun k x n => ux k (ifloor (laneI k x) (2 ^ n)))
/-- CMPEQ. -/
def opVcmpeq : EngOp := vectorCmp (fun _ a b => a == b)
/-- CMPLT, signed. -/
def opVcmplt : EngOp := vectorCmp (fun k a b => decide (laneI k a < laneI k b))
/-- MUL: the low bits of each product. -/
def opVmul : EngOp := vector2 (fun _ a b => a * b)

/-- MAC: Vd += Va × Vb, signed saturating. -/
def opMac : EngOp := fun _ w r s =>
  let k := laneW w
  let ab := List.zipWith (fun a b => laneI k a * laneI k b) (lanes k (r.v w.a)) (lanes k (r.v w.b))
  (putLanes w k (List.zipWith (fun d x => satLane k (laneI k d + x)) (lanes k (r.v w.d)) ab) r, s)

/-- The rounded Q15 product of two complex lanes, with the conjugate of the second or not (R393). -/
def cprod (conj : Bool) (x y : Nat) : Int × Int :=
  let xi := laneI 16 (x % 65536)
  let xq := laneI 16 (x / 65536)
  let yi := laneI 16 (y % 65536)
  let yq := if conj then -laneI 16 (y / 65536) else laneI 16 (y / 65536)
  (ifloor (xi * yi - xq * yq + 16384) 32768, ifloor (xi * yq + xq * yi + 16384) 32768)

/-- Is a component within 16 bits? -/
def in16 (x : Int) : Bool := decide (-32768 ≤ x) && decide (x ≤ 32767)

/-- A complex form on 32-bit lanes; a component outside 16 bits has no stated result: it takes the free bits. -/
def complexOp (conj acc : Bool) : EngOp := fun _ w r s =>
  let vd := lanes 32 (r.v w.d)
  let fr := lanes 32 (BitVec.ofNat 512 s.fresh.1)
  let one (i : Nat) : Int × Int :=
    let (re, im) := cprod conj ((lanes 32 (r.v w.a)).getD i 0) ((lanes 32 (r.v w.b)).getD i 0)
    let d := vd.getD i 0
    if acc then (laneI 16 (d % 65536) + re, laneI 16 (d / 65536) + im) else (re, im)
  let out (i : Nat) : Nat :=
    let (re, im) := one i
    let f := fr.getD i 0
    (if in16 re then ux 16 re else f % 65536) + 65536 * (if in16 im then ux 16 im else f / 65536)
  (putLanes w 32 ((List.range 16).map out) r, s.fresh.2)

/-- CMUL. -/
def opCmul : EngOp := complexOp false false
/-- CMAC. -/
def opCmac : EngOp := complexOp false true
/-- CMACC: with the conjugate of Vb. -/
def opCmacc : EngOp := complexOp true true

/-! ## Permute -/

/-- BCAST: Sa to every lane. -/
def opBcast : EngOp := fun _ w r s =>
  let k := laneW w
  (putLanes w k (List.replicate (512 / k) ((r.s w.a).toNat)) r, s)

/-- SHUF: lane i := Va lane Vb[i]; an index with no lane has no stated result. -/
def opShuf : EngOp := fun _ w r s =>
  let k := laneW w
  let va := lanes k (r.v w.a)
  let fr := lanes k (BitVec.ofNat 512 s.fresh.1)
  (putLanes w k ((lanes k (r.v w.b)).zipIdx.map fun x => va.getD x.1 (fr.getD x.2 0)) r, s.fresh.2)

/-- ROT by imm lanes. -/
def opRot : EngOp := fun _ w r s =>
  let k := laneW w
  let n := 512 / k
  let va := lanes k (r.v w.a)
  let by_ : Int := if Config.rotUp then -w.imm.toInt else w.imm.toInt
  (putLanes w k ((List.range n).map fun (i : Nat) => va.getD (((i : Int) + by_) % n).toNat 0) r, s)

/-- REDADD: Sd := the sum of Va's lanes. -/
def opRedadd : EngOp := fun _ w r s =>
  let k := laneW w
  let sum : Int := ((lanes k (r.v w.a)).map fun x => if Config.redSigned then laneI k x else (x : Int)).foldl (· + ·) 0
  (if runs w r then r.setS w.d (BitVec.ofInt 64 sum) else r, s)

/-- INS: lane imm := Sa; an imm with no lane writes nothing. -/
def opIns : EngOp := fun _ w r s =>
  let k := laneW w
  let old := lanes k (r.v w.d)
  (putLanes w k (if w.imm.toInt < 0 then old else old.set w.imm.toNat ((r.s w.a).toNat)) r, s)

/-- EXT: Sd := lane imm; an imm with no lane has no stated result. -/
def opExt : EngOp := fun _ w r s =>
  let k := laneW w
  if !runs w r then (r, s)
  else if w.imm.toInt < 0 ∨ 512 / k ≤ w.imm.toNat then (r.setS w.d (BitVec.ofNat 64 s.fresh.1), s.fresh.2)
  else
    let x := (lanes k (r.v w.a)).getD w.imm.toNat 0
    (r.setS w.d (if Config.extSigned then BitVec.ofInt 64 (laneI k x) else BitVec.ofNat 64 x), s)

/-! ## Predicates -/

/-- PAND. -/
def opPand : EngOp := fun _ w r s => (if runs w r then r.setP w.d (r.p w.a &&& r.p w.b) else r, s)
/-- POR. -/
def opPor : EngOp := fun _ w r s => (if runs w r then r.setP w.d (r.p w.a ||| r.p w.b) else r, s)
/-- PNOT. -/
def opPnot : EngOp := fun _ w r s => (if runs w r then r.setP w.d (~~~(r.p w.a)) else r, s)
/-- PMOV. -/
def opPmov : EngOp := fun _ w r s => (if runs w r then r.setP w.d (r.s w.a) else r, s)

/-! ## Accesses (R394, R395, R428) -/

/-- The byte addresses of an access. -/
def accAddrs (a n : Nat) : List Nat := (List.range n).map fun i => (a + i) % 2 ^ 64

/-- The lowest of some addresses. -/
def lowest : List Nat → Option Nat
  | [] => none
  | x :: xs => some (xs.foldl min x)

/-- The address Sa + imm. -/
def accAddr (w : EWord) (r : Run) : Nat := (r.s w.a + immS w).toNat

/-- A refusal counts against TEN_FAULT_LIMIT: at the limit the tenant is quarantined in the next commit window (R414). -/
def countFault (t : Nat) (s : State) : State :=
  let s := updTen t (fun x => { x with refusals := x.refusals + 1 }) s
  let lim := tenN s 0xD007 t
  if 2 ≤ t ∧ lim ≠ 0 ∧ lim ≤ (getTen s t).refusals ∧ (getTen s t).st = .active then
    updStw (fun x => { x with revokes := x.revokes ++ [(none, t, true)] }) s
  else s

/-- Record a forbidden or poisoned address (R395). -/
def noteAddr (t e space a : Nat) (s : State) : State :=
  updTen t (fun x => { x with refTick := s.tick, refSpace := space, refEng := e, refAddr := a }) s

/-- An access outside its region: the run is aborted, the refusal recorded, reported and counted. -/
def refused (i : Issue) (space a : Nat) (r : Run) (s : State) : Run × State :=
  ({ r with ended := some 2 },
    countFault r.tenant (raise 0xD1 (bump (tenCnt r.tenant 3) (noteAddr r.tenant i.e space a s))))

/-- A read that reaches a poisoned page: the run is aborted, nothing is counted against the limit. -/
def poisoned (i : Issue) (a g : Nat) (r : Run) (s : State) : Run × State :=
  ({ r with ended := some 2 }, strOnce 0xE2 (noteAddr r.tenant i.e 1 (max a (g * 4096)) s))

/-- The lowest forbidden byte of a local access: outside the data region, which runs from the code's end to 0xFFFF. -/
def localBad (code a n : Nat) : Option Nat := lowest ((accAddrs a n).filter fun x => x < code || 65536 ≤ x)

/-- The lowest forbidden byte of a Store access of a tenant. -/
def storeBad (s : State) (t a n : Nat) : Option Nat :=
  lowest ((accAddrs a n).filter fun x => !(decide (x < 134217728) && ownsPage s t (x / 4096)))

/-- The local memory of engine `e`. -/
def localRead (s : State) (e a n : Nat) : Bytes := SMap.getAll (0 : Byte) (getEng s e).mem a n

/-- Write local memory of engine `e`. -/
def localWrite (e a : Nat) (bs : Bytes) (s : State) : State :=
  setEng e { getEng s e with mem := SMap.putAll (0 : Byte) (getEng s e).mem a bs } s

/-- Write the bytes whose guard bit is set. -/
def localMasked (e a : Nat) (g : BitVec 64) (bs : Bytes) (s : State) : State :=
  bs.zipIdx.foldl (fun s b => if g.getLsbD b.2 then localWrite e (a + b.2) [b.1] s else s) s

/-- The bytes of a vector. -/
def vecBytes (v : BitVec 512) : Bytes := le 64 v.toNat

/-- Put 64 bytes into Vd under the guard. -/
def loadVec (w : EWord) (bs : Bytes) (r : Run) : Run :=
  putLanes w (laneW w) (lanes (laneW w) (BitVec.ofNat 512 (unle bs))) r

/-- LD: 1, 2, 4 or 8 bytes, zero-extended. -/
def opLd : EngOp := fun i w r s =>
  let n := 2 ^ w.width
  let a := accAddr w r
  if !runs w r then (r, s)
  else match localBad i.code a n with
    | some x => refused i 0 x r s
    | none => (r.setS w.d (BitVec.ofNat 64 (unle (localRead s i.e a n))), s)

/-- ST. -/
def opSt : EngOp := fun i w r s =>
  let n := 2 ^ w.width
  let a := accAddr w r
  if !runs w r then (r, s)
  else match localBad i.code a n with
    | some x => refused i 0 x r s
    | none => (r, localWrite i.e a (le n (r.s w.b).toNat) s)

/-- VLD: 64 bytes. -/
def opVld : EngOp := fun i w r s =>
  let a := accAddr w r
  match localBad i.code a 64 with
  | some x => refused i 0 x r s
  | none => (loadVec w (localRead s i.e a 64) r, s)

/-- VST: the bytes whose guard bit is set. -/
def opVst : EngOp := fun i w r s =>
  let a := accAddr w r
  match localBad i.code a 64 with
  | some x => refused i 0 x r s
  | none => (r, localMasked i.e a (guardOf w r) (vecBytes (r.v w.b)) s)

/-! ## Stream ports (R396 to R398) -/

/-- The Store address of byte `pos` of a run's window on a bound port. -/
def windowAddr (s : State) (t slot k pos : Nat) : Nat :=
  match portOf s t k with
  | none => 0
  | some (f, c, z) => f * 4096 + ((getTen s t).bases.getD k 0 + slot * z + pos) % max 1 (c * 4096)

/-- The 64-byte units of a port's window that `n` bytes from place `pos` begin are read, in order (R397): their bytes, or the address
and cause of the first that cannot be read. -/
def readUnits (r : Run) (k pos n : Nat) (s : State) : Except (Nat × Nat) Bytes × State :=
  let units := ((List.range ((pos + n + 63) / 64)).filter fun u => pos ≤ 64 * u)
  units.foldl (fun (x : Except (Nat × Nat) Bytes × State) u =>
    match x.1 with
    | .error _ => x
    | .ok l =>
      let a := windowAddr x.2 r.tenant r.slot k (64 * u)
      let (res, s) := storeRead a 64 x.2
      match res with
      | .ok b => (.ok (l ++ b), s)
      | .error g => (.error (a, g), s)) (.ok [], s)

/-- Take the next `n` bytes of an IN port; past the end of the window they are zeros. -/
def portIn (i : Issue) (k n : Nat) (put : Bytes → Run → Run) (r : Run) (s : State) : Run × State :=
  let pos := r.pos.getD k 0
  let m := min n (bytesLeft s r k)
  let r := { r with pos := r.pos.set k (pos + n) }
  match if m = 0 then (.ok [], s) else readUnits r k pos m s with
  | (.error (a, g), s) => poisoned i a g r s
  | (.ok l, s) =>
    let bs := r.ahead.getD k [] ++ l
    (put (padTo n (bs.take m)) { r with ahead := r.ahead.set k (bs.drop m) }, s)

/-- Write bytes at Store addresses, joining neighbours. -/
def storePut (l : List (Nat × Byte)) (s : State) : State :=
  let runs := l.foldr (fun x (acc : List (Nat × Bytes)) => match acc with
    | [] => [(x.1, [x.2])]
    | (a, bs) :: rest => if a = x.1 + 1 then (x.1, x.2 :: bs) :: rest else (x.1, [x.2]) :: (a, bs) :: rest) []
  runs.foldl (fun s x => storeWrite x.1 x.2 s) s

/-- Give the next bytes of an OUT port; past the end of the window they are ignored, unguarded bytes stay. -/
def portOut (k : Nat) (g : Nat → Bool) (bs : Bytes) (r : Run) (s : State) : Run × State :=
  let pos := r.pos.getD k 0
  let m := bytesLeft s r k
  let l := ((bs.zipIdx.filter fun b => g b.2 && decide (b.2 < m)).map fun b =>
    (windowAddr s r.tenant r.slot k (pos + b.2), b.1))
  ({ r with pos := r.pos.set k (pos + bs.length) }, storePut l s)

/-- VIN: the next 64 bytes of IN imm[1:0]. -/
def opVin : EngOp := fun i w r s => portIn i (w.imm.toNat % 4) 64 (loadVec w) r s

/-- VOUT: the next 64 bytes of OUT imm[1:0]. -/
def opVout : EngOp := fun _ w r s =>
  portOut (4 + w.imm.toNat % 4) (fun j => (guardOf w r).getLsbD j) (vecBytes (r.v w.b)) r s

/-- SIN: the next 8 bytes. -/
def opSin : EngOp := fun i w r s =>
  if runs w r then portIn i (w.imm.toNat % 4) 8 (fun bs r => r.setS w.d (BitVec.ofNat 64 (unle bs))) r s else (r, s)

/-- SOUT: the next 8 bytes. -/
def opSout : EngOp := fun _ w r s =>
  if runs w r then portOut (4 + w.imm.toNat % 4) (fun _ => true) (le 8 (r.s w.b).toNat) r s else (r, s)

/-! ## Store -/

/-- SLD: Vd := 64 bytes. -/
def opSld : EngOp := fun i w r s =>
  let a := accAddr w r
  match storeBad s r.tenant a 64 with
  | some x => refused i 1 x r s
  | none =>
    match storeRead a 64 s with
    | (.error g, s) => poisoned i a g r s
    | (.ok bs, s) => (loadVec w bs r, s)

/-- SST: the bytes whose guard bit is set. -/
def opSst : EngOp := fun i w r s =>
  let a := accAddr w r
  match storeBad s r.tenant a 64 with
  | some x => refused i 1 x r s
  | none =>
    let g := guardOf w r
    (r, storePut (((vecBytes (r.v w.b)).zipIdx.filter fun b => g.getLsbD b.2).map fun b => (a + b.2, b.1)) s)

/-- SWAIT: it has waited when it issues. -/
def opSwait : EngOp := fun _ _ r s => (r, s)

end Sys2Proof.Machine
end

