-- ==== Sys2Proof/Machine/Dma.lean ====
section
/-! DEFINITION. Dma.lean: DMA channels and CRC units (R433 to R439). -/
namespace Sys2Proof.Machine

/-! ## CRC units (R438, R439) -/

/-- CRC unit `u`. -/
def getCrc (s : State) (u : Nat) : Crc := s.str.crc.getD u {}

/-- Change CRC unit `u`. -/
def updCrc (u : Nat) (f : Crc → Crc) (s : State) : State := updStr (fun x => { x with crc := lmod x.crc u f }) s

/-- The width of an algorithm's register. -/
def crcWidth (alg : Nat) : Nat :=
  match alg with
  | 2 => 16
  | 3 => 64
  | _ => 32

/-- An algorithm's initial value: all ones in its width. -/
def crcInit (alg : Nat) : Nat := 2 ^ crcWidth alg - 1

/-- Feed bytes to a running value, kept in reflected form for reflected algorithms. -/
def crcRun (alg run : Nat) (bs : Bytes) : Nat :=
  match alg with
  | 0 => crcRefl 0x82F63B78 run bs
  | 1 => crcRefl 0xEDB88320 run bs
  | 2 => crcMsb 16 0x1021 run bs
  | _ => crcRefl 0xC96C5795D7870F42 run bs

/-- The result an algorithm makes of its running value. -/
def crcResult (alg run : Nat) : Nat := if alg = 2 then run else run ^^^ crcInit alg

/-- Feed source bytes of a descriptor to unit `u`, ahead of its first ones the descriptor's fold tag. -/
def crcFeed (u source : Nat) (first : Bool) (bs : Bytes) (s : State) : State :=
  let x := getCrc s u
  let tag := match if first then x.fold else 0 with
    | 1 => le 8 source
    | 2 => le 8 x.seq
    | _ => []
  bumpBy (1822 + u) (tag ++ bs).length (updCrc u (fun y => { y with
    run := crcRun y.alg y.run (tag ++ bs), seq := if first && y.fold = 2 then (y.seq + 1) % 2 ^ 64 else y.seq }) s)

/-! ## Descriptors (R433, R435) -/

/-- The fields of 32 descriptor bytes. -/
def descOf (b : Bytes) : Desc :=
  let f := byteAt b 21
  let m := byteAt b 22
  { source := fld b 0 8, target := fld b 8 8, len := fld b 16 4, dir := byteAt b 20, srcFixed := bit f 0, tgtFixed := bit f 1,
    intr := bit f 2, feed := bit f 3, shuffle := bits m 3 0, elem := bits m 5 4, crc := bits (byteAt b 23) 2 0,
    next := fld b 24 8 }

/-- Does a descriptor keep the table of R433, a Store address within the Store, and R435? -/
def descOk (b : Bytes) : Bool :=
  let d := descOf b
  1 ≤ d.len && d.len ≤ 16777216 && d.dir ≤ 2 && (d.dir == 0 || d.source < 134217728) && (d.dir == 1 || d.target < 134217728)
    && bits (byteAt b 21) 7 4 == 0 && d.shuffle ≤ 3 && d.elem ≤ 2
    && bits (byteAt b 22) 7 6 == 0 && bits (byteAt b 23) 7 3 == 0 && d.next % 32 == 0
    && (!(d.srcFixed || d.tgtFixed) || d.len % 64 == 0)
    && (d.shuffle == 0 || (!d.srcFixed && !d.tgtFixed && d.len % 64 == 0))
    && (d.shuffle == 0 || d.shuffle == 3 || d.len % (4 * 2 ^ d.elem) == 0)

/-- The bytes in the order a reshuffle writes them. -/
def reshuffle (d : Desc) (bs : Bytes) : Bytes :=
  let a := bs.toArray
  let n := a.size
  let e := 2 ^ d.elem
  let at_ (i : Nat) : Byte := a.getD i 0
  match d.shuffle with
  | 1 => (List.range n).map fun i => at_ ((i / e % 4) * (n / 4) + (i / e / 4) * e + i % e)
  | 2 => (List.range n).map fun i =>
    let j := i / max 1 (n / 4)
    let k := i % max 1 (n / 4) / e
    at_ ((4 * k + j) * e + i % e)
  | 3 => (List.range n).map fun i =>
    let p := i / max 1 (n / 8)
    let q := i % max 1 (n / 8)
    byteOf ((List.range 8).foldl (fun v r => if (at_ (8 * q + r)).getLsbD p then v + 2 ^ r else v) 0)
  | _ => bs

/-- The first address and the bytes of a range: the whole, or one 64-byte unit with a fixed address (R434). -/
def rangeOf (fixed : Bool) (a n : Nat) : Nat × Nat := if fixed then (a / 64 * 64, 64) else (a, n)

/-- The first forbidden byte of a Store range. -/
def storeRangeBad (s : State) (t a n : Nat) : Option Nat :=
  if 134217728 < a + n then
    some (match (pageParts a (134217728 - a)).find? fun p => !ownsPage s t p.1 with
      | some p => max a (p.1 * 4096)
      | none => max a 134217728)
  else ((pageParts a n).find? fun p => !ownsPage s t p.1).map fun p => max a (p.1 * 4096)

/-- The first forbidden byte of a host range: it lies within one entry of DMA_WINDOWS. -/
def hostRangeBad (s : State) (t a n : Nat) : Option Nat :=
  let ws := (chunks 16 (s.par 0xE010 (0xC0 + t))).map fun e => (fld e 0 8, fld e 8 8)
  let ends := (ws.filter fun w => w.1 ≤ a && a < w.1 + w.2).map fun w => w.1 + w.2
  let top := ends.foldl max a
  if a + n ≤ top then none else some top

/-- The first forbidden byte of a descriptor's source, then of its target. -/
def descBad (s : State) (t : Nat) (d : Desc) : Option Nat :=
  let (sa, sn) := rangeOf d.srcFixed d.source d.len
  let (ta, tn) := rangeOf d.tgtFixed d.target d.len
  let src := if d.dir = 0 then hostRangeBad s t sa sn else storeRangeBad s t sa sn
  src.orElse fun _ => if d.dir = 1 then hostRangeBad s t ta tn else storeRangeBad s t ta tn

/-- The Store pages a descriptor reads and writes. -/
def descPages (d : Desc) : List Nat :=
  let (sa, sn) := rangeOf d.srcFixed d.source d.len
  let (ta, tn) := rangeOf d.tgtFixed d.target d.len
  (if d.dir = 0 then [] else (pageParts sa sn).map (·.1)) ++ if d.dir = 1 then [] else (pageParts ta tn).map (·.1)

/-! ## Chains -/

/-- The counter `i` (0 bytes, 1 descriptors, 2 refusals, 3 errors, 4 aborts) of channel `n` (R444, R446): channel by channel. -/
def chCnt (n i : Nat) : Nat := 1742 + 5 * n + i

/-- A chain ends with a status: DMA_START completes, its CRC units are free (R436, R437, R439). -/
def chainEnd (n st : Nat) (s : State) : State :=
  let x := getCh s n
  let s := updStr (fun y => { y with crc := y.crc.map fun c => if c.claim = some n then { c with claim := none } else c }) s
  let s := updCh n (fun y => { y with run := none, cur := none, pages := [], abort := none, status := st }) s
  finishOpt x.run (.st st 0 (x.moved % 2 ^ 32 + x.index % 65536 * 2 ^ 32)) s

/-- A chain ends with an error (DMA_ERROR). -/
def chainError (n st : Nat) (s : State) : State := chainEnd n st (raise 0xEA (bump (chCnt n 3) s))

/-- A chain has been aborted (R437); at its deadline that is an error as well (R443). -/
def chainAborted (n st : Nat) (s : State) : State :=
  let s := if st = stTimeout then raise 0xEA (bump (chCnt n 3) s) else s
  chainEnd n st (raise 0xEB (bump (chCnt n 4) s))

/-- Read the Store for a transfer: the bytes ahead of the first poisoned page, and that page. -/
def dmaRead (a n : Nat) (s : State) : Bytes × Option Nat × State :=
  (pageParts a n).foldl (fun (x : Bytes × Option Nat × State) p =>
    match x.2.1 with
    | some _ => x
    | none =>
      let (ok, s) := touchPg p.1 p.2.1 p.2.2 x.2.2
      if ok then (x.1 ++ (List.range p.2.2).map (fun i => storeByte s (p.1 * 4096 + p.2.1 + i)), none, s)
      else (x.1, some p.1, s)) ([], none, s)

/-- The next `k` source bytes of a descriptor: those read, and the poisoned page that stopped it. -/
def readUnit (c : DmaCur) (k : Nat) (s : State) : Bytes × Option Nat × State :=
  if c.desc.dir = 0 then (slice (c.data.take c.desc.len) c.done k, none, s)
  else dmaRead (if c.desc.srcFixed then c.desc.source / 64 * 64 else c.desc.source + c.done) k s

/-- Write bytes to a descriptor's target, `off` bytes on. -/
def writeTarget (d : Desc) (off : Nat) (bs : Bytes) (s : State) : State :=
  let a := if d.tgtFixed then d.target / 64 * 64 else d.target + off
  if bs.isEmpty then s else if d.dir = 1 then hostWrite a bs s else storeWrite a bs s

/-- Bytes that a channel has moved. -/
def countMoved (n k : Nat) (s : State) : State :=
  bumpBy (chCnt n 0) k (updCh n (fun x => { x with moved := x.moved + k }) s)

/-- Move the next 64 bytes of a channel's descriptor (R433 to R435): what was read ahead of a poisoned page or a failed host read
stands; a reshuffle is written once the whole has been read. -/
def moveUnit (n : Nat) (s : State) : State :=
  match (getCh s n).cur with
  | none => s
  | some c =>
    let d := c.desc
    let k := min 64 (d.len - c.done)
    if k = 0 then s
    else
      let (bs, bad, s) := readUnit c k s
      let s := if d.feed && !bs.isEmpty then crcFeed d.crc d.source (c.done = 0) bs s else s
      let got := c.buf ++ bs
      let out := if d.shuffle = 0 then bs else if got.length = d.len then reshuffle d got else []
      let s := countMoved n out.length (writeTarget d (if d.shuffle = 0 then c.done else 0) out s)
      match bad with
      | some g => chainError n 0x1E01 (strOnce 0xE2 (updCh n (fun x => { x with addr := max d.source (g * 4096) }) s))
      | none =>
        if bs.length < k then chainError n stTimeout s
        else updCh n (fun x => { x with cur := some { c with
          done := c.done + k, buf := if d.shuffle = 0 then [] else got } }) s

/-- Move `k` units. -/
def moveUnits (n : Nat) : Nat → State → State
  | 0, s => s
  | k + 1, s => moveUnits n k (moveUnit n s)

/-- The units that a channel's descriptor has still to move. -/
def unitsLeft (s : State) (n : Nat) : Nat :=
  match (getCh s n).cur with
  | none => 0
  | some c => (c.desc.len - c.done + 63) / 64

/-- All that a channel's descriptor has still to move is moved. -/
def moveRest (n : Nat) (s : State) : State := moveUnits n (unitsLeft s n) s

/-- The channels, in increasing order, each move a free number of units. DESIGN CHOICE: the specification gives the DMA no rate; a tick
lets it move some units ahead of the engines' runs and some after them (log entry 187). -/
def dmaWork (s : State) : State :=
  (List.range 16).foldl (fun s n =>
    let left := unitsLeft s n
    if left = 0 then s else moveUnits n (s.fresh.1 % (left + 1)) s.fresh.2) s

/-- A late completion of a read that has been retried is discarded (R82). -/
def lateRead {α : Type} (r : HostRead α) (s : State) : State := if r.late then raise 0x04 (sysErr 6 (bump 25 s)) else s

/-- A checked descriptor begins: its CRC unit is claimed, and nothing has moved. -/
def transfer (n : Nat) (d : Desc) (data : Option Bytes) (s : State) : State :=
  updCh n (fun x => { x with cur := some { desc := d, data := data.getD [] }, pages := descPages d }) s

/-- One descriptor is read, checked and begun. -/
def descriptor (n : Nat) (b : Option Bytes) (data : Option Bytes) (s : State) : State :=
  let x := getCh s n
  match x.run, x.cur, x.abort, b with
  | some _, none, none, none => chainError n stTimeout s
  | some _, none, none, some b =>
    let d := descOf b
    let t := x.tenant.getD 64
    if 4096 ≤ x.index || !descOk b then chainError n stBadParam s
    else if d.feed && (match (getCrc s d.crc).claim with
      | none => false
      | some c => c != n) then chainError n 0x1E05 s
    else
      let s := if d.feed then updCrc d.crc (fun c => { c with claim := some n }) s else s
      match descBad s t d with
      | some a =>
        chainEnd n 0x1E02 (countFault t (raise 0xE9 (bump (chCnt n 2) (updCh n (fun x => { x with addr := a }) s))))
      | none => transfer n d data s
  | _, _, _, _ => s

/-- Every write of a descriptor that has moved whole has its response (R436). -/
def descriptorEnd (n : Nat) (s : State) : State :=
  let x := getCh s n
  match x.cur with
  | none => s
  | some c =>
    let s := bump (chCnt n 1) (updCh n (fun y => { y with
      cur := none, pages := [], index := y.index + 1, next := c.desc.next }) s)
    let s := if c.desc.intr then signal (byteAt (s.par 0xE011 0) n % 64) s else s
    match x.abort with
    | some st => chainAborted n st s
    | none => if c.desc.next = 0 then chainEnd n 0 s else s

/-- A descriptor completes: what is left of it moves, and its writes have their responses. -/
def descriptorComplete (n : Nat) (s : State) : State := descriptorEnd n (moveRest n s)

/-- Aborts act in the commit window: from it on no access is issued, and a chain ends there unless its descriptor has moved whole
and only awaits its responses (R437). -/
def dmaWindow (s : State) : State :=
  (List.range 16).foldl (fun s n =>
    match (getCh s n).run, (getCh s n).abort with
    | some _, some st => if (getCh s n).cur.isSome && unitsLeft s n = 0 then s else chainAborted n st s
    | _, _ => s) s

/-- Is a DMA chain running? -/
def dmaRunning (s : State) : Bool := s.str.ch.any (·.run.isSome)

/-- The channel whose chain a DMA_START runs. -/
def chainOf (s : State) (k : CmdKey) : Option Nat := (List.range 16).find? fun n => (getCh s n).run == some k

/-! ## Commands (R441) -/

/-- DMA_START. -/
def infoDmaStart : CmdInfo := { op := 0x0E04, long := true, len := .fixed 16 }
/-- DMA_STATUS. -/
def infoDmaStatus : CmdInfo := { op := 0x0E05, len := .fixed 17, desc := true }
/-- DMA_ABORT. -/
def infoDmaAbort : CmdInfo := { op := 0x0E06, len := .fixed 1 }
/-- CRC_UNIT. -/
def infoCrcUnit : CmdInfo := { op := 0x0E07, len := .fixed 24 }

/-- The 32 bytes of DMA_STATUS. -/
def dmaStatusBytes (s : State) (n : Nat) : Bytes :=
  let x := getCh s n
  let st := if x.run.isNone then 0 else if x.abort.isSome then 2 else 1
  le 8 s.tick ++ [byteOf (x.tenant.getD 255), byteOf st] ++ le 2 x.index ++ le 4 x.moved ++ le 8 x.addr ++ le 2 x.status
    ++ zeros 6

/-- What CRC_UNIT does with unit `u`. -/
def crcOp (u op : Nat) (b : Bytes) (s : State) : Reply × State :=
  let x := getCrc s u
  let busy := x.claim.isSome
  match op with
  | 0 => (.ok x.run, s)
  | 1 =>
    if busy then (.st 0x1E05, s)
    else
      let alg := byteAt b 2
      (.ok, updCrc u (fun y => { y with
        alg := alg, fold := byteAt b 3, run := fld b 8 8 % 2 ^ crcWidth alg, seq := fld b 16 8 }) s)
  | 2 => if busy then (.st 0x1E05, s) else (.ok, updCrc u (fun y => { y with run := crcInit y.alg, seq := 0 }) s)
  | 3 => (.ok x.seq, s)
  | _ => (.ok (unle [byteOf x.alg, byteOf x.fold, byteOf (b2n busy), byteOf (x.claim.getD 255)]), s)

end Sys2Proof.Machine
end

