-- ==== Sys2Proof/Machine/KeyEngine.lean ====
section
/-! DEFINITION. KeyEngine.lean: the key engine, the public-key engine and the key-epoch record (group 0x9, R270 to
R281). -/
namespace Sys2Proof.Machine

/-! ## Messages (R275) -/

/-- The 52-byte header of a key-engine message. -/
def keHeader (ty curve st epoch t mask : Nat) (nonce : Bytes) : Bytes :=
  [byteOf ty, byteOf curve] ++ be 2 st ++ be 4 epoch ++ be 8 t ++ be 4 mask ++ padTo 32 nonce

/-- The open exchange of a carrier. -/
def getExch (s : State) (c : Line) : Option Exch := (getCry s c).exch

/-- Change the open exchange. -/
def updExch (c : Line) (f : Exch → Exch) (s : State) : State := updCry c (fun x => { x with exch := x.exch.map f }) s

/-- The initiator's nonce of an exchange. -/
def Exch.initNonce (x : Exch) : Bytes := if x.init then x.nonce else x.peerNonce

/-- The header of this exchange's own message. -/
def Exch.header (x : Exch) (ty st : Nat) (nonce : Bytes) : Bytes := keHeader ty x.curve st x.epoch x.t x.mask nonce

/-- The length of a public key: 97 bytes for P-384, 32 for X25519. -/
def pubLen (curve : Nat) : Nat := if curve = 0 then 97 else 32

/-- Do a message's curve, epoch, switch tick and bitmap equal the local request's (R278)? -/
def Exch.matches (x : Exch) (m : Bytes) : Bool :=
  byteAt m 1 == x.curve && unbe (slice m 4 4) == x.epoch && unbe (slice m 8 8) == x.t && unbe (slice m 16 4) == x.mask

/-- The stage KE_STATUS shows: 1 offer, 2 answer, 3 confirm, 4 done. -/
def Exch.code (x : Exch) : Nat :=
  match x.stage with
  | .keyGen | .waitOffer => 1
  | .waitAnswer | .agree => 2
  | .install | .waitConfirm => 3
  | .waitDone => 4

/-- Send a message of the exchange: it becomes the last one, which a resend repeats. -/
def keSend (c : Line) (m : Bytes) (s : State) : State :=
  gccSendKey c m (updExch c (fun x => { x with
    lastMsg := m, sentAt := none, firstAt := none, sends := 1 }) s)

/-- The last segment of a key-engine message has left: where it is the exchange's last message, it has been sent (R278). -/
def keSegDone (c : Line) (m : Bytes) (s : State) : State :=
  updExch c (fun x => if x.lastMsg = m then
    { x with sentAt := some s.elapsed, firstAt := x.firstAt.orElse fun _ => some s.elapsed } else x) s

/-- Has the exchange of this initiator's nonce completed here as a responder within the last 500 ms (R278)? -/
def keRepeat (s : State) (c : Line) (nonce : Bytes) : Option KeRecord := (getCry s c).record.filter (·.peerNonce == nonce)

/-- End the open exchange: pending installations of the key engine go with it, KE_STATUS keeps what it was. -/
def keEnd (c : Line) (st : Nat) (s : State) : State :=
  match getExch s c with
  | none => s
  | some x =>
    let s := { s with cry := { s.cry with
      installs := s.cry.installs.filter fun i => !(i.owner.isNone && i.line == c),
      pk := s.cry.pk.filter fun o => o.kind != .keGen c && o.kind != .keEcdh c } }
    updCry c (fun y => { y with
      exch := none, lastStage := x.code, lastResends := x.resends, lastStatus := st, lastEpoch := x.epoch }) s

/-- An exchange fails (R278): it ends with the status, KE_FAILED is raised, ABORT is sent when the failure is local. -/
def keFail (c : Line) (st : Nat) (abort : Bool) (s : State) : State :=
  match getExch s c with
  | none => s
  | some x =>
    let s := raise (lineEvt 0x90 c 1) (keEnd c st s)
    let s := if abort then gccSendKey c (x.header 5 st x.initNonce) s else s
    finish x.owner (.st st) s

/-- The KEY_SWITCH entry a completing exchange makes for its transmit halves (R277). It takes a place in the timed-action table
like any other; it has no completion of its own, and DESIGN CHOICE: TIMED_LIST names it by KE_START's queue, tag and sequence
(log entry 182). -/
def keEntry (c : Line) (x : Exch) (s : State) : State :=
  let e := internalEntry s (.keSwitch c x.mask) x.t
  let p : Packet := { e.p with
    q := Fin.ofNat 9 x.owner.q, tag := BitVec.ofNat 12 x.owner.tag, seq := BitVec.ofNat 16 x.owner.seq }
  checkHigh { s with cmd := { s.cmd with
    entries := s.cmd.entries ++ [{ e with p := p, opcode := 0x0802 }], acceptNo := s.cmd.acceptNo + 1 } }

/-- An exchange completes (R277): the switch is scheduled when its tick and the timed-action table still allow it;
KE_DONE. -/
def keComplete (c : Line) (s : State) : State :=
  match getExch s c with
  | none => s
  | some x =>
    let sched : Bool := x.t != 0 && s.tick + 8 + 256 ≤ x.t && timedUsed s < 1024
    let s := if sched then keEntry c x s else s
    let s := if x.init then s else updCry c (fun y => { y with record := some {
      peerNonce := x.peerNonce, answer := x.header 2 0 x.nonce ++ x.pub ++ x.mac, done := x.header 4 0 x.initNonce,
      until_ := s.elapsed + 250000 } }) s
    let s := raise (lineEvt 0x90 c 0) (keEnd c 0 s)
    finish x.owner (.ok (b2n sched + 256 * (x.resends % 256) + 2 ^ 32 * x.epoch)) s

/-! ## Key derivation (R276) -/

/-- The transcript hash. -/
def Exch.th (x : Exch) : Bytes := sha384 (x.offer ++ x.answer)

/-- The extracted key. -/
def Exch.prk (x : Exch) (secret : Bytes) : Bytes := hkdfExtract secret x.z

/-- "gw-conf" in ASCII. -/
def strConf : Bytes := [0x67, 0x77, 0x2D, 0x63, 0x6F, 0x6E, 0x66]

/-- "gw-sa" in ASCII. -/
def strSa : Bytes := [0x67, 0x77, 0x2D, 0x73, 0x61]

/-- The confirmation of a side: 2 for the responder's MAC_R, 1 for the initiator's MAC_I. -/
def Exch.confirm (x : Exch) (secret : Bytes) (side : Nat) : Bytes :=
  hmac384 (hkdfExpand (x.prk secret) (strConf ++ x.th) 48) ([byteOf side] ++ x.th)

/-- The key of an SA and direction. -/
def Exch.saKey (x : Exch) (secret : Bytes) (a d : Nat) : Key :=
  let o := hkdfExpand (x.prk secret) (strSa ++ x.th ++ be 4 x.epoch ++ [byteOf a, byteOf d]) 36
  { key := slice o 0 32, salt := slice o 32 4, epoch := x.epoch }

/-- The installations of an exchange: the initiator's transmit halves take direction 0. -/
def Exch.installs (x : Exch) (c : Line) (secret : Bytes) : List Install :=
  (saSet x.mask).flatMap fun a =>
    [ { owner := none, line := c, sa := a, tx := true, due := none, key := x.saKey secret a (b2n !x.init) },
      { owner := none, line := c, sa := a, tx := false, due := none, key := x.saKey secret a (b2n x.init) } ]

/-- The exchange's keys are installed: CONFIRM by the initiator, DONE by the responder, which completes with it. -/
def keInstalled (c : Line) (s : State) : State :=
  match getExch s c with
  | some x =>
    if x.stage ≠ .install then s
    else if x.init then
      let mac := x.confirm ((getCry s c).secret.getD []) 1
      keSend c (x.header 3 0 x.nonce ++ mac) (updExch c (fun x => { x with stage := .waitDone }) s)
    else keComplete c (keSend c (x.header 4 0 x.peerNonce) s)
  | none => s

/-- Accept a list of the key engine's installations, each checked against those before it; the first failing status ends
the exchange. -/
def keAddAll (c : Line) : List Install → State → State
  | [], s => s
  | x :: xs, s =>
    match installCheck s x true with
    | 0 => keAddAll c xs (addInstall x s)
    | st => keFail c st true s

/-- Begin installing the keys of an exchange (R277 steps 3 and 4). -/
def keInstallAll (c : Line) (s : State) : State :=
  match getExch s c with
  | none => s
  | some x =>
    let s := updExch c (fun x => { x with stage := .install }) s
    if x.mask % 2 ^ 26 = 0 then keInstalled c s else keAddAll c (x.installs c ((getCry s c).secret.getD [])) s

/-- Make the installations due in this commit window, in order of acceptance, each checked again (R273). -/
def applyInstalls (s : State) : State :=
  let due := s.cry.installs.filter fun x => match x.due with
    | some t => t ≤ s.elapsed
    | none => false
  due.foldl (fun s x =>
    if !s.cry.installs.contains x then s
    else
      let s := { s with cry := { s.cry with installs := s.cry.installs.erase x } }
      match installCheck s x false with
      | 0 =>
        let s := install x s
        (match x.owner with
        | some k => finish k .ok s
        | none =>
          if s.cry.installs.any fun y => y.owner.isNone && y.line == x.line then s else keInstalled x.line s)
      | st =>
        match x.owner with
        | some k => finish k (.st st) s
        | none => keFail x.line st true s) s

/-- KEY_INSTALL_APPLY. -/
def execKeyInstallApply (s : State) : Out := within applyInstalls s

/-! ## The key-epoch record (R270, R271) -/

/-- The installations that wait for epoch `e` fail. -/
def failInstalls (e : Nat) (s : State) : State :=
  let hit := s.cry.installs.filter fun x => x.due.isNone && x.key.epoch == e
  hit.foldl (fun s x =>
    if !s.cry.installs.contains x then s
    else
      let s := { s with cry := { s.cry with installs := s.cry.installs.erase x } }
      match x.owner with
      | some k => finish k (.st stEpochWriteFail) s
      | none => keFail x.line stEpochWriteFail true s) s

/-- The high-water mark has been written: installations it covers are due 8 ticks on (R273). -/
def epochWritten (e : Nat) (floor : Bool) (s : State) : State :=
  let h := max s.cry.high e
  { s with cry := { s.cry with
    high := h, floor := if floor then e else s.cry.floor,
    recordBad := if floor then false else s.cry.recordBad,
    installs := s.cry.installs.map fun x =>
      if x.due.isNone && x.key.epoch ≤ h then { x with due := some (s.elapsed + 8) } else x } }

/-- The write of the key-epoch record at the head of the flash operations ends (R270, R271); the record never falls behind a
higher mark written before it. -/
def epochRecordEnd (ok : Bool) (s : State) : State :=
  match s.flash.ops with
  | o :: _ =>
    if o.kind ≠ .epochRecord then s
    else
      match if ok then recWrite 0x2000 0x3000 (max o.aux s.cry.high) s else none with
      | some s =>
        let s := raise 0x94 (epochWritten o.aux (o.aux2 == 1) s)
        finishOpt o.owner .ok (flashEnded 0 s)
      | none =>
        let s := raise 0x95 (flashEnded stEpochWriteFail s)
        finishOpt o.owner (.st stEpochWriteFail) (failInstalls o.aux s)
  | [] => s

/-! ## The public-key engine (R279, R280) -/

/-- A public-key operation joins the queue. -/
def pkAdd (o : PkOp) (s : State) : State :=
  { s with cry := { s.cry with pk := s.cry.pk ++ [if s.cry.pk.isEmpty then { o with start := some s.elapsed } else o] } }

/-- The time of an operation in ticks; a verification takes at most this. -/
def pkTicks : PkKind → State → Nat
  | .verify, _ => 1250
  | .ecdh k, _ => if k = 0 then 600 else 225
  | .keGen c, s | .keEcdh c, s => if ((getExch s c).map (·.curve)).getD 0 = 0 then 600 else 225

/-- The checks of a P-384 public key: 0, PK_RANGE or PK_NOT_ON_CURVE (R279). -/
def pubCheck (x y : Nat) : Nat := if p384 ≤ x || p384 ≤ y then 0x61 else if onCurve x y then 0 else 0x62

/-- A P-384 agreement: a status, or the x-coordinate. -/
def ecdh384 (k x y : Nat) : Except Nat Bytes :=
  match pubCheck x y with
  | 0 =>
    if k = 0 ∨ n384 ≤ k then .error 0x63
    else
      match ptMul 384 k (some (x, y)) with
      | none => .error 0x64
      | some (z, _) => .ok (be 48 z)
  | st => .error st

/-- An X25519 agreement: PK_WEAK on an all-zero result. -/
def ecdh25519 (k u : Bytes) : Except Nat Bytes :=
  let z := x25519 k u
  if allZero z then .error 0x64 else .ok z

/-- The agreement of a curve with a private scalar and a public key in the message's form. -/
def ecdhOf (curve : Nat) (priv pub : Bytes) : Except Nat Bytes :=
  if curve = 0 then let (x, y) := keyXY pub; ecdh384 (unbe priv) x y else ecdh25519 priv pub

/-- The outcome of a host ECDSA verification (R280). -/
def verifyStatus (b : Bytes) : Nat :=
  let (x, y) := keyXY b
  let r := unbe (slice b 148 48)
  let q := unbe (slice b 196 48)
  match pubCheck x y with
  | 0 =>
    if r = 0 ∨ n384 ≤ r ∨ q = 0 ∨ n384 ≤ q then stAuthFail
    else if ecdsaOk x y (unbe (slice b 100 48)) r q then 0 else stAuthFail
  | st => st

/-- Random bytes of the generator: free values. -/
def drawBytes (n : Nat) (s : State) : Bytes × State :=
  (padTo n (Config.freeBytes s.free n), { s with free := s.free + 1 })

/-- The responder answers (R277 step 2): its Z and MAC_R. -/
def keAnswer (c : Line) (s : State) : State :=
  match getExch s c with
  | none => s
  | some x =>
    let head := x.header 2 0 x.nonce ++ x.pub
    let x := { x with answer := head }
    let mac := x.confirm ((getCry s c).secret.getD []) 2
    keSend c (head ++ mac) (updExch c (fun y => { y with answer := head, mac := mac, stage := .waitConfirm }) s)

/-- Start an agreement in the engine. -/
def keAgree (c : Line) (s : State) : State :=
  pkAdd { kind := .keEcdh c } (updExch c (fun x => { x with stage := .agree }) s)

/-- The key pair of an exchange is ready: OFFER by the initiator; the responder agrees once it holds an offer. -/
def keGenerated (c : Line) (s : State) : State :=
  match getExch s c with
  | none => s
  | some x =>
    if s.cry.drbgBad then keFail c 0x1906 true s
    else
      let (r, s) := drawBytes 48 s
      let (nonce, s) := drawBytes 32 s
      let priv := if x.curve = 0 then be 48 (unbe r % (n384 - 1) + 1) else r.take 32
      let pub := if x.curve = 0 then
          (match ptMul 384 (unbe priv) (some g384) with
          | some (a, b) => keyBytes a b
          | none => [])
        else x25519 priv (le 32 9)
      let s := updExch c (fun x => { x with priv := priv, pub := pub, nonce := nonce }) s
      let m := x.header 1 0 nonce ++ pub
      if x.init then keSend c m (updExch c (fun x => { x with stage := .waitAnswer, offer := m }) s)
      else if x.peerPub.isEmpty then updExch c (fun x => { x with stage := .waitOffer }) s
      else keAgree c s

/-- The agreement of an exchange ends: bad key, wrong MAC_R, or on to the next step (R277). -/
def keAgreed (c : Line) (s : State) : State :=
  match getExch s c with
  | none => s
  | some x =>
    match ecdhOf x.curve x.priv x.peerPub with
    | .error st => keFail c st true s
    | .ok z =>
      let s := updExch c (fun x => { x with z := z }) s
      if x.init then
        let x := { x with z := z }
        if x.confirm ((getCry s c).secret.getD []) 2 = x.mac then keInstallAll c s else keFail c 0x1904 true s
      else keAnswer c s

/-- The next operation of the queue starts. -/
def pkKick (s : State) : State :=
  { s with cry := { s.cry with pk := match s.cry.pk with
    | o :: os => (if o.start.isNone then { o with start := some s.elapsed } else o) :: os
    | [] => [] } }

/-- What an ended operation does. -/
def pkResult (o : PkOp) (s : State) : State :=
  match o.kind with
  | .verify =>
    raise 0x96 (finishOpt o.owner (.st (verifyStatus ((o.p.map paramBytes).getD []))) s)
  | .ecdh k =>
    let b := (o.p.map paramBytes).getD []
    let r := ecdhOf k (slice b 24 (if k = 0 then 48 else 32)) (slice b 72 (pubLen k))
    raise 0x96 (finishOpt o.owner (match r with
      | .ok z => .data z
      | .error st => .st st) s)
  | .keGen c => keGenerated c s
  | .keEcdh c => keAgreed c s

/-- The operation at the head of the queue ends when its time has come; a verification may end earlier. -/
def pkDone (early : Bool) (s : State) : State :=
  match s.cry.pk with
  | [] => s
  | o :: rest =>
    match o.start with
    | none => pkKick s
    | some t =>
      if t + pkTicks o.kind s ≤ s.elapsed || (early && o.kind == .verify && t < s.elapsed) then
        pkResult o (pkKick { s with cry := { s.cry with pk := rest } })
      else s

/-- DRBG_RESEED: once per epoch; a failed health test raises DRBG_FAIL (R281). -/
def drbgReseed (ok : Bool) (s : State) : State :=
  raiseIf (!ok) 0x97 { s with cry := { s.cry with drbgBad := !ok } }

/-! ## Received messages (R277, R278) -/

/-- Take the message at the head of the carrier's received key-engine messages when it is of this type. -/
def keTake (c : Line) (ty : Nat) (f : Bytes → State → State) (s : State) : State :=
  match (getCry s c).msgs with
  | m :: rest => if byteAt m 0 = ty then f m (updCry c (fun x => { x with msgs := rest }) s) else s
  | [] => s

/-- A reply that comes after completion is discarded and counted (R278). -/
def keLate (c : Line) (s : State) : State := bump (cryCnt c 12) s

/-- A received OFFER. -/
def onOffer (c : Line) (m : Bytes) (s : State) : State :=
  let nonce := slice m 20 32
  match keRepeat s c nonce, getExch s c with
  | some r, _ => gccSendKey c r.answer s
  | none, none => raise (lineEvt 0x90 c 2) s
  | none, some x =>
    if x.init then keFail c 0x1903 true s
    else if x.peerNonce = nonce && !x.offer.isEmpty then
      if x.mac.isEmpty then s else gccSendKey c (x.answer ++ x.mac) s
    else if !x.offer.isEmpty then s
    else if !x.matches m || m.length ≠ 52 + pubLen x.curve then keFail c 0x1903 true s
    else
      let s := updExch c (fun x => { x with offer := m, peerNonce := nonce, peerPub := m.drop 52 }) s
      if x.stage = .waitOffer then keAgree c s else s

/-- A received ANSWER. -/
def onAnswer (c : Line) (m : Bytes) (s : State) : State :=
  match getExch s c with
  | none => keLate c s
  | some x =>
    if !x.init || x.stage ≠ .waitAnswer then (if x.init then keLate c s else s)
    else if !x.matches m || m.length ≠ 52 + pubLen x.curve + 48 then keFail c 0x1903 true s
    else
      let n := pubLen x.curve
      keAgree c (updExch c (fun x => { x with
        answer := m.take (52 + n), peerNonce := slice m 20 32, peerPub := slice m 52 n, mac := m.drop (52 + n),
        sentAt := none, firstAt := none }) s)

/-- A received CONFIRM. -/
def onConfirm (c : Line) (m : Bytes) (s : State) : State :=
  let nonce := slice m 20 32
  match keRepeat s c nonce, getExch s c with
  | some r, _ => gccSendKey c r.done s
  | none, none => s
  | none, some x =>
    if x.init || x.stage ≠ .waitConfirm then s
    else if !x.matches m || nonce ≠ x.peerNonce then keFail c 0x1903 true s
    else if m.drop 52 ≠ x.confirm ((getCry s c).secret.getD []) 1 then keFail c 0x1904 true s
    else keInstallAll c s

/-- A received DONE. -/
def onDone (c : Line) (m : Bytes) (s : State) : State :=
  match getExch s c with
  | none => keLate c s
  | some x =>
    if !x.init || x.stage ≠ .waitDone then (if x.init then keLate c s else s)
    else if !x.matches m || slice m 20 32 ≠ x.nonce then keFail c 0x1903 true s
    else keComplete c s

/-- A received ABORT: the exchange ends with the status it carries. -/
def onAbort (c : Line) (m : Bytes) (s : State) : State := keFail c (unbe (slice m 2 2)) false s

/-- Whatever message is at the head is handled; one of no known type is discarded. -/
def keReceive (c : Line) (s : State) : State :=
  match (getCry s c).msgs with
  | [] => s
  | m :: rest =>
    let s := updCry c (fun x => { x with msgs := rest }) s
    match byteAt m 0 with
    | 1 => onOffer c m s
    | 2 => onAnswer c m s
    | 3 => onConfirm c m s
    | 4 => onDone c m s
    | 5 => onAbort c m s
    | _ => s

/-! ## Timers (R278) -/

/-- The initiator resends: KE_RESEND after the last segment of its message, at most 4 sends. -/
def keResend (c : Line) (s : State) : State :=
  match getExch s c with
  | none => s
  | some x =>
    let waits : Bool := x.init && (x.stage == .waitAnswer || x.stage == .waitDone)
    match x.sentAt with
    | none => s
    | some t =>
      if waits && t + 500 * s.parN 0x9001 c.inst ≤ s.elapsed && x.sends < 4 then
        let s := updExch c (fun x => { x with sends := x.sends + 1, resends := x.resends + 1, sentAt := none }) s
        raise (lineEvt 0x90 c 3) (bump (cryCnt c 11) (gccSendKey c x.lastMsg s))
      else s

/-- Has an exchange gone too long without its peer (R278)? -/
def noPeerDue (s : State) (x : Exch) : Bool :=
  let since (t : Option Nat) : Bool := match t with
    | some t => 250000 ≤ s.elapsed - t
    | none => false
  if x.init then (x.stage == .waitAnswer || x.stage == .waitDone) && since x.firstAt
  else if x.offer.isEmpty then 750000 ≤ s.elapsed - x.started
  else x.stage == .waitConfirm && since x.sentAt

/-- NO_PEER: not one of the failures R278 lists, so it raises no KE_FAILED and sends no ABORT. -/
def keNoPeer (c : Line) (s : State) : State :=
  match getExch s c with
  | none => s
  | some x => if noPeerDue s x then finish x.owner (.st 0x1905) (keEnd c 0x1905 s) else s

/-- The responder's exchange record ends 500 ms after completion. -/
def recordExpiry (c : Line) (s : State) : State :=
  updCry c (fun y => { y with record := y.record.filter fun r => s.elapsed < r.until_ }) s

/-! ## Commands (R283) -/

/-- KE_START. -/
def infoKeStart : CmdInfo := { op := 0x0900, long := true, carriers := [1, 2], len := .fixed 24 }
/-- KE_STATUS. -/
def infoKeStatus : CmdInfo := { op := 0x0901, carriers := [1, 2] }
/-- KE_ABORT. -/
def infoKeAbort : CmdInfo := { op := 0x0902, carriers := [1, 2] }
/-- KE_SECRET_SET. -/
def infoKeSecretSet : CmdInfo := { op := 0x0903, carriers := [1, 2], len := .fixed 32 }
/-- PK_VERIFY. -/
def infoPkVerify : CmdInfo := { op := 0x0904, long := true, len := .fixed 244 }
/-- PK_ECDH. -/
def infoPkEcdh : CmdInfo := { op := 0x4900, long := true, len := .fixed 169, desc := true }
/-- KE_EPOCH_FLOOR. -/
def infoKeEpochFloor : CmdInfo := { op := 0x4901, long := true, len := .fixed 4 }

/-- The exchange a KE_START asks for. -/
def startExch (p : Packet) (s : State) : Exch :=
  let b := paramBytes p
  { owner := packetKey p, init := s.parN 0x9000 (pktLine p).inst == 0, epoch := fld b 0 4, mask := fld b 4 4,
    t := fld b 8 8, curve := byteAt b 16, started := s.elapsed }

/-- Has the public-key queue of 16 a free place (R279)? -/
def pkFree (s : State) : Bool := s.cry.pk.length < 16

/-- A host operation joins the public-key queue (R279). -/
def pkHost (kind : PkKind) (p : Packet) (s : State) : Reply × State :=
  (.wait, pkAdd { kind := kind, owner := some (packetKey p), p := some p } s)

end Sys2Proof.Machine
end

