-- ==== Sys2Proof/Machine/Whisper.lean ====
section
/-! DEFINITION. Whisper.lean: the Whisper channel (group 0xA, R287 to R314). -/
namespace Sys2Proof.Machine

/-- A carrier's Whisper channel. -/
def getWh (s : State) (c : Line) : WhC := match c with
  | .a => s.wh.a
  | .b => s.wh.b

/-- Change a carrier's Whisper channel. -/
def updWh (c : Line) (f : WhC → WhC) (s : State) : State :=
  { s with wh := match c with
    | .a => { s.wh with a := f s.wh.a }
    | .b => { s.wh with b := f s.wh.b } }

/-- The first counter of a carrier's list (R314). -/
def whCnt (c : Line) (n : Nat) : Nat := 768 + 19 * c.ix + n

/-- Do the detector and its chains run (R296)? -/
def whRuns (s : State) (c : Line) : Bool :=
  1 ≤ s.parN 0xA000 c.inst && (s.pwr.state == 3 || s.pwr.state == 4 || (s.pwr.state == 2 && s.pwr.whStby))

/-- Are Whisper symbols sent (R290)? -/
def whSends (s : State) (c : Line) : Bool :=
  s.parN 0xA000 c.inst == 2 && carrierRuns s c && (s.tx.get c).eff != 0

/-! ## Frames (R291 to R293) -/

/-- The repetition of a mode. -/
def whRep (m : Nat) : Nat := 4 ^ m

/-- The shift register x^9 + x^5 + 1 (R292): `n` output bits, and the register. DESIGN CHOICE: the specification does not say
which bit is the output; it is the one that `lfsrStep` takes. -/
def whLfsr (n st : Nat) : List Bool × Nat :=
  let r := (List.range n).foldl (fun (r : List Bool × Nat) _ =>
    let (o, x) := lfsrStep 9 5 r.2
    (o :: r.1, x)) ([], st)
  (r.1.reverse, r.2)

/-- The bits of a number of `w` bits, most significant first. -/
def bitsMsb (w n : Nat) : List Bool := (bitsLsb w n).reverse

/-- CRC-8 with polynomial 0x07 (R292). -/
def crc8 (bs : Bytes) : Nat := bs.foldl (crcByteM 8 0x07) 0

/-- The four header bytes of a frame (R292). -/
def whHeader (len chan mode seq : Nat) : Bytes :=
  let h := be 3 ((len * 2 ^ 15 + chan * 2 ^ 12 + mode * 2 ^ 10) + seq % 256)
  h ++ [byteOf (crc8 h)]

/-- A byte string scrambled (or descrambled) from the first header element on, after `skip` elements. -/
def whScramble (skip : Nat) (bs : Bytes) : Bytes :=
  let (_, st) := whLfsr skip 511
  let (k, _) := whLfsr (8 * bs.length) st
  packBits (List.zipWith xor (bitsOf bs) k)

/-- The elements of a frame in order. -/
def whElements (f : WFrame) (mode : Nat) : List Bool :=
  let h := whHeader f.payload.length f.chan mode f.seq
  let body := h ++ f.payload ++ be 4 (crc32c (h ++ f.payload))
  bitsMsb 64 0x3A5C96E1F04B2D87 ++ bitsMsb 32 0x9E4D27A3 ++ bitsOf (whScramble 0 body)

/-- The span of a frame in symbols (R293). -/
def whSpan (len mode : Nat) : Nat :=
  let d := (160 + 8 * len) * whRep mode
  d + (d - 1) / 31

/-- The value of the symbol of the present tick (R287, R289, R291). -/
def whSymbol (s : State) (c : Line) : Nat :=
  let k := s.tick / 8
  if k % 32 = 0 then k / 32 % 2
  else
    match (getWh s c).cur with
    | none => 0
    | some x =>
      let k0 := x.tick / 8
      let data := (k - k0) - (k / 32 - k0 / 32)
      b2n ((whElements x.f x.mode).getD (data / whRep x.mode) false)

/-- The envelope gain of the present symbol in 0.1 % (R288). -/
def whGain (s : State) (c : Line) : Nat :=
  if whSends s c && whSymbol s c == 1 then 1000 - s.parN 0xA002 c.inst else 1000

/-! ## Transmission (R290, R294, R295) -/

/-- Queue a frame of the device's own on channel 1 or 2. -/
def whQueueDev (c : Line) (chan : Nat) (payload : Bytes) (s : State) : State :=
  updWh c (fun x => { x with
    seq := (x.seq + 1) % 256,
    dev := x.dev ++ [{ chan := chan, seq := x.seq, mode := none, payload := payload, at_ := s.elapsed }] }) s

/-- A frame in progress is aborted (R290, R309). -/
def whAbort (c : Line) (s : State) : State :=
  if (getWh s c).cur.isSome then
    raise (lineEvt 0xA0 c 3) (bump (whCnt c 3) (updWh c (fun x => { x with cur := none, lastEnd := some s.elapsed }) s))
  else s

/-- A frame in progress is aborted when no symbols are sent any more: the output is DARK, or WH_ENABLE has been lowered (R290,
R309). -/
def whTxCheck (c : Line) (s : State) : State := if (getWh s c).cur.isSome && !whSends s c then whAbort c s else s

/-- The frame that begins next: probes, then Domain frames, then the host's, each in the order queued, once queued for 8
ticks (R294). -/
def whNext (s : State) (c : Line) : Option WFrame :=
  let x := getWh s c
  let old (f : WFrame) : Bool := f.at_ + 8 ≤ s.elapsed
  let head (l : List WFrame) : Option WFrame := l.head?.filter old
  match head (x.dev.filter (·.chan == 2)) with
  | some f => some f
  | none =>
    match head (x.dev.filter (·.chan == 1)) with
    | some f => some f
    | none => head x.host

/-- Is the present tick a frame boundary (R293)? -/
def whBoundary (s : State) : Bool := s.tick % 8 == 0 && s.tick / 8 % 32 == 1

/-- A queued frame begins at a frame boundary (R294, R295). -/
def whStart (c : Line) (s : State) : State :=
  let x := getWh s c
  let rested := match x.lastEnd with
    | some t => t + 8 ≤ s.elapsed
    | none => true
  if whBoundary s && whSends s c && x.cur.isNone && rested then
    match whNext s c with
    | none => s
    | some f =>
      let s := match x.pendMode with
        | some m => s.setPar 0xA001 c.inst (le 4 m)
        | none => s
      let s := match x.pendDepth with
        | some d => s.setPar 0xA002 c.inst (le 4 d)
        | none => s
      let m := f.mode.getD (s.parN 0xA001 c.inst)
      updWh c (fun x => { x with
        pendMode := none, pendDepth := none, dev := x.dev.erase f, host := x.host.erase f,
        cur := some { f := f, mode := m, tick := s.tick, start := s.elapsed, span := whSpan f.payload.length m } }) s
  else s

/-- The last symbol of the frame in progress has left (R294). -/
def whSent (c : Line) (s : State) : State :=
  match (getWh s c).cur with
  | none => s
  | some x =>
    if x.start + 8 * x.span ≤ s.elapsed then
      let s := bump (whCnt c x.f.chan) (updWh c (fun y => { y with
        cur := none, lastEnd := some s.elapsed, lastSent := s.tick, lastSentSeq := x.f.seq }) s)
      raiseIf (x.f.chan == 0) (lineEvt 0xA0 c 2) s
    else s

/-- A new depth applies from the next pilot when no frame is in progress (R295). -/
def whDepth (c : Line) (s : State) : State :=
  match (getWh s c).pendDepth with
  | some d =>
    if s.tick % 256 = 0 && (getWh s c).cur.isNone then
      updWh c (fun x => { x with pendDepth := none }) (s.setPar 0xA002 c.inst (le 4 d))
    else s
  | none => s

/-- WH_FRAME_START. -/
def execWhFrameStart (c : Line) (s : State) : Out := within (whStart c) s
/-- WH_FRAME_SENT. -/
def execWhFrameSent (c : Line) (s : State) : Out := within (whSent c) s

/-- The carrier stops running in the power state: queued host frames are discarded (R309). -/
def whCarrierStop (c : Line) (s : State) : State :=
  let n := (getWh s c).host.length
  let had := (getWh s c).cur.isSome
  let s := if n = 0 then s else bumpBy (whCnt c 4) n s
  let s := if had then bump (whCnt c 3) s else s
  let s := updWh c (fun x => { x with host := [], cur := none, lastEnd := some s.elapsed }) s
  raiseIf (had || n != 0) (lineEvt 0xA0 c 3) s

/-! ## The receive chains (R296 to R299) -/

/-- The chain numbers of WH_BANK_SWAP: 0 WA, 1 WB, 2 MA, 3 MB. -/
def chainLine (n : Nat) : Line := if n % 2 = 0 then .a else .b

/-- The instance of a chain (R310). -/
def chainInst (n : Nat) : Nat := 0xA1 + n

/-- Chain `n`. -/
def getChain (s : State) (n : Nat) : Chain :=
  let x := getWh s (chainLine n)
  if n < 2 then x.w else x.m

/-- Change chain `n`. -/
def updChain (n : Nat) (f : Chain → Chain) (s : State) : State :=
  updWh (chainLine n) (fun x => if n < 2 then { x with w := f x.w } else { x with m := f x.m }) s

/-- Mark the first `k` outputs of a chain from the next output-sample boundary on UNSETTLED, to the end of the later count
(R299): an output in progress is not one of them. -/
def unsettle (n k : Nat) (s : State) : State :=
  updChain n (fun x => if s.tick % 4 = 0 then { x with unsettled := max x.unsettled k } else { x with unsNext := max x.unsNext k }) s

/-- A retune of a chain: registers cleared, 36 outputs UNSETTLED (R299). -/
def retune (n : Nat) (s : State) : State :=
  unsettle n 36 (updChain n (fun x => { x with
    ints := List.replicate 5 0, combs := List.replicate 5 0, got := 0, h1 := [], n1 := 0, h2 := [] }) s)

/-- A coefficient of a stage's active bank: the built-in set while the bank holds none. -/
def Chain.coef (x : Chain) (stage i : Nat) : Int :=
  match (if stage = 1 then x.coef1 else x.coef2).getD x.bank [] with
  | [] => whFir stage i
  | l => l.getD i 0

/-- An arithmetic right shift and saturation to 24 bits: the value, and whether it saturated (R297). -/
def shiftSat (v : Int) (sh : Nat) : Int × Bool :=
  let x := ifloor v (2 ^ sh)
  let y := clampI (-8388608) 8388607 x
  (y, x != y)

/-- The five integrators of the CIC on one sample (62-bit modular registers). -/
def integrate (v : Nat) : List Nat → List Nat
  | [] => []
  | r :: rs =>
    let x := (r + v) % 2 ^ 62
    x :: integrate x rs

/-- The five combs of the CIC: registers after the sample, and the output. -/
def comb (v : Nat) : List Nat → List Nat × Nat
  | [] => ([], v)
  | r :: rs =>
    let (l, o) := comb ((v + 2 ^ 62 - r) % 2 ^ 62) rs
    (v :: l, o)

/-- A FIR output from a history, newest first: 48-bit accumulator (R297). -/
def firOut (x : Chain) (stage taps sh : Nat) (h : List Int) : Int × Bool :=
  let acc := ((List.range taps).map fun i => x.coef stage i * h.getD i 0).foldl (· + ·) 0
  shiftSat (sx 48 (ux 48 acc)) sh

/-- One FIR1 output reaches FIR2; every fourth gives a chain output. The flag says that one was given. -/
def chainFir2 (sh2 : Nat) (v : Int) (x : Chain) : Chain × Nat × Bool :=
  let x := { x with h2 := (v :: x.h2).take 128, n1 := (x.n1 + 1) % 4 }
  if x.n1 = 0 then
    let (o, sat) := firOut x 2 128 sh2 x.h2
    ({ x with out := o, outUns := x.unsettled != 0, unsettled := max (x.unsettled - 1) x.unsNext, unsNext := 0 }, b2n sat, true)
  else (x, 0, false)

/-- One detector sample: the chain, saturations, whether an output was given. -/
def chainSample (sh0 sh1 sh2 : Nat) (v : Nat) (x : Chain) : Chain × Nat × Bool :=
  let ints := integrate v x.ints
  let x := { x with ints := ints, got := (x.got + 1) % 8192 }
  if x.got % 1024 = 0 then
    let (combs, o) := comb (ints.getLastD 0) x.combs
    let (y, s0) := shiftSat (sx 62 o) sh0
    let x := { x with combs := combs, h1 := (y :: x.h1).take 64 }
    if x.got = 0 then
      let (z, s1) := firOut x 1 64 sh1 x.h1
      let (x, s2, g) := chainFir2 sh2 z x
      (x, b2n s0 + b2n s1 + s2, g)
    else (x, b2n s0, false)
  else (x, 0, false)

/-- A tick's samples through chain `n`, whose outputs end at ticks that are multiples of 4 (R297): saturations counted, WH_SAT at most once
per tick; a W chain's UNSETTLED outputs are counted, a measurement chain's saturations only (R296, R314). -/
def chainTick (n : Nat) (samples : List Nat) (s : State) : State :=
  let c := chainLine n
  let i := chainInst n
  let (x, sats, g) := samples.foldl (fun (r : Chain × Nat × Bool) v =>
    let (x, k, g) := chainSample (s.parN 0xA100 i) (s.parN 0xA101 i) (s.parN 0xA102 i) v r.1
    (x, r.2.1 + k, r.2.2 || g)) ({ getChain s n with n1 := s.tick % 4 }, 0, false)
  let s := updChain n (fun _ => x) s
  let s := if n < 2 && g && x.outUns then bump (whCnt c 16) s else s
  if sats = 0 then s
  else
    let s := bumpBy (whCnt c (17 + n / 2)) sats s
    if (getWh s c).satTick then s else raise (lineEvt 0xA0 c 6) (updWh c (fun x => { x with satTick := true }) s)

/-- The samples of a capture in the tick in which its chain gives an output (WH_CAPTURE, R311); the DFE gives one in every symbol
(R302). -/
def capTick (n : Nat) (s : State) : State :=
  let x := getChain s n
  let w := getWh s (chainLine n)
  let v (point : Nat) : Int := match point with
    | 0 => x.out
    | 1 => (w.dem.agcOut * 8388608).floor
    | _ => (w.dem.y * Config.dfeScale).floor
  let word (point : Nat) : Bytes :=
    le 4 (ux 24 (v point) + 2 ^ 24 * b2n x.outUns + 2 ^ 25 * b2n w.rx.isSome)
  let caps := s.wh.caps.map fun k =>
    if k.chain = n && (k.point != 2 || w.dem.fresh) then { k with left := k.left - 1, data := k.data ++ word k.point } else k
  let s := { s with wh := { s.wh with caps := caps.filter fun k => k.left != 0 } }
  (caps.filter fun k => k.left == 0).foldl (fun s k => finish k.owner (.data k.data) s) s

/-- A pending bank swap takes effect at an output-sample boundary (R298). -/
def bankSwap (n : Nat) (s : State) : State :=
  match (getChain s n).swap with
  | some wait =>
    if s.tick % 4 = 0 && !(wait && (getWh s (chainLine n)).rx.isSome) then
      raise (lineEvt 0xA0 (chainLine n) 7)
        (unsettle n 35 (updChain n (fun x => { x with swap := none, bank := 1 - x.bank }) s))
    else s
  | none => s

/-- WH_BANK_SWAP_APPLY. -/
def execWhBankSwapApply (chain : Fin 4) (s : State) : Out := within (bankSwap chain.val) s

/-- A coefficient value committed: it goes into the bank it names, the inactive one (R298). -/
def loadCoef (n stage : Nat) (v : Bytes) (s : State) : State :=
  let taps := if stage = 1 then 64 else 128
  let l := (List.range taps).map fun i => sx 32 (fld v (4 + 4 * i) 4)
  updChain n (fun x => if stage = 1 then { x with coef1 := x.coef1.set (byteAt v 0) l }
    else { x with coef2 := x.coef2.set (byteAt v 0) l }) s

/-! ## Demodulation (R300 to R305) -/

/-- A frame being received is abandoned (R304). -/
def whAbandon (c : Line) (s : State) : State :=
  raise (lineEvt 0xA0 c 1) (bump (whCnt c 9) (updWh c (fun x => { x with rx := none, frost := false }) s))

/-- Change a carrier's demodulator. -/
def updDem (c : Line) (f : WDemod → WDemod) (s : State) : State := updWh c (fun x => { x with dem := f x.dem }) s

/-- Pilot lock is gained or lost when the correlation says so (R302): losing it abandons a frame. -/
def pilotLock (c : Line) (v : Bool) (s : State) : State :=
  let x := getWh s c
  if !whRuns s c || x.lock == v || (v && !x.light) || x.dem.lockNow != v then s
  else
    let s := updWh c (fun x => { x with lock := v, wqf := none, wqfGood := 0 }) s
    if v then s
    else
      let s := bump (whCnt c 15) s
      if x.rx.isSome then whAbandon c s else s

/-- Light appears or disappears as the detector's mean says (R300): the chain is retuned and the taps start anew when it is
regained, and pilot lock is lost. -/
def lightChange (c : Line) (v : Bool) (s : State) : State :=
  let x := getWh s c
  if !whRuns s c || x.light == v || x.dem.lightNow != v then s
  else
    let s := raise (lineEvt 0xA0 c 4) (updWh c (fun x => { x with light := v }) s)
    if v then
      let s := if x.lock then pilotLock c false (updDem c (fun d => { d with lockNow := false }) s) else s
      retune c.ix (updDem c (fun d => {
        sum := d.sum, num := d.num, lights := d.lights, lightNow := true, pos := d.pos, frac := d.frac }) s)
    else if (getWh s c).rx.isSome then whAbandon c s else s

/-- The mode in which a frame start is detected: the fewest differences, the larger repetition at equal numbers
(R303). -/
def detectMode (s : State) (c : Line) (diffs : List Nat) : Option Nat :=
  let ok := (List.range 4).filter fun m =>
    bit (s.parN 0xA003 c.inst) m && diffs.getD m 33 ≤ s.parN 0xA012 c.inst
  ok.foldl (fun (b : Option Nat) m => match b with
    | none => some m
    | some x => if diffs.getD m 33 ≤ diffs.getD x 33 then some m else some x) none

/-! ### The equaliser (R302) -/

/-- The symbol's inputs: 16 half-symbol samples, newest first; UNSETTLED ones are 0. -/
def dfeIn (xs : List (Option Rat)) : List Rat := (List.range 16).map fun i => (xs.getD i none).getD 0

/-- The output for one symbol. -/
def dfeOut (q : WDemod) (x : List Rat) : Rat :=
  ratSum (List.zipWith (· * ·) q.c x) + q.t - ratSum (List.zipWith (· * ·) q.b q.d)

/-- The target of a value. -/
def dfeTarget (v : Bool) : Rat := if v then -1 else 1

/-- The taps after a symbol of known value, `y` being the output for it. -/
def dfeLearn (mu : Int) (v : Bool) (y : Rat) (x : List Rat) (q : WDemod) : WDemod :=
  let e := (2 : Rat) ^ mu * (dfeTarget v - y)
  { q with
    c := List.zipWith (fun c x => c + e * x) q.c x, b := List.zipWith (fun b d => b - e * d) q.b q.d, t := q.t + e,
    d := (dfeTarget v :: q.d).take 4 }

/-- When the taps' centre of energy has moved by a whole sample, taps and sample index move together. -/
def recentre (q : WDemod) : WDemod :=
  let sq := q.c.map fun c => c * c
  let m := ratSum ((List.range 16).map fun (i : Nat) => (i : Rat) * sq.getD i 0)
  let e := ratSum sq
  if 9 * e ≤ m then { q with c := q.c.tail ++ [0], grid := (q.grid + 63) % 64 }
  else if m ≤ 7 * e then { q with c := 0 :: q.c.take 15, grid := (q.grid + 1) % 64 }
  else q

/-- The bits of the preamble. -/
def preambleBits : List Bool := bitsMsb 64 0x3A5C96E1F04B2D87

/-- The bits of the sync word. -/
def syncBits : List Bool := bitsMsb 32 0x9E4D27A3

/-- The symbols that `n` data positions from a frame boundary on span (R293). -/
def spanOf (n : Nat) : Nat := n + (n - 1) / 31

/-- The pass over the buffered preamble at a sync detection with repetition `r`: the newest symbol is the last of the sync
word; the pilots between, and the one before the boundary, are known as well; UNSETTLED symbols teach nothing (R299). The
symbols decided before the header are what they were: no value of the sync word was known when it came. -/
def preamblePass (mu : Int) (r : Nat) (q : WDemod) : WDemod :=
  let all := spanOf (96 * r)
  let pilot (j : Nat) : Bool := xor q.next ((all / 32 + 1 - j) % 2 == 1)
  let p := (List.range (spanOf (64 * r))).foldl (fun q i =>
    let l := q.xs.drop (2 * (all - 1 - i))
    let x := dfeIn l
    let v := if (i + 1) % 32 = 0 then pilot ((i + 1) / 32) else preambleBits.getD ((i - (i + 1) / 32) / r) false
    if (l.getD 8 none).isSome then dfeLearn mu v (dfeOut q x) x q else { q with d := (dfeTarget v :: q.d).take 4 })
    { q with d := [dfeTarget (pilot 0), 0, 0, 0] }
  { p with d := q.d }

/-- A frame boundary of the far grid has been tested for a frame start, `diffs` being the differences found (R303); Frost freezes
the AGC (R301), and the equaliser takes its pass over the preamble. -/
def syncDetect (c : Line) (diffs : List Nat) (s : State) : State :=
  let x := getWh s c
  if whRuns s c && x.light && x.lock && x.rx.isNone && x.dem.tests == some diffs then
    match detectMode s c diffs with
    | some m => bump (whCnt c (5 + m)) (updWh c (fun x => { x with
        rx := some { mode := m }, frost := true,
        dem := { preamblePass (s.parI 0xA013 c.inst) (whRep m) x.dem with tests := none } }) s)
    | none => updDem c (fun d => { d with tests := none }) s
  else s

/-- The header of a frame has been decided (R304): `raw` is its 32 elements as received. -/
def whOnHeader (c : Line) (raw : Nat) (s : State) : State :=
  match (getWh s c).rx with
  | some r =>
    if r.hdr.isSome || r.bits.length != 32 || bitsNum r.bits.reverse != raw then s
    else
      let b := whScramble 0 (be 4 raw)
      let w := unbe b
      let len := w / 2 ^ 23
      let chan := bits w 22 20
      if byteAt b 3 ≠ crc8 (b.take 3) ∨ bits w 19 18 ≠ r.mode ∨ 256 < len ∨ 2 < chan ∨ bits w 17 16 ≠ 0 then
        whAbandon c s
      else updWh c (fun x => { x with rx := some { r with
        bits := [], hdr := some { bytes := b, len := len, chan := chan, seq := bits w 15 8 } } }) s
  | none => s

/-- A received frame ends (R304): `raw` is payload and CRC as received. Domain and probe frames wait for the Domain and
mate logic, with their path. -/
def whOnFrame (c : Line) (raw : Bytes) (s : State) : State :=
  match (getWh s c).rx with
  | some r =>
    match r.hdr with
    | some h =>
      if raw.length ≠ h.len + 4 ∨ packBits r.bits.reverse ≠ raw then s
      else
        let b := whScramble 32 raw
        let body := b.take h.len
        let s := updWh c (fun x => { x with rx := none, frost := false }) s
        if unbe (b.drop h.len) ≠ crc32c (h.bytes ++ body) then raise (lineEvt 0xA0 c 1) (bump (whCnt c 10) s)
        else
          let s := bump (whCnt c (11 + h.chan)) (updWh c (fun x => { x with lastGood := s.tick }) s)
          if h.chan = 0 then
            let s := updWh c (fun x => { x with lastGoodSeq := h.seq }) s
            if 16 ≤ (getWh s c).queue.length then bump (whCnt c 14) s
            else raise (lineEvt 0xA0 c 0) (updWh c (fun x => { x with queue := x.queue ++ [{
              mode := r.mode, seq := h.seq, tick := s.tick, wqf := x.wqf, payload := body }] }) s)
          else { s with dm := { s.dm with inbox := s.dm.inbox ++ [(2 + c.ix, body)] } }
    | none => s
  | none => s

/-! ## The demodulator's tick (R300 to R306) -/

/-- Is light present, by the sums and numbers of the last symbols' samples: at or above the threshold in 0.1 dB of the 12-bit
full scale, or within 2 dB below it while it was present (R300)? The powers of ten stand for the logarithms. -/
def lightOf (thr : Int) (l : List (Nat × Nat)) (was : Bool) : Bool :=
  let n := (l.map (·.2)).foldl (· + ·) 0
  let sum := (l.map (·.1)).foldl (· + ·) 0
  let above (u : Int) : Bool := (4095 * n) ^ 100 ≤ sum ^ 100 * 10 ^ (-u).toNat
  n != 0 && (above thr || was && above (thr - 20))

/-- The largest `n` of at most `top` that holds, 0 if none does, for a condition that holds up to some number. -/
def largest (top : Nat) (ok : Nat → Bool) : Nat :=
  (List.range 13).foldr (fun b n => if n + 2 ^ b ≤ top && ok (n + 2 ^ b) then n + 2 ^ b else n) 0

/-- The gain in 0.01 dB that brings the mean of the settled outputs to the target in 0.001 of full scale (R301). -/
def agcWant (target : Nat) (outs : List Int) : Nat :=
  let sum := (outs.foldl (· + ·) 0).toNat
  largest 6000 fun g => (1000 * sum) ^ 2000 * 10 ^ g ≤ (target * outs.length * 8388608) ^ 2000

/-- The end of a symbol: light, and the AGC, which falls at once and rises by 20 dB per WH_AGC_DECAY symbols. DESIGN CHOICE: a
fall takes one symbol, within the 64 allowed. -/
def symbolEnd (c : Line) (s : State) : State :=
  let x := getWh s c
  let q := x.dem
  let lights := ((q.sum, q.num) :: q.lights).take 64
  let s := updDem c (fun q => { q with
    sum := 0, num := 0, lights := lights, lightNow := lightOf (s.parI 0xA004 c.inst) lights q.lightNow }) s
  let outs := q.outs.filterMap id
  if x.frost || x.w.outUns || outs.isEmpty then s
  else
    let want := agcWant (s.parN 0xA010 c.inst) outs
    let decay := max 1 (s.parN 0xA011 c.inst)
    let up := (q.frac + 2000) / decay
    if want ≤ x.agc then updWh c (fun x => { x with agc := want, dem := { x.dem with frac := 0 } }) s
    else updWh c (fun x => { x with
      agc := min want (x.agc + up), dem := { x.dem with frac := (q.frac + 2000) % decay } }) s

/-- The pilots' correlation with their pattern (R289, R302): 64 pilots, 32 symbols of two samples apart, newest first. -/
def pilotCorr (xs : List (Option Rat)) : Rat :=
  ratSum ((List.range 64).map fun j => (if j % 2 = 0 then 1 else -1) * ((xs.getD (64 * j) none).getD 0))

/-- The magnitude of a number. -/
def ratAbs (x : Rat) : Rat := if x < 0 then -x else x

/-- A chain output enters the demodulator: AGC, pilot correlation. Lock is gained at one place of the grid, and lost when the
correlation there has stayed below half the limit for 64 pilots. -/
def demIn (c : Line) (s : State) : State :=
  let x := getWh s c
  let settled {α : Type} (v : α) : Option α := if x.w.outUns then none else some v
  let q := x.dem
  let v : Rat := (x.w.out : Rat) * pow10 ((x.agc : Nat) / 2000) / 8388608
  let xs := (settled v :: q.xs).take 12800
  let q := { q with agcOut := v, fresh := false }
  let pos := (q.pos + 1) % 64
  let q := { q with outs := (settled x.w.out :: q.outs).take 128, xs := xs, pos := pos }
  let corr := pilotCorr xs
  let q :=
    if !x.lock then
      if !q.lockNow && Config.pilotLimit < ratAbs corr then
        { q with lockNow := true, grid := (pos + 8) % 64, next := corr < 0, last := 31, weak := 0 }
      else q
    else if (pos + 8) % 64 = q.grid then
      let weak := if 2 * ratAbs corr < Config.pilotLimit then q.weak + 1 else 0
      { q with weak := weak, lockNow := q.lockNow && weak < 64 }
    else q
  updDem c (fun _ => q) s

/-- The quality figure of the last pilots in 0.1 dB (R306), the next lower tenth. -/
def wqfOf (l : List Rat) : Int :=
  let m := ratMean l
  let var := ratMean (l.map fun v => (v - m) * (v - m))
  (largest 600 fun n => var ^ 100 * (10 : Rat) ^ n ≤ (m * m) ^ 100 * (10 : Rat) ^ 200 : Nat) - 200

/-- The far transmitter's depth in 0.01 % (R306): the levels of the pilots of value 0 and 1 before the AGC. -/
def depthOf (l : List (Rat × Bool × Int)) : Option Int :=
  let lev (v : Bool) : List Rat := (l.filter fun p => p.2.1 == v).map fun p => (p.2.2 : Rat)
  let l0 := ratMean (lev false)
  if (lev false).isEmpty || (lev true).isEmpty || l0 == 0 then none
  else some (roundUpHalf (10000 * (l0 - ratMean (lev true)) / l0))

/-- A pilot: the equaliser learns, the quality figures follow; WH_WQF_LOW after 64 pilots at or above the alarm. -/
def pilotSymbol (c : Line) (ok : Bool) (y : Rat) (xin : List Rat) (s : State) : State :=
  let x := getWh s c
  let q := x.dem
  let v := q.next
  let q := if ok then dfeLearn (s.parI 0xA013 c.inst) v y xin q else { q with d := (dfeTarget v :: q.d).take 4 }
  let pilots := if ok then ((dfeTarget v * y, v, (q.outs.getD 8 none).getD 0) :: q.pilots).take 64 else q.pilots
  let fig := if pilots.isEmpty then none else some (wqfOf (pilots.map (·.1)))
  let low := fig.any (· < s.parI 0xA015 c.inst)
  let s := updWh c (fun x => { x with
    wqf := fig, depthEst := depthOf pilots, wqfGood := if low then 0 else x.wqfGood + 1,
    dem := recentre { q with next := !v, pilots := pilots } }) s
  raiseIf (low && 64 ≤ x.wqfGood) (lineEvt 0xA0 c 5) s

/-- The value sum of a list over each `r` in turn, oldest first: the elements of the last data positions (R303). -/
def elementsOf (r n : Nat) (data : List Rat) : List Bool :=
  (List.range n).map fun e => ratSum ((data.drop (r * (n - 1 - e))).take r) < 0

/-- The differences from the sync word of the frame whose sync word would end with this symbol, for each mode; 33 for a mode
whose boundary is elsewhere. -/
def syncDiffs (q : WDemod) (sym : Nat) : List Nat :=
  (List.range 4).map fun m =>
    let r := whRep m
    if spanOf (96 * r) % 32 = sym && 96 * r ≤ q.data.length then
      ((elementsOf r 32 q.data).zip syncBits).countP fun x => x.1 != x.2
    else 33

/-- A data position of a frame being received: with the last of `r` its element is decided. -/
def WRx.position (y : Rat) (f : WRx) : WRx :=
  if f.cnt + 1 < whRep f.mode then { f with acc := f.acc + y, cnt := f.cnt + 1 }
  else { f with acc := 0, cnt := 0, bits := (f.acc + y < 0) :: f.bits }

/-- A data position. -/
def dataSymbol (c : Line) (sym : Nat) (ok : Bool) (y : Rat) (s : State) : State :=
  let x := getWh s c
  let back : Rat := if s.parN 0xA014 c.inst = 1 && x.rx.any (·.mode ≤ 1) then (if 0 ≤ y then 1 else -1) else 0
  let v := if ok then y else 0
  let q := { x.dem with d := (back :: x.dem.d).take 4, data := (v :: x.dem.data).take 6144 }
  let diffs := syncDiffs q sym
  updWh c (fun x => { x with
    rx := x.rx.map (WRx.position v),
    dem := { q with tests := if x.rx.isNone && diffs.any (· ≤ 32) then some diffs else none } }) s

/-- The symbol that a chain output completes; its value counts while pilot lock holds. -/
def demSymbol (c : Line) (s : State) : State :=
  let x := getWh s c
  let q := x.dem
  let off := (q.pos + 64 - q.grid) % 64
  if off % 2 != 0 || off / 2 == q.last then s
  else
    let xin := dfeIn q.xs
    let y := dfeOut q xin
    let ok := (q.xs.getD 8 none).isSome
    let s := updDem c (fun q => { q with y := y, last := off / 2, fresh := true }) s
    if !x.lock then s
    else if off = 0 then pilotSymbol c ok y xin s else dataSymbol c (off / 2) ok y s

/-- What the demodulator has found becomes an event: light, lock, a frame start, a header, the end of a frame. -/
def whDue (c : Line) (s : State) : State :=
  let s := pilotLock c (getWh s c).dem.lockNow (lightChange c (getWh s c).dem.lightNow s)
  let s := match (getWh s c).dem.tests with
    | some d => syncDetect c d s
    | none => s
  match (getWh s c).rx with
  | some f =>
    match f.hdr with
    | none => if f.bits.length = 32 then whOnHeader c (bitsNum f.bits.reverse) s else s
    | some h => if f.bits.length = 8 * h.len + 32 then whOnFrame c (packBits f.bits.reverse) s else s
  | none => s

/-- The detector's 8,192 samples of a tick, 12 bits each (R297). -/
def whSamples (i : WhIn) : List Nat := (List.range 8192).map fun k => i.samples.getD k 0 % 4096

/-- A tick of the receive side of a carrier (R296 to R306). -/
def whRxTick (c : Line) (i : WhIn) (s : State) : State :=
  let s := whDue c s
  let l := whSamples i
  let s := chainTick (2 + c.ix) l (chainTick c.ix l s)
  let s := updWh c (fun x => { x with clockOff := i.clockOff, dem := { x.dem with
    sum := x.dem.sum + l.foldl (· + ·) 0, num := x.dem.num + l.length } }) s
  let s := if s.tick % 4 = 3 then capTick (2 + c.ix) (capTick c.ix (demSymbol c (demIn c s))) else s
  if s.tick % 8 = 7 then symbolEnd c s else s

/-- The detector of a carrier is powered down (R296): light goes, pilot lock with it, and a frame in progress is abandoned
(R300, R304, R314). -/
def detectorOff (c : Line) (s : State) : State :=
  let x := getWh s c
  let s := if x.rx.isSome then whAbandon c s else s
  let s := raiseIf x.light (lineEvt 0xA0 c 4) (if x.lock then bump (whCnt c 15) s else s)
  updWh c (fun x => { x with light := false, lock := false, wqf := none, wqfGood := 0, rx := none, frost := false }) s

/-- A tick of the channel (R288, R297): the chains start and stop with the receiver, the gain of the symbol. -/
def whTick (c : Line) (i : WhIn) (s : State) : State :=
  let x := getWh s c
  let s := whTxCheck c s
  let runs := whRuns s c
  let s := if runs && !x.running then retune (2 + c.ix) (retune c.ix (updDem c (fun _ => {}) s))
    else if !runs && x.running then detectorOff c s
    else s
  let s := updWh c (fun x => { x with running := runs, satTick := false }) s
  let s := if runs then whRxTick c i s else s
  let g := whGain s c
  updWh c (fun x => { x with gain := g }) s

/-- A timescale step (R309): a frame in progress is aborted, the chains are retuned. -/
def whStep (s : State) : State :=
  [2, 3, 0, 1].foldl (fun s n => retune n s) (whAbort .b (whAbort .a s))

/-! ## Commands (R311) -/

/-- WH_STATUS. -/
def infoWhStatus : CmdInfo := { op := 0x0A00, carriers := [1, 2], len := .fixed 16, desc := true }
/-- WH_SEND. -/
def infoWhSend : CmdInfo := { op := 0x0A01, carriers := [1, 2], len := .range 4 260 1 }
/-- WH_RECV. -/
def infoWhRecv : CmdInfo := { op := 0x0A02, carriers := [1, 2], len := .fixed 16, desc := true }
/-- WH_CONFIG. -/
def infoWhConfig : CmdInfo := { op := 0x0A03, carriers := [1, 2, 3], len := .fixed 2 }
/-- WH_BANK_SWAP. -/
def infoWhBankSwap : CmdInfo := { op := 0x4A00, len := .fixed 2 }
/-- WH_CAPTURE. -/
def infoWhCapture : CmdInfo := { op := 0x4A01, long := true, len := .fixed 24, desc := true }

/-- A signed measure, or its marker. -/
def measOr (v : Option Int) : Nat := match v with
  | some x => ux 32 x
  | none => 0x80000000

/-- The 64 bytes of WH_STATUS. -/
def whStatusBytes (s : State) (c : Line) : Bytes :=
  let x := getWh s c
  let tx := if s.parN 0xA000 c.inst < 2 then 0 else if !whSends s c then 3 else if x.cur.isSome then 2 else 1
  let rx := if !whRuns s c then 0 else if !x.light then 1 else if !x.lock then 2 else if x.rx.isSome then 4 else 3
  le 8 s.tick ++ [byteOf (s.parN 0xA000 c.inst), byteOf (s.parN 0xA001 c.inst), byteOf (s.parN 0xA002 c.inst),
    byteOf tx, byteOf rx, byteOf ((x.rx.map (·.mode)).getD 0xFF), byteOf x.host.length, byteOf x.queue.length]
    ++ le 4 (measOr x.wqf) ++ le 4 (measOr x.depthEst) ++ le 4 x.agc ++ le 4 (ux 32 x.clockOff)
    ++ [byteOf (x.w.bank + 2 * x.m.bank), byteOf (b2n x.w.swap.isSome + 2 * b2n x.m.swap.isSome), 0, 0]
    ++ le 8 x.lastGood ++ le 8 x.lastSent ++ [byteOf x.lastSentSeq, byteOf x.lastGoodSeq] ++ zeros 10

/-- Is a coefficient entry for chain `n` frozen (R298)? -/
def coefFrozen (s : State) (n : Nat) : Bool :=
  let coef (recs : SMap Bytes) : Bool := recs.any fun r =>
    (r.1 / 256 == 0xA103 || r.1 / 256 == 0xA104) && r.1 % 256 == chainInst n
  s.cmd.entries.any fun e => e.frozen && (match e.action with
    | .commit recs => coef recs
    | .solstice h => s.cmd.sols.any fun x => x.handle == h && coef x.recs
    | _ => false)

/-- The result of WH_RECV for a message of the receive queue. -/
def whRecord (m : WMsg) : Bytes :=
  le 2 m.payload.length ++ [1, byteOf m.mode, byteOf m.seq] ++ zeros 3 ++ le 8 m.tick ++ le 4 (measOr m.wqf) ++ zeros 4
    ++ m.payload

end Sys2Proof.Machine
end

