-- ==== Sys2Proof/Machine/Solstice.lean ====
section
/-! DEFINITION. Solstice.lean: arming a prepared Solstice (R59 to R62), which SOLSTICE_ARM and a bound CALL share. -/
namespace Sys2Proof.Machine

/-- The Solstice of a handle. -/
def findSol (s : State) (h : Nat) : Option Solstice := s.cmd.sols.find? (·.handle == h)

/-- Put a Solstice into a state. -/
def setSol (h : Nat) (st : SolState) (s : State) : State :=
  { s with cmd := { s.cmd with sols := s.cmd.sols.map fun x => if x.handle = h then { x with st := st } else x } }

/-- Free a handle. -/
def freeSol (h : Nat) (s : State) : State :=
  { s with cmd := { s.cmd with sols := s.cmd.sols.filter (·.handle != h) } }

/-- Is a handle held by queue `q`'s session: BAD_PARAM at offset 0 otherwise (R61)? -/
def checkHandle (h q : Nat) (s : State) : Option Refuse :=
  match findSol s h with
  | some x => need (x.owner == some q) (badParam 0)
  | none => some (badParam 0)

/-- An armed or frozen Solstice is not armed again (R61). -/
def checkPrepared (h : Nat) (s : State) : Option Refuse :=
  need ((findSol s h).map (·.st) == some .prepared) { step := 8, st := stWrongState }

/-- The class of a handle's Solstice. -/
def solClass (s : State) (h : Nat) : ChangeClass := ((findSol s h).map (·.cls)).getD .local_

/-- An entry of the timed-action table for a command already accepted (R48, R52). -/
def addEntry (op crc : Nat) (p : Packet) (action : Action) (cls : ChangeClass) (s : State) : State :=
  match placeAt cls p s.tick with
  | .error _ => s
  | .ok (t, late) =>
    let e : Entry := {
      p := p, opcode := op, crc := crc, action := action, cls := cls,
      atTick := if p.atTick = 0 then t else p.atTick.toNat, execTick := t, acceptNo := s.cmd.acceptNo,
      acceptTick := s.tick, lateExec := late }
    checkHigh { s with cmd := { s.cmd with entries := s.cmd.entries ++ [e], acceptNo := s.cmd.acceptNo + 1 } }

/-- SOLSTICE_ARM. -/
def infoSolsticeArm : CmdInfo := { op := 0x0014, timed := true, len := .fixed 1 }

end Sys2Proof.Machine
end

