-- ==== Sys2Proof/Machine/Domain.lean ====
section
/-! DEFINITION. Domain.lean: domains (group 0xB, R315 to R328). Paths are numbered as the bits of DM_LINKS: DCH of Line A
and B, Whisper of Line A and B, mate link. -/
namespace Sys2Proof.Machine

/-- Change the domain state. -/
def updDm (f : Dm → Dm) (s : State) : State := { s with dm := f s.dm }

/-- The neighbour a path reaches: 0 Line A, 1 Line B, 2 mate. -/
def nbrOf (p : Nat) : Nat := if p = 4 then 2 else p % 2

/-- Neighbour `i`. -/
def getNbr (s : State) (i : Nat) : Nbr := s.dm.nbrs.getD i {}

/-- Change neighbour `i`. -/
def updNbr (i : Nat) (f : Nbr → Nbr) (s : State) : State := updDm (fun d => { d with nbrs := lmod d.nbrs i f }) s

/-- Change time check `i`. -/
def updTime (i : Nat) (f : TimeChk → TimeChk) (s : State) : State := updDm (fun d => { d with time := lmod d.time i f }) s

/-! ## Paths (R318) -/

/-- Is a path enabled? -/
def pathOn (s : State) (p : Nat) : Bool := bit (s.parN 0xB001 0) p

/-- Is a path up now (R318)? A path that DM_LINKS leaves out is not up, nor are the channels of a device that is no member; the
mate path is up with its link. -/
def pathNow (s : State) (p : Nat) : Bool :=
  pathOn s p && (match p with
    | 0 | 1 =>
      s.dm.member && (getFrm s (lineOf (p + 1))).inF && (match (getNbr s p).seenAt with
        | some t => s.elapsed ≤ t + 256
        | none => false)
    | 2 | 3 => s.dm.member && (match s.dm.whAt.getD (p - 2) none with
        | some t => s.elapsed - t ≤ 30 * tps
        | none => false)
    | _ => s.mate.link)

/-- Was path `p` up when last brought up to date? -/
def pathUp (s : State) (p : Nat) : Bool := s.dm.up.getD p false

/-- Does a path to neighbour `i` remain up? -/
def nbrUp (s : State) (i : Nat) : Bool := (List.range 5).any fun p => nbrOf p == i && pathUp s p

/-- Bring a path's state up to date (R318). With no path to it a neighbour shows no version: its run of another version is
broken (R324). -/
def updPath (s : State) (p : Nat) : State :=
  let v := pathNow s p
  if pathUp s p = v then s
  else
    let s := raise 0xB8 (updDm (fun d => { d with up := d.up.set p v }) s)
    if nbrUp s (nbrOf p) then s else updNbr (nbrOf p) (fun n => { n with
      skewSince := none, skewed := false, epoch := 0, epochSince := none, epochSkew := false }) s

/-- All paths. -/
def updPaths (s : State) : State := (List.range 5).foldl updPath s

/-- May messages be sent on a path now (R318)? -/
def pathSends (s : State) (p : Nat) : Bool :=
  pathOn s p && (match p with
    | 0 | 1 => (s.tx.get (lineOf (p + 1))).eff == 2
    | 2 | 3 => !pathUp s (p - 2) && s.parN 0xA000 (lineOf (p - 1)).inst == 2
    | _ => s.mate.link)

/-! ## Messages (R319) -/

/-- A domain message: header, body, CRC. -/
def dmMsg (ty hops origin dest domain id : Nat) (body : Bytes) : Bytes :=
  let m := [byteOf ty, byteOf hops] ++ be 2 origin ++ be 2 dest ++ be 4 domain ++ be 4 id ++ be 2 body.length ++ body
  m ++ be 4 (crc32c m)

/-- The fields of a received message. -/
structure DmIn where
  ty : Nat
  hops : Nat
  origin : Nat
  dest : Nat
  domain : Nat
  id : Nat
  body : Bytes

/-- A received message as its fields; none when its length or CRC is wrong. -/
def parseDm (m : Bytes) : Option DmIn :=
  let n := unbe (slice m 14 2)
  if m.length = n + 20 ∧ unbe (m.drop (16 + n)) = crc32c (m.take (16 + n)) then
    some { ty := byteAt m 0, hops := byteAt m 1, origin := unbe (slice m 2 2), dest := unbe (slice m 4 2),
           domain := unbe (slice m 6 4), id := unbe (slice m 10 4), body := slice m 16 n }
  else none

/-- Send a message on a path: probes on Whisper channel 2, others on 1; a body over 236 bytes is not sent on Whisper.
`cnt` is the first of the counters per path. -/
def sendOn (cnt : Nat) (m : Bytes) (s : State) (p : Nat) : State :=
  if p = 2 ∨ p = 3 then
    if 236 + 20 < m.length then bump 854 s
    else bump (cnt + p) (whQueueDev (lineOf (p - 1)) (if byteAt m 0 = 5 ∨ byteAt m 0 = 6 then 2 else 1) m s)
  else
    bump (cnt + p) (updDm (fun d => { d with out := lmod d.out (nbrOf p) fun o => { o with msgs := o.msgs ++ [m] } }) s)

/-- Remember a message: 8,192 entries for 60 s, the oldest dropped first (R320). -/
def remember (origin id : Nat) (s : State) : State :=
  updDm (fun d => { d with
    seen := ((origin, id, s.elapsed) :: d.seen.filter fun x => s.elapsed - x.2.2 < 60 * tps).take 8192 }) s

/-- A message of the device's own on some paths: its ID is counted and remembered (R319, R327), so that a copy that comes back
is no first receipt. -/
def dmSend (ty dest : Nat) (body : Bytes) (paths : List Nat) (s : State) : State :=
  let id := s.dm.msgId
  let s := updDm (fun d => { d with
    msgId := (d.msgId + 1) % 2 ^ 32, sent := (id, s.elapsed) :: d.sent.filter fun x => s.elapsed - x.2 ≤ 60 * tps }) s
  let s := remember s.dm.id id s
  let m := dmMsg ty (s.parN 0xB000 0) s.dm.id dest s.dm.domain id body
  paths.foldl (sendOn 832 m) s

/-- The paths on which the device's own messages leave. -/
def sendPaths (s : State) : List Nat := (List.range 5).filter (pathSends s)

/-- The paths a message is sent on by: every up path but the one it came by. -/
def relayPaths (s : State) (from_ : Nat) : List Nat :=
  (List.range 5).filter fun p => p != from_ && pathUp s p && pathSends s p

/-- A received message that is discarded (R320). -/
def dmDiscard (s : State) : State := bump 852 s

/-- Is this the first receipt of a message (R320)? -/
def firstSeen (s : State) (m : DmIn) : Bool :=
  !s.dm.seen.any fun x => x.1 == m.origin && x.2.1 == m.id && s.elapsed - x.2.2 < 60 * tps

/-- Remember a receipt. -/
def noteSeen (m : DmIn) (s : State) : State := remember m.origin m.id s

/-- A member ID conflict is seen (R327). -/
def memberConflict (s : State) : State :=
  raiseIf s.dm.conflict.isNone 0xB5 (updDm (fun d => { d with conflict := some s.elapsed }) s)

/-- Does a message carry this device's member ID as origin, and an ID not sent in the last 60 s (R327)? -/
def foreignOwn (s : State) (m : DmIn) : Bool :=
  m.origin == s.dm.id && !s.dm.sent.any fun x => x.1 == m.id && s.elapsed - x.2 ≤ 60 * tps

/-- CONFLICT_FLAG_EXPIRY. -/
def conflictExpiry (s : State) : State :=
  updDm (fun d => { d with conflict := d.conflict.filter fun t => s.elapsed - t < 60 * tps }) s

/-- An entry joins the receive queue of 16 (R321). -/
def dmDeliver (kind : Nat) (m : DmIn) (s : State) : State :=
  if 16 ≤ s.dm.queue.length then bump 853 s
  else raise (if kind = 1 then 0xB6 else 0xB7) (updDm (fun d => { d with queue := d.queue ++ [{
    kind := kind, origin := m.origin, msgId := m.id, tick := s.tick, body := m.body }] }) s)

/-! ## Configuration documents (R322 to R324) -/

/-- The length a document's header gives. -/
def docLen (d : Bytes) : Nat := 16 + fld d 12 2 + 96

/-- The checks of a document in the order of R322: 0, 0x1B03 DOC_REFUSED, AUTH_FAIL. -/
def docCheck (s : State) (d : Bytes) : Nat :=
  let n := 16 + fld d 12 2
  let (x, y) := keyXY s.dm.key
  let r := unbe (slice d n 48)
  let q := unbe (slice d (n + 48) 48)
  if d.length < 112 ∨ d.length ≠ docLen d ∨ 3968 < fld d 12 2 then 0x1B03
  else if fld d 0 4 ≠ s.dm.domain ∨ byteAt d 8 ≠ 1 ∨ !rsv d 9 12 ∨ !rsv d 14 16 ∨ fld d 4 4 = 0 then 0x1B03
  else if r = 0 ∨ n384 ≤ r ∨ q = 0 ∨ n384 ≤ q then stAuthFail
  else if ecdsaOk x y (unbe (sha384 (d.take n))) r q then 0 else stAuthFail

/-- A version is written ahead before it is adopted (R323). -/
def beginAdopt (v : Nat) (d : Bytes) (owner : Option CmdKey) (s : State) : State :=
  flashAdd { kind := .domainRecord, aux := v } (updDm (fun x => { x with
    adopt := some { version := v, doc := d, owner := owner } }) s)

/-- A refused document is counted and reported (R322). -/
def docRefused (s : State) : State := raise 0xB2 (bump 857 s)

/-- A fetched document is accepted, ignored or refused (R322, R323). -/
def docFetched (d : Bytes) (s : State) : State :=
  let v := fld d 4 4
  match docCheck s d with
  | 0 =>
    if v < s.cfgVersion then s
    else if v = s.cfgVersion then updDm (fun x => { x with doc := d }) s
    else if s.dm.adopt.isSome then s
    else beginAdopt v d none s
  | _ => docRefused s

/-- The domain record of two slots of 20 bytes (R323): domain, version, sequence; none when not valid. -/
def domSlot (b : Bytes) : Option (Nat × Nat × Nat) :=
  if fld b 16 4 = 0xA5 ∧ fld b 12 4 = crc32c (b.take 12) then some (fld b 0 4, fld b 4 4, fld b 8 4) else none

/-- The valid domain record with the highest sequence: its slot and fields. -/
def domBest (s : State) : Option (Nat × Nat × Nat × Nat) :=
  match domSlot (flashRead s 0x4000 20), domSlot (flashRead s 0x5000 20) with
  | none, none => none
  | some x, none => some (0, x)
  | none, some y => some (1, y)
  | some x, some y => if x.2.2 < y.2.2 then some (1, y) else some (0, x)

/-- Write the domain record; none when its sequence is spent. -/
def domWrite (dom v : Nat) (s : State) : Option State :=
  let (slot, seq) := match domBest s with
    | none => (0, 0)
    | some (i, _, _, q) => (1 - i, q + 1)
  if 2 ^ 32 ≤ seq then none
  else
    let a := 0x4000 + 0x1000 * slot
    let b := le 4 dom ++ le 4 v ++ le 4 seq
    some (flashProgram a (b ++ le 4 (crc32c b) ++ le 4 0xA5) (flashErase a 4096 s))

/-- The write of the domain record at the head of the flash operations ends (R323). -/
def domRecordEnd (ok : Bool) (s : State) : State :=
  match s.flash.ops with
  | o :: _ =>
    if o.kind ≠ .domainRecord then s
    else
      match if ok then domWrite s.dm.domain o.aux s else none with
      | some s =>
        flashEnded 0 (updDm (fun d => { d with
          recDomain := d.domain, recVersion := o.aux,
          adopt := d.adopt.map fun a => { a with due := some (s.elapsed + 8) } }) s)
      | none =>
        let own := (s.dm.adopt.map (·.owner)).getD none
        let s := raise 0xBF (flashEnded 0x1B06 (updDm (fun d => { d with adopt := none }) s))
        finishOpt own (.st 0x1B06) s
  | [] => s

/-- The version is adopted in the commit window 8 ticks after its record was written. -/
def cfgAdopt (s : State) : State :=
  match s.dm.adopt with
  | none => s
  | some a =>
    match a.due with
    | none => s
    | some t =>
      if t ≤ s.elapsed then
        let s := { s with cfgVersion := a.version, dm := { s.dm with adopt := none, doc := a.doc } }
        finishOpt a.owner .ok (raise 0xB1 s)
      else s

/-- CFG_ADOPT. -/
def execCfgAdopt (s : State) : Out := within cfgAdopt s

/-- A CFG_REQ for an offset of the version being fetched, to the neighbour that shows it. -/
def cfgReq (f : Fetch) (off : Nat) (s : State) : State :=
  dmSend 0x01 (getNbr s (nbrOf f.path)).member (be 4 f.version ++ be 2 off) [f.path] s

/-- Start a fetch from a neighbour that shows a higher version (R324). -/
def startFetch (p v : Nat) (s : State) : State :=
  if s.dm.fetch.isSome || s.dm.adopt.isSome || v ≤ s.cfgVersion then s
  else
    let f : Fetch := { path := p, version := v, started := s.elapsed }
    cfgReq f 0 (updDm (fun d => { d with fetch := some f }) s)

/-- The fetch timeout in ticks. -/
def fetchTicks (s : State) : Nat := s.parN 0xB002 0 * tps

/-- The offsets of a fetch that are missing: multiples of 200 below the document's length, offset 0 while it is unknown. -/
def missingOffs (f : Fetch) : List Nat :=
  let have_ (i : Nat) : Bool := (SMap.find f.parts i).isSome
  let n := if have_ 12 && have_ 13 then
      128 - 16 + (SMap.get (0 : Byte) f.parts 12).toNat + 256 * (SMap.get (0 : Byte) f.parts 13).toNat
    else 1
  ((List.range ((n + 199) / 200)).map (200 * ·)).filter fun o => !have_ o

/-- The device asks again for every missing offset, at most 3 times in the first quarter of the timeout (R324). DESIGN CHOICE: at
a quarter, a half and three quarters of that quarter. -/
def missingReq (s : State) : State :=
  match s.dm.fetch with
  | none => s
  | some f =>
    let q := fetchTicks s / 4
    if f.again < 3 && f.started + (f.again + 1) * (q / 4) ≤ s.elapsed && s.elapsed ≤ f.started + q then
      (missingOffs f).foldl (fun s o => cfgReq f o s)
        (updDm (fun d => { d with fetch := some { f with again := f.again + 1 } }) s)
    else s

/-- A path to a neighbour: its DCH or the mate link when up, else Whisper. -/
def pathTo (s : State) (i : Nat) : Nat := if i = 2 then 4 else if pathUp s i then i else i + 2

/-- A fetch that is not complete in time is abandoned; the next neighbour that shows a higher version is asked (R324). -/
def fetchTimeout (s : State) : State :=
  match s.dm.fetch with
  | none => s
  | some f =>
    if f.started + fetchTicks s ≤ s.elapsed then
      let s := bump 855 (updDm (fun d => { d with fetch := none }) s)
      let n := nbrOf f.path
      match [(n + 1) % 3, (n + 2) % 3].find? fun i => s.cfgVersion < (getNbr s i).version with
      | some i => startFetch (pathTo s i) (getNbr s i).version s
      | none => s
    else s

/-- Answer a CFG_REQ: the whole document in order for offset 0, else the part at the offset (R324). -/
def onCfgReq (p : Nat) (m : DmIn) (s : State) : State :=
  let v := unbe (slice m.body 0 4)
  let off := unbe (slice m.body 4 2)
  let d := s.dm.doc
  if d.isEmpty ∨ fld d 4 4 ≠ v then s
  else
    let offs := if off = 0 then (List.range ((d.length + 199) / 200)).map (200 * ·) else [off]
    offs.foldl (fun s o => dmSend 0x02 m.origin (be 4 v ++ be 2 o ++ slice d o 200) [p] s) s

/-- A CFG_PART feeds the running fetch; otherwise it is late (R324). -/
def onCfgPart (p : Nat) (m : DmIn) (s : State) : State :=
  match s.dm.fetch with
  | none => bump 856 s
  | some f =>
    if nbrOf f.path ≠ nbrOf p ∨ unbe (slice m.body 0 4) ≠ f.version then bump 856 s
    else
      let parts := ((m.body.drop 6).zipIdx.foldl (fun (q : SMap Byte) (x : Byte × Nat) =>
        SMap.ins (unbe (slice m.body 4 2) + x.2) x.1 q) f.parts)
      let head := SMap.getAll (0 : Byte) parts 0 16
      let n := docLen head
      let full := (List.range n).all fun i => (SMap.find parts i).isSome
      if (SMap.find parts 13).isSome && full then
        docFetched (SMap.getAll (0 : Byte) parts 0 n) (updDm (fun d => { d with fetch := none }) s)
      else updDm (fun d => { d with fetch := some { f with parts := parts } }) s

/-- A neighbour has shown another version for 30 s (R324). -/
def cfgSkew (i : Nat) (s : State) : State :=
  match (getNbr s i).skewSince with
  | some t =>
    if !(getNbr s i).skewed && (getNbr s i).version != s.cfgVersion && 30 * tps ≤ s.elapsed - t then raise 0xB2 (updNbr i (fun n => { n with skewed := true }) s)
    else s
  | none => s

/-! ## Beacons and checks (R317, R325, R326) -/

/-- The highest epoch among the current keys of a carrier's KEYED transmit halves (R326). -/
def ownEpoch (s : State) (c : Line) : Nat :=
  ((getCry s c).sas.map fun a => (a.tx.cur.map (·.epoch)).getD 0).foldl max 0

/-- The key-epoch comparison with a neighbour (R326): by two or more at once, by one from the tick it begins in. -/
def epochCheck (i : Nat) (s : State) : State :=
  let n := getNbr s i
  let own := ownEpoch s (lineOf (i + 1))
  let d := if own < n.epoch then n.epoch - own else own - n.epoch
  if i = 2 then s
  else if own = 0 ∨ n.epoch = 0 ∨ d = 0 then updNbr i (fun n => { n with epochSince := none, epochSkew := false }) s
  else if d = 1 then
    if n.epochSince.isSome then s else updNbr i (fun n => { n with epochSince := some s.elapsed, epochSkew := false }) s
  else
    raiseIf (!n.epochSkew || n.epochSince.isSome) 0xB4
      (updNbr i (fun n => { n with epochSkew := true, epochSince := none }) s)

/-- The comparison brought up to date; a difference of one has lasted beyond DM_EPOCH_GRACE (R326). -/
def epochGrace (i : Nat) (s : State) : State :=
  let s := epochCheck i s
  match (getNbr s i).epochSince with
  | some t =>
    if !(getNbr s i).epochSkew && t + s.parN 0xB003 0 * tps < s.elapsed then
      raise 0xB4 (updNbr i (fun n => { n with epochSkew := true }) s)
    else s
  | none => s

/-- A neighbour's identity: member, version, epoch (R317, R324, R326, R327). -/
def noteIdentity (p member version epoch : Nat) (s : State) : State :=
  let i := nbrOf p
  let s := updNbr i (fun n => { n with
    member := member, version := version, epoch := epoch,
    skewSince := if version = s.cfgVersion then none else some (n.skewSince.getD s.elapsed),
    skewed := n.skewed && version != s.cfgVersion }) s
  let s := if member = s.dm.id then memberConflict s else s
  startFetch p version (epochCheck i s)

/-- The 13 bytes of an identity beacon after its member ID. -/
def identityBody (s : State) (c : Line) : Bytes :=
  be 4 s.dm.domain ++ be 4 s.cfgVersion ++ be 4 (ownEpoch s c) ++ [byteOf (b2n s.dm.conflict.isSome)]

/-- A received Whisper BEACON. -/
def onBeacon (p : Nat) (m : DmIn) (s : State) : State :=
  noteIdentity p m.origin (unbe (slice m.body 4 4)) (unbe (slice m.body 8 4)) s

/-- A lag as a beacon gives it: 32 bits, signed, for a timescale ahead of the far one by more than the link delay makes it
negative; 0xFFFF_FFFF when there is none (R317, R325). -/
def lagField (lag : Option Int) : Bytes := be 4 ((lag.map (ux 32)).getD 0xFFFFFFFF)

/-- One time beacon: offset and delay from the two lags, and the skew runs (R325). -/
def timeBeacon (i far : Nat) (s : State) : State :=
  match (s.dm.time.getD i {}).lag with
  | none => s
  | some own =>
    if far = 0xFFFFFFFF then s
    else
      let far := sx 32 far
      let th : Int := (own - far).tdiv 2
      let x := s.dm.time.getD i {}
      let big : Bool := 6000 < th.natAbs
      let small : Bool := th.natAbs ≤ 5000
      let bad := if big then x.badRun + 1 else 0
      let good := if small then x.goodRun + 1 else 0
      let on := x.skewed && good < 8 || 8 ≤ bad
      let s := updTime i (fun t => { t with
        offset := some th, delay := some ((own + far).tdiv 2), badRun := bad, goodRun := good, skewed := on }) s
      raiseIf (on != x.skewed) 0xB3 s

/-! ## The DCH (R317) -/

/-- The next segment of an out queue whose segments carry `full` bytes: header byte and data, and the queue after it. -/
def outNext (full : Nat) (o : OutQ) : Bytes × OutQ :=
  match o.msgs with
  | [] => (zeros (full + 1), o)
  | m :: rest =>
    let d := (m.drop (o.off.getD 0)).take full
    ([byteOf (192 + 32 * b2n o.off.isNone + d.length)] ++ padTo full d,
      if d.length < full then { msgs := rest } else { o with off := some (o.off.getD 0 + full) })

/-- The 16 DCH bytes of the outgoing frame of this tick, and the state with a segment taken (R317). -/
def dchNext (c : Line) (s : State) : Bytes × State :=
  if !s.dm.member || !pathOn s c.ix then (zeros 16, s)
  else if s.tick % 8 = 0 then (padTo 16 (be 2 (0x4000 + s.dm.id) ++ identityBody s c), s)
  else if s.tick % 8 = 4 then
    (padTo 16 (be 2 (0x8000 + s.dm.id) ++ lagField (s.dm.time.getD c.ix {}).lag), s)
  else if (s.tx.get c).eff < 2 then (zeros 16, s)
  else
    let (b, o) := outNext 15 (s.dm.out.getD c.ix {})
    (b, updDm (fun d => { d with out := d.out.set c.ix o }) s)

/-- A received segment joins its path's message; a complete one waits in the inbox. -/
def dmSegment (p full : Nat) (start : Bool) (data : Bytes) (s : State) : State :=
  let i := nbrOf p
  let (r, m, lost) := segStep full 4116 start data (s.dm.reasm.getD i {})
  let s := if lost then dmDiscard s else s
  updDm (fun d => { d with
    reasm := d.reasm.set i r, inbox := d.inbox ++ (match m with
      | some b => [(p, b)]
      | none => []) }) s

/-- The DCH bytes of a valid received overhead (R317, R318, R325). -/
def dchRx (c : Line) (b : Bytes) (s : State) : State :=
  let h := unbe (slice b 0 2)
  if !s.dm.member || !pathOn s c.ix then s
  else
    match h / 2 ^ 14 with
    | 1 =>
      let dom := unbe (slice b 2 4)
      if dom = 0 ∨ dom ≠ s.dm.domain then s
      else
        let s := updNbr c.ix (fun n => { n with seenAt := some s.elapsed }) s
        noteIdentity c.ix (h % 2 ^ 14) (unbe (slice b 6 4)) (unbe (slice b 10 4)) (updPath s c.ix)
    | 2 => timeBeacon c.ix (unbe (slice b 2 4)) s
    | 3 =>
      let n := byteAt b 0 % 32
      if 15 < n then s else dmSegment c.ix 15 (bit (byteAt b 0) 5) (slice b 1 n) s
    | _ => s

/-- Every 5 s a BEACON goes out on a carrier's Whisper channel while its DCH path is not up (R318). -/
def whBeacon (c : Line) (s : State) : State :=
  let due := match s.dm.whBeacon.getD c.ix none with
    | some t => 5 * tps ≤ s.elapsed - t
    | none => true
  if s.dm.member && due && pathSends s (2 + c.ix) then
    dmSend 0x07 0xFFFF (identityBody s c) [2 + c.ix]
      (updDm (fun d => { d with whBeacon := d.whBeacon.set c.ix (some s.elapsed) }) s)
  else s

/-! ## Calls (R328) -/

/-- Arm a bound Solstice for a call: the bind ends with what the ARM would return. -/
def armBind (b : Bind) (k : Call) (s : State) : State :=
  let p := { b.p with
    atTick := BitVec.ofNat 64 k.t, latePolicy := false, reqCfgVer := BitVec.ofNat 32 k.version }
  let s := updDm (fun d => { d with binds := d.binds.erase b }) s
  let done (st det : Nat) : State := decide_ 0x0B08 b.crc b.p (cplOf s 0x0B08 b.p st det 0) false s
  match firstOf [checkHandle b.handle b.p.q.val s, checkPrepared b.handle s, checkVersion p s,
      checkTimed (solClass s b.handle) p s] with
  | some r => done r.st r.detail
  | none => setSol b.handle .armed (addEntry 0x0B08 b.crc p (.solstice b.handle) (solClass s b.handle) s)

/-- Does a call answer a bind? -/
def bindMatches (b : Bind) (k : Call) : Bool := b.origin == k.origin && b.number == k.number

/-- A call has arrived: it is kept, and binds that wait for it are armed. -/
def callArrived (k : Call) (s : State) : State :=
  let s := updDm (fun d => { d with calls := k :: d.calls }) s
  (s.dm.binds.filter fun b => bindMatches b k).foldl (fun s b => armBind b k s) s

/-- The call of a CALL message. -/
def callOf (m : DmIn) : Call :=
  { origin := m.origin, version := unbe (slice m.body 0 4), t := unbe (slice m.body 4 8),
    number := unbe (slice m.body 12 4) }

/-- The binds whose call has not arrived by their wait limit complete with CALL_NOT_SEEN. -/
def callWaitLimit (s : State) : State :=
  (s.dm.binds.filter fun b => b.limit ≤ s.tick).foldl (fun s b =>
    decide_ 0x0B08 b.crc b.p (cplOf s 0x0B08 b.p 0x1B07 0 0) false
      (updDm (fun d => { d with binds := d.binds.erase b }) s)) s

/-- CALL_WAIT_LIMIT. -/
def execCallWaitLimit (s : State) : Out := within callWaitLimit s

/-! ## Received messages (R320) -/

/-- Take the message at the head of the inbox when it is of this type; a message that fails the checks of R320 is
discarded and counted, by whichever row its type byte names. -/
def dmTake (ty : Nat) (f : Nat → DmIn → State → State) (s : State) : State :=
  match s.dm.inbox with
  | [] => s
  | (p, b) :: rest =>
    if byteAt b 0 ≠ ty then s
    else
      let s := updDm (fun d => { d with inbox := rest }) s
      match parseDm b with
      | none => dmDiscard s
      | some m =>
        if !s.dm.member || m.domain != s.dm.domain then dmDiscard s
        else
          let s := if p = 2 ∨ p = 3 then
              updPath (updDm (fun d => { d with whAt := d.whAt.set (p - 2) (some s.elapsed) }) s) p
            else s
          f p m (bump (837 + p) s)

/-- A forwarded message (R320): delivered when addressed here or to all, sent on with one hop less. -/
def forwarded (deliver : Nat → DmIn → State → State) (p : Nat) (m : DmIn) (s : State) : State :=
  let s := if foreignOwn s m then memberConflict s else s
  if !firstSeen s m then s
  else
    let s := noteSeen m s
    let s := if m.dest = s.dm.id ∨ m.dest = 0xFFFF then deliver p m s else s
    if m.dest ≠ s.dm.id ∧ 1 < m.hops then
      (relayPaths s p).foldl (sendOn 847 (dmMsg m.ty (m.hops - 1) m.origin m.dest m.domain m.id m.body)) s
    else s

/-- A CALL (R320, R328): delivered, bound, relayed until its T has passed. -/
def onCall (p : Nat) (m : DmIn) (s : State) : State :=
  let s := if foreignOwn s m then memberConflict s else s
  if !firstSeen s m then s
  else
    let s := noteSeen m s
    let k := callOf m
    let s := callArrived k (dmDeliver 2 m s)
    if s.tick ≤ k.t then
      (relayPaths s p).foldl (sendOn 842 (dmMsg m.ty m.hops m.origin m.dest m.domain m.id m.body)) s
    else s

/-! ## Commands (R337) -/

/-- DM_STATUS. -/
def infoDmStatus : CmdInfo := { op := 0x0B00, len := .fixed 16, desc := true }
/-- DM_JOIN. -/
def infoDmJoin : CmdInfo := { op := 0x0B01, len := .fixed 108 }
/-- DM_LEAVE. -/
def infoDmLeave : CmdInfo := { op := 0x0B02 }
/-- DM_PUBLISH. -/
def infoDmPublish : CmdInfo := { op := 0x0B03, long := true, len := .range 112 4080 1 }
/-- DM_CFG_READ. -/
def infoDmCfgRead : CmdInfo := { op := 0x0B04, len := .fixed 16, desc := true }
/-- DM_SEND. -/
def infoDmSend : CmdInfo := { op := 0x0B05, len := .range 5 4100 1 }
/-- DM_RECV. -/
def infoDmRecv : CmdInfo := { op := 0x0B06, len := .fixed 16, desc := true }
/-- DM_CALL. -/
def infoDmCall : CmdInfo := { op := 0x0B07, len := .range 16 80 1 }
/-- DM_CALL_BIND. -/
def infoDmCallBind : CmdInfo := { op := 0x0B08, len := .fixed 16 }

/-- A command that a non-member cannot run (R337). -/
def membersOnly (h : State → Reply × State) (s : State) : Reply × State :=
  if s.dm.member then h s else (.st 0x1B01, s)

/-- The 64 bytes of DM_STATUS. -/
def dmStatusBytes (s : State) : Bytes :=
  let d := s.dm
  let ups := maskOf 5 (pathUp s)
  let skews := b2n (d.nbrs.any (·.skewed)) + 2 * b2n (d.time.any (·.skewed)) + 4 * b2n (d.nbrs.any (·.epochSkew))
    + 8 * b2n d.conflict.isSome
  le 8 s.tick ++ le 4 d.domain ++ le 2 d.id ++ [byteOf (b2n d.member), byteOf ups] ++ le 4 s.cfgVersion
    ++ [byteOf (b2n (!d.doc.isEmpty)), byteOf (b2n d.fetch.isSome), 0, 0] ++ (d.nbrs.flatMap fun n => le 4 n.version)
    ++ (d.nbrs.flatMap fun n => le 2 n.member) ++ [byteOf skews, byteOf d.queue.length] ++ zeros 20

/-- The wait limit of a bind: LATE or TOO_FAR outside its range (R328). -/
def checkLimit_ (p : Packet) (s : State) : Option Refuse :=
  let d := fld (paramBytes p) 8 8
  firstOf [need (s.tick + 8 ≤ d) { step := 10, st := stLate }, need (d - s.tick ≤ 2 ^ 32) { step := 10, st := stTooFar }]

/-- An accepted DM_CALL_BIND: armed at once when its call has arrived, else waiting. -/
def bindNow (p : Packet) (s : State) : State :=
  let b := paramBytes p
  let x : Bind := { p := p, crc := packetCrc 0x0B08 p, handle := byteAt b 0, origin := fld b 2 2, number := fld b 4 4,
                    limit := fld b 8 8 }
  let s := accept p s
  if !s.dm.member then decide_ 0x0B08 x.crc p (cplOf s 0x0B08 p 0x1B01 0 0) false s
  else
    let s := updDm (fun d => { d with binds := d.binds ++ [x] }) s
    match s.dm.calls.find? (bindMatches x) with
    | some k => armBind x k s
    | none => checkInFlight s

end Sys2Proof.Machine
end

