-- ==== Sys2Proof/Machine/Mate.lean ====
section
/-! DEFINITION. Mate.lean: the mate link, its two roles and how they survive its loss (R329 to R335). -/
namespace Sys2Proof.Machine

/-- Change the mate state. -/
def updMate (f : Mate → Mate) (s : State) : State := { s with mate := f s.mate }

/-- Is MATE_ENABLE 1? -/
def mateOn (s : State) : Bool := s.parN 0xB010 0 == 1

/-- MATE_HOLDOFF in ticks. -/
def holdoff (s : State) : Nat := s.parN 0xB013 0 * 500

/-- MATE_PROBE_WINDOW in ticks. -/
def probeWin (s : State) : Nat := s.parN 0xB014 0 * 500

/-- The lease Λ in ticks (R335). -/
def lambda (s : State) : Nat := holdoff s + probeWin s / 2

/-- The peer's seniority as its frames carry it. -/
def peerSenior (s : State) : Nat := b2n (bit s.mate.peerFlags 1)

/-- Is this device the effective senior (R332)? -/
def effSenior (s : State) : Bool :=
  let own := s.parN 0xB011 0
  if own = peerSenior s then Config.dieId.toNat < unbe s.mate.peerDie else own == 1

/-- Is this device a senior with confirmed seniority? Otherwise it acts as junior (R332). -/
def seniorNow (s : State) : Bool := effSenior s && s.mate.confirmed

/-- Take a role: the protected clients' squelch follows, a change is reported (R331, R334). -/
def setRole (v : Bool) (s : State) : State :=
  if s.mate.active = v then s
  else
    raise 0xBD ((List.range 12).foldl setSquelch (updMate (fun m => { m with active := v }) s))

/-- The carriers of the protected clients have a defect of rank 1 to 5, or their slots dAIS, dPLM or dKEYX (R334). -/
def healthFault (s : State) : Bool :=
  (bitsSet 12 (s.parN 0xB012 0)).any fun i =>
    let f := getFrm s (cliLine s i)
    cliOn s i && (f.reported % 32 != 0
      || (cliRxSlots s i).any fun k => bit (f.repAis ||| f.repPlm ||| f.repKeyx) k)

/-! ## The link (R330) -/

/-- A switch that waits for its end is answered, its part in the roles stays (R334). -/
def answerSwitch (r : Reply) (s : State) : State :=
  match s.mate.switch with
  | none => s
  | some w => finishOpt w.owner r (updMate (fun m => { m with switch := some { w with owner := none } }) s)

/-- The link is lost: the hold-off begins, nothing decided is carried out but the end of an old ACTIVE's role. -/
def linkLost (s : State) : State :=
  let s := answerSwitch (.st 0x1B04) s
  raise 0xB9 (updMate (fun m => { m with
    link := false, lostAt := some s.elapsed, peer := 0, down := false, activateAt := none, want := none, idleAt := none,
    probeAt := none, healthRun := 0, switch := m.switch.filter fun w => (w.acked || !w.mine) && !w.done }) s)

/-- The link is up: confirmation is counted anew, roles stand (R332, R335). -/
def linkUp (s : State) : State :=
  raise 0xBA (updMate (fun m => { m with link := true, lostAt := none, confirmRun := 0, peer := 1, probeAt := none }) s)

/-- Bring the link's state up to date (R330), and the mate path with it (R318). -/
def updLink (s : State) : State :=
  let v := s.mate.lanes.any (·.up) && s.mate.rxLost < 3
  if v = s.mate.link then s else updPath (if v then linkUp s else linkLost s) 4

/-- Five ticks without a valid frame take lane `n` down. -/
def laneDown (n : Nat) (s : State) : State :=
  let l := s.mate.lanes.getD n {}
  if l.up && 5 ≤ l.quiet then
    updLink (bump (858 + n) (updMate (fun m => { m with lanes := lmod m.lanes n fun l => { l with up := false } }) s))
  else s

/-! ## Frames (R329) -/

/-- The mate frame sent in this tick. -/
def mateFrame (s : State) (seg : Bytes) : Bytes :=
  let m := s.mate
  let (req, ack, t) := match m.switch with
    | none => (false, false, 0)
    | some w => (w.mine && !w.done, !w.mine && !w.done, w.t)
  let flags := b2n m.active + 2 * s.parN 0xB011 0 + 4 * b2n (m.lanes.all (!·.up)) + 8 * s.parN 0xB010 0 + 16 * b2n req
    + 32 * b2n ack + 64 * b2n (healthFault s)
  let f := be 2 0xC3A6 ++ be 2 (b2n s.dm.member * 2 ^ 15 + s.dm.id) ++ be 8 s.tick
    ++ lagField (s.dm.time.getD 2 {}).lag ++ [byteOf flags, 0] ++ be 16 Config.dieId.toNat
    ++ be 2 (s.parN 0xB012 0) ++ zeros 4 ++ be 8 t ++ seg
  f ++ be 4 (crc32c f)

/-- The frame of this tick leaves on both lanes, with a Domain segment while the mate path may send. -/
def mateSend (s : State) : State :=
  let use := s.dm.member && pathSends s 4
  let (seg, o) := if use then outNext 11 (s.dm.out.getD 2 {}) else (zeros 12, s.dm.out.getD 2 {})
  let f := mateFrame s seg
  let s := updDm (fun d => { d with out := d.out.set 2 o }) s
  updMate (fun m => { m with
    outF := f, grantTick := if m.link && seniorNow s then some s.tick else m.grantTick }) s

/-- The device decides to become ACTIVE, from elapsed tick `at_` on (R333). -/
def wantActive (at_ : Nat) (s : State) : State :=
  updMate (fun m => { m with want := some s.tick, activateAt := some at_, idleAt := none }) s

/-- Three frames in a row have confirmed seniority; with neither device ACTIVE the effective senior decides to become so
(R332, R333). -/
def confirm (s : State) : State :=
  let s := updMate (fun m => { m with confirmed := true }) s
  if mateOn s && effSenior s && !s.mate.active && !bit s.mate.peerFlags 0 then wantActive (s.elapsed + 8) s else s

/-- The two devices' seniority or clients do not fit (R332). -/
def conflictCheck (s : State) : State :=
  let v := mateOn s && (peerSenior s == s.parN 0xB011 0 || s.mate.peerClients != s.parN 0xB012 0)
  raiseIf (v && !s.mate.conflict) 0xBE (updMate (fun m => { m with conflict := v }) s)

/-- What a frame of the peer says of a switch (R334). -/
def switchFrame (flags t sent : Nat) (s : State) : State :=
  match s.mate.switch with
  | none =>
    if mateOn s && bit flags 4 && s.tick < t && (s.mate.active != bit flags 0) then
      updMate (fun m => { m with switch := some { mine := false, owner := none, t := t } }) s
    else s
  | some w =>
    if w.mine then
      if w.done then
        if bit flags 0 && w.t ≤ sent && !s.mate.active then
          updMate (fun m => { m with switch := none }) (answerSwitch .ok s)
        else s
      else if (bit flags 5 || bit flags 4) && t = w.t then
        updMate (fun m => { m with switch := some { w with acked := true } }) s
      else s
    else if !bit flags 4 && !w.done && sent < w.t then updMate (fun m => { m with switch := none }) s
    else s

/-- The content of the tick's frame while the link is up: peer, confirmation, switch, HEARD and GRANT. A frame that says RX_LOST was
sent after the loss at its sender and counts as no GRANT (R335). -/
def peerFrame (f : Bytes) (s : State) : State :=
  let flags := byteAt f 16
  let sent := unbe (slice f 4 8)
  let id := unbe (slice f 2 2)
  let s := updMate (fun m => { m with
    peerFlags := flags, peerDie := slice f 18 16, peerClients := unbe (slice f 34 2), peerTick := sent,
    peerMember := if bit id 15 then some (id % 2 ^ 14) else m.peerMember,
    heardAt := some s.elapsed, heardTick := s.tick, confirmRun := min 3 (m.confirmRun + 1),
    idleAt := match m.want with
      | some w => if !bit flags 0 && w ≤ sent then some (m.idleAt.getD s.elapsed) else m.idleAt
      | none => none }) s
  let s := if bit id 15 then updNbr 2 (fun n => { n with member := id % 2 ^ 14 }) s else s
  let s := updMate (fun m => { m with grantTick := if effSenior s || bit flags 2 then m.grantTick else some sent }) s
  switchFrame flags (unbe (slice f 40 8)) sent (conflictCheck s)

/-- The first valid frame of a tick: RX_LOST, content, time check, Domain segment. -/
def takeFrame (f : Bytes) (lag : Int) (s : State) : State :=
  let s := updMate (fun m => { m with seen := true, rxLost := if bit (byteAt f 16) 2 then min 3 (m.rxLost + 1) else 0 }) s
  let was := s.mate.link
  let run := s.mate.confirmRun
  let s := updLink s
  let s := if was && s.mate.link then peerFrame f s else s
  let s := if was && s.mate.link && run = 2 && s.mate.confirmRun = 3 then confirm s else s
  let s := timeBeacon 2 (unbe (slice f 12 4)) (updTime 2 (fun t => { t with lag := some lag }) s)
  let h := byteAt f 48
  if s.dm.member && pathOn s 4 && s.mate.link && h / 64 = 3 && h % 32 ≤ 11 then
    dmSegment 4 11 (bit h 5) (slice f 49 (h % 32)) s
  else s

/-- Is a mate frame valid: length, first bytes and CRC (R329)? -/
def mateValid (f : Bytes) : Bool :=
  f.length == 64 && unbe (slice f 0 2) == 0xC3A6 && unbe (slice f 60 4) == crc32c (f.take 60)

/-- A frame on lane `n`: three valid ones in a row bring the lane up (R330). -/
def mateRx (n : Nat) (f : Bytes) (lag : Int) (s : State) : State :=
  if mateValid f then
    let s := updMate (fun m => { m with lanes := lmod m.lanes n fun l => {
      l with
      good := min 3 (l.good + 1), quiet := 0, up := l.up || 2 ≤ l.good } }) s
    if s.mate.seen then updLink s else takeFrame f lag s
  else bump 860 (updMate (fun m => { m with lanes := lmod m.lanes n fun l => { l with good := 0 } }) s)

/-! ## Roles (R333, R334) -/

/-- A decided role is taken in the commit window, once a frame has shown the peer idle (R333). -/
def mateActivate (s : State) : State :=
  match s.mate.activateAt, s.mate.idleAt with
  | some t, some i =>
    if t ≤ s.elapsed && i < s.elapsed && mateOn s then
      let s := setRole true (updMate (fun m => { m with activateAt := none, want := none, idleAt := none }) s)
      if (s.mate.switch.map (·.done)).getD false then updMate (fun m => { m with switch := none }) (answerSwitch .ok s)
      else s
    else s
  | _, _ => s

/-- MATE_ACTIVATE. -/
def execMateActivate (s : State) : Out := within mateActivate s

/-- Start a switch: T is 16 ticks on (R334). -/
def startSwitch (owner : Option CmdKey) (s : State) : State :=
  updMate (fun m => { m with switch := some { mine := true, owner := owner, t := s.tick + 16 }, healthRun := 0 }) s

/-- May a switch start: roles in force, the link up, one of the two ACTIVE, none under way? -/
def canSwitch (s : State) : Bool :=
  mateOn s && s.mate.link && s.mate.switch.isNone && s.mate.active != bit s.mate.peerFlags 0

/-- The steps of a switch at T − 8 and T (R334). -/
def switchTick (s : State) : State :=
  match s.mate.switch with
  | none => s
  | some w =>
    if w.done then
      if !w.mine && !s.mate.activateAt.isSome then updMate (fun m => { m with switch := none }) s else s
    else if w.mine && !w.acked then
      if w.t ≤ s.tick + 8 then
        bump 862 (updMate (fun m => { m with switch := none }) (answerSwitch (.st 0x1B05) s))
      else s
    else if w.t ≤ s.tick then
      let s := bump 861 (updMate (fun m => { m with switch := some { w with done := true } }) s)
      let s := if s.mate.active then setRole false s else if s.mate.link then wantActive s.elapsed s else s
      if s.mate.link then s else updMate (fun m => { m with switch := none }) s
    else s

/-- MATE_SWITCH_TICK. -/
def execMateSwitchTick (s : State) : Out := within switchTick s

/-- The conditions of an automatic switch in this tick (R334). -/
def autoWanted (s : State) : Bool :=
  s.parN 0xB015 0 == 1 && canSwitch s && !s.mate.active && bit s.mate.peerFlags 6 && !healthFault s

/-- After 8 ticks of a peer's health fault the STANDBY device starts a switch. -/
def autoSwitch (s : State) : State :=
  if 8 ≤ s.mate.healthRun && autoWanted s then startSwitch none s else s

/-! ## The link lost (R335) -/

/-- Is the link lost and the hold-off over? -/
def afterHoldoff (s : State) : Bool :=
  mateOn s && !s.mate.link && (match s.mate.lostAt with
    | some t => t + holdoff s ≤ s.elapsed
    | none => false)

/-- Has something happened within the last MATE_PROBE_WINDOW? -/
def inWindow (s : State) (t : Option Nat) : Bool :=
  match t with
  | some t => s.elapsed < t + probeWin s
  | none => false

/-- Send a PROBE (5) or PROBE_REPLY (6) to the peer with HEARD and GRANT as they stand. -/
def sendProbe (ty : Nat) (s : State) : State :=
  match s.dm.member, s.mate.peerMember with
  | true, some id =>
    let grant := seniorNow s && inWindow s s.mate.heardAt
    let s := if grant then updMate (fun m => { m with grantTick := some s.tick }) s else s
    bump 863 (dmSend ty id (be 8 s.tick ++ [byteOf (b2n (inWindow s s.mate.anyAt) + 2 * b2n grant)]) (sendPaths s) s)
  | _, _ => s

/-- After the hold-off probing begins. -/
def holdoffExpiry (s : State) : State :=
  if afterHoldoff s && s.mate.probeAt.isNone then
    sendProbe 5 (updMate (fun m => { m with probeAt := some s.elapsed }) s)
  else s

/-- Every MATE_PROBE_WINDOW / 8 another PROBE goes out. -/
def probeTimer (s : State) : State :=
  match s.mate.probeAt with
  | some t =>
    if afterHoldoff s && t + probeWin s / 8 ≤ s.elapsed then
      sendProbe 5 (updMate (fun m => { m with probeAt := some s.elapsed }) s)
    else s
  | none => s

/-- What a PROBE or PROBE_REPLY of the peer brings (R335). -/
def onProbe (reply : Bool) (_ : Nat) (m : DmIn) (s : State) : State :=
  if s.mate.peerMember ≠ some m.origin then s
  else
    let flags := byteAt m.body 8
    let sent := unbe (slice m.body 0 8)
    let s := bump 864 (updMate (fun x => { x with anyAt := some s.elapsed }) s)
    let s := if bit flags 0 then
        let first := !s.mate.link && !s.mate.down
        raiseIf first 0xBB (updMate (fun x => { x with
          heardAt := some s.elapsed, heardTick := s.tick, peer := 1, down := x.down || !x.link }) s)
      else s
    let s := if bit flags 1 && !seniorNow s then
        updMate (fun x => { x with grantTick := some (max sent (x.grantTick.getD 0)) }) s
      else s
    if reply && afterHoldoff s then sendProbe 6 s else s

/-- An ACTIVE junior whose latest GRANT is Λ ticks old enters STANDBY. -/
def leaseExpiry (s : State) : State :=
  let old := match s.mate.grantTick with
    | some g => g + lambda s ≤ s.tick
    | none => true
  if afterHoldoff s && s.mate.active && !seniorNow s && old then setRole false s else s

/-- JUNIOR_LEASE_EXPIRY. -/
def execJuniorLeaseExpiry (s : State) : Out := within leaseExpiry s

/-- A confirmed STANDBY senior that has not heard the junior for a window, and whose last GRANT is Λ + 1 ticks old,
becomes ACTIVE. -/
def takeover (s : State) : State :=
  let old := match s.mate.grantTick with
    | some g => g + lambda s + 1 ≤ s.tick
    | none => true
  if afterHoldoff s && !s.mate.active && seniorNow s && !inWindow s s.mate.heardAt && old then setRole true s else s

/-- SENIOR_TAKEOVER. -/
def execSeniorTakeover (s : State) : Out := within takeover s

/-- No message with HEARD for a window: the peer is lost. -/
def peerLost (s : State) : State :=
  if afterHoldoff s && !inWindow s s.mate.heardAt && s.mate.peer != 2 then
    raise 0xBC (updMate (fun m => { m with peer := 2 }) s)
  else s

/-! ## The tick and the parameters -/

/-- What the commit window does of the mate logic. -/
def mateWindow (s : State) : State := takeover (leaseExpiry (mateActivate (switchTick s)))

/-- What the work span of a tick does of it. -/
def mateWork (s : State) : State :=
  let s := [0, 1].foldl (fun s n => laneDown n s) s
  let s := mateSend (peerLost (probeTimer (holdoffExpiry s)))
  let s := autoSwitch (updMate (fun m => { m with healthRun := if autoWanted s && m.seen then min 8 (m.healthRun + 1) else 0 }) s)
  updMate (fun m => { m with
    seen := false, confirmRun := if m.seen || m.confirmRun = 3 then m.confirmRun else 0,
    rxLost := if m.seen || m.rxLost = 3 then m.rxLost else 0,
    lanes := m.lanes.map fun l => { l with good := if l.quiet = 0 then l.good else 0, quiet := min 6 (l.quiet + 1) } }) s

/-- MATE_ENABLE has changed: STANDBY when it becomes 1, no role when it becomes 0 (R331). -/
def mateEnableChanged (s : State) : State :=
  let s := answerSwitch (.st stAborted) s
  (List.range 12).foldl setSquelch (setRole false (updMate (fun m => { m with
    switch := none, activateAt := none, want := none, idleAt := none, probeAt := none }) s))

/-- MATE_SENIOR has changed: confirmation is withdrawn until the next link-up (R332). -/
def mateSeniorChanged (s : State) : State := updMate (fun m => { m with confirmed := false, confirmRun := 3 }) s

/-! ## Commands (R337) -/

/-- MATE_STATUS. -/
def infoMateStatus : CmdInfo := { op := 0x0B10, len := .fixed 16, desc := true }
/-- MATE_SWITCH. -/
def infoMateSwitch : CmdInfo := { op := 0x0B11 }

/-- The 48 bytes of MATE_STATUS. -/
def mateStatusBytes (s : State) : Bytes :=
  let m := s.mate
  le 8 s.tick ++ [byteOf (b2n (m.lanes.getD 0 {}).up + 2 * b2n (m.lanes.getD 1 {}).up), byteOf (b2n m.link),
      byteOf (b2n m.active), byteOf (b2n (effSenior s) + 128 * b2n m.confirmed)]
    ++ le 2 (m.peerMember.getD 0) ++ [byteOf m.peer, 0] ++ le 8 m.heardTick ++ le 8 (m.grantTick.getD 0)
    ++ le 4 (match (s.dm.time.getD 2 {}).offset with
      | some o => ux 32 o
      | none => 0x80000000) ++ zeros 12

end Sys2Proof.Machine
end

