-- ==== Sys2Proof/Machine/Power.lean ====
section
/-! DEFINITION. Power.lean: power states, carrier starts and stops, gating, voltage, PMBus, heat and pin protection (group
0x1, R462 to R484). -/
namespace Sys2Proof.Machine

/-- Change the power manager. -/
def updPwr (f : Pwr → Pwr) (s : State) : State := { s with pwr := f s.pwr }

/-- The bit of a line in a mask of carriers. -/
def lineBit (c : Line) : Nat := 2 ^ c.ix

/-- The carriers that run, bit 0 Line A, bit 1 Line B. -/
def runMask (s : State) : Nat := b2n s.pwr.aRun + 2 * b2n s.pwr.bRun

/-- Set whether a carrier runs. Its recovered clock, lost with the carrier, qualifies without a wait when it runs again
(R347). -/
def setRun (c : Line) (v : Bool) (s : State) : State :=
  let s := if v then updRef (4 + c.ix) (fun x => { x with hadDisq := false }) s else s
  updPwr (fun p => match c with
    | .a => { p with aRun := v }
    | .b => { p with bRun := v }) s

/-! ## Carriers (R464) -/

/-- A carrier's client lanes are powered up or down, and every squelch brought up to date. -/
def clientLanes (c : Line) (v : Bool) (s : State) : State :=
  (List.range 12).foldl (fun s i =>
    if cliOn s i && cliLine s i == c && !(getCli s i).disrupt && (getCli s i).lanesUp != v then
      let off : Bool := !v && (getCli s i).aligned
      setSquelch (raiseIf off 0x70 (updCli i (fun x => { x with lanesUp := v, aligned := x.aligned && v }) s)) i
    else s) s

/-- The lanes of a stopped carrier's clients power down once its charged batches are released. -/
def lanesDown (c : Line) (s : State) : State :=
  if carrierRuns s c || !(getFec s c).cur.frames.isEmpty || !(getFec s c).prev.frames.isEmpty then s
  else clientLanes c false s

/-- The reference lane of TM_LANE_SRC, powered with its carrier, qualifies without a wait (R347). -/
def laneRefNew (c : Line) (s : State) : State :=
  if (laneOwner s (s.parN 0x2002 0)).any (cliLine s · == c) then updRef 6 (fun x => { x with hadDisq := false }) s else s

/-- A carrier runs: the transmitter leaves the forced DARK, the receiver enters SIGNAL, client lanes are up. -/
def carrierUp (c : Line) (s : State) : State :=
  raise 0x10 (laneRefNew c <| clientLanes c true (rxStart c (setOutput c (setRun c true s))))

/-- A carrier stops in one commit window: its clients have no valid data from here on. -/
def carrierDown (c : Line) (s : State) : State :=
  raise 0x10 (whCarrierStop c (lanesDown c (clientsFault c (calOff c (rxStop c (setOutput c (setRun c false s)))))))

/-! ## Moves (R463, R466, R469) -/

/-- Is this move permitted from the present state: STANDBY and PARK, STANDBY to a LINE state, between LINE states, a LINE
state to STANDBY, LINE_ONE to the other carrier? -/
def movePermitted (s : State) (target want : Nat) : Bool :=
  let st := s.pwr.state
  if target = 1 then st == 2
  else if st = 2 then target == 3 || target == 4
  else if st = 3 then target == 2 || target == 4 || (target == 3 && want != runMask s)
  else st == 4 && (target == 2 || target == 3)

/-- Does something keep the device out of PARK (R466)? -/
def parkBlocked (s : State) : Bool :=
  !s.cmd.entries.isEmpty || timedUsed s != 0 || dmaRunning s || !s.flash.ops.isEmpty || (getExch s .a).isSome
    || (getExch s .b).isSome

/-- The mapped entries: index, address, role. -/
def railMap (s : State) : List (Nat × Nat × Nat) :=
  ((chunks 8 (s.par 0x1001 0)).zipIdx.map fun e => (e.2, byteAt e.1 0, byteAt e.1 2)).filter (·.2.2 != 0)

/-- The mapped converter and host-lane rails in the order they are switched on: VDDA_CNV, VDDA_HV, VDD_HL 0.75 V, VDD_HL
1.20 V (R472, R493). -/
def railsOwned (s : State) : List (Nat × Nat × Nat) :=
  [3, 4, 5, 6].flatMap fun r => (railMap s).filter (·.2.2 == r)

/-- Does a stuck PMBus pin fail every transaction (R479)? -/
def pmbStuck (s : State) : Bool := bit s.pwr.stuck 22 || bit s.pwr.stuck 23

/-- A PMBus transaction has failed three times: two of the attempts were retries. -/
def pmbFault (addr : Nat) (s : State) : State :=
  raise 0x18 (bump 76 (bumpBy 75 2 (updPwr (fun p => { p with pmbFailAddr := addr }) s)))

/-- VOUT_COMMAND sets VDD_CORE to `v` mV on the mapped rail (R466, R467, R471, R472); not `ok` when its attempts fail. -/
def voutCore (v : Nat) (ok : Bool) (s : State) : State :=
  match (railMap s).find? (·.2.2 == 1) with
  | none => s
  | some e =>
    if ok && !pmbStuck s then updPwr (fun p => { p with vcore := v }) (bump 74 s) else pmbFault e.2.1 (bump 74 s)

/-- Switch the converter and host-lane rails on or off, in reverse order: one OPERATION for each of them that is mapped
(R472, R493). A stuck PMBus pin fails these; the first that fails ends the switching on. -/
def switchRails (on : Bool) (s : State) : State :=
  let v := if on then 15 else 0
  let rails := if on then railsOwned s else (railsOwned s).reverse
  if s.pwr.railsOn = v then s
  else if pmbStuck s then
    (if on then rails.take 1 else rails).foldl (fun t e => pmbFault e.2.1 (bump 74 t)) s
  else updPwr (fun p => { p with railsOn := v }) (bumpBy 74 rails.length s)

/-- A start fails on a PMBus transaction (R469): what this move started stops again and the state stays. -/
def moveFailed (m : PwrMove) (s : State) : State :=
  let s := bothLines.foldl (fun s c =>
    if bit m.want c.ix && !bit m.had c.ix then (if carrierRuns s c then carrierDown c s else calOff c s) else s) s
  let s := updPwr (fun p => { p with move := none }) s
  let s := if m.had = 0 then switchRails false s else s
  finishOpt m.owner (.st 0x1101) (raise 0x11 (bump 68 s))

/-- Moves begin in the first commit window after acceptance: carriers stop, and others start with their BOOT calibration
once their rails are on. -/
def moveBegin (s : State) : State :=
  match s.pwr.move with
  | none => s
  | some m =>
    if m.begun || s.elapsed ≤ m.started then s
    else
      let stuck : Bool := m.want != 0 && s.pwr.railsOn = 0 && pmbStuck s && !(railsOwned s).isEmpty
      let s := updPwr (fun p => { p with move := some { m with begun := true } }) s
      let s := if m.want = 0 then s else switchRails true s
      if stuck then moveFailed m s else
      let s := bothLines.foldl (fun s c => if bit m.had c.ix && !bit m.want c.ix then carrierDown c s else s) s
      bothLines.foldl (fun s c => if bit m.want c.ix && !bit m.had c.ix then calBoot c s else s) s

/-- The move has reached its state. -/
def moveDone (m : PwrMove) (s : State) : State :=
  let s := updPwr (fun p => { p with
    move := none, state := m.target, whStby := m.target == 2 && m.whisper }) s
  let s := if m.want = 0 then switchRails false s else s
  let s := if m.target = 2 then enginesOff s else s
  finishOpt m.owner .ok (raise 0x10 (bump (63 + m.target) s))

/-- The entry to PARK: merge buffer flushed, every key zeroised, the completion written, the clocks stopped last; a wake
that arrived meanwhile is acted on. -/
def parkEnter (m : PwrMove) (s : State) : State :=
  let s := moveDone m (zeroiseAll (flushAll 3 s))
  let s := updLink (updMate (fun x => { x with lanes := x.lanes.map fun l => { l with up := false } }) s)
  let s := (List.range 9).foldl (fun s r => if (getRef s r).qualified then disqualify r s else s) s
  let s := pllTo .stopped (voutCore 620 true s)
  match s.pwr.wakePending with
  | none => s
  | some (src, g) => updPwr (fun p => { p with waking := true, wakeSource := src, wakeGpio := g, wakePending := none }) s

/-- A move that starts no carrier ends after its latency; PARK waits while anything keeps the device out of it. -/
def moveEnd (m : PwrMove) (s : State) : State :=
  if !m.begun then s
  else if m.target = 1 then (if parkBlocked s then s else parkEnter m s)
  else if runMask s = m.want then moveDone m s else s

/-- PWR_TRANSITION_DONE: the move completes, or the OPERATION of a first start's mapped rail `failed` has failed three
times. -/
def execPwrTransitionDone (failed : Option (Fin 8)) (s : State) : Out :=
  within (fun s => match s.pwr.move, failed with
    | none, _ => s
    | some m, none => moveEnd m s
    | some m, some k =>
      match (railsOwned s).find? (·.1 == k.val) with
      | some e => if m.begun && m.had == 0 && m.want != 0 then moveFailed m (pmbFault e.2.1 s) else s
      | none => s) s

/-- The latency of a move that starts no carrier, in ticks (R463). -/
def moveTicks (m : PwrMove) : Nat :=
  if m.target = 1 then 5000 else if m.target = 2 then 2500 else 1000

/-- Moves whose latency has passed complete. -/
def moveDue (s : State) : State :=
  match s.pwr.move with
  | none => s
  | some m => if m.started + moveTicks m ≤ s.elapsed then moveEnd m s else s

/-- FOREGROUND_CAL_DONE: a converter's calibration ends; with a carrier's last one, BOOT ends and the carrier runs; with
the last carrier of a move, the move is complete (R370, R464). -/
def foregroundDone (v : Nat) (res : List SliceCal) (s : State) : State :=
  let c := convLine v
  let s := foreDone v res s
  if bootDone s c && bit ((s.pwr.move.map (·.want)).getD 0) c.ix then
    let s := carrierUp c (bootEnd c s)
    match s.pwr.move with
    | none => s
    | some m => if runMask s = m.want then moveDone m s else s
  else s

/-- A firmware restart during a change: the device goes back to the state it came from (R469). -/
def pwrRestart (s : State) : State :=
  match s.pwr.move with
  | none => s
  | some m =>
    let s := raise 0x11 (bump 68 (updPwr (fun p => { p with move := none }) s))
    if !m.begun then s
    else
      let s := bothLines.foldl (fun s c =>
        if bit m.want c.ix && !bit m.had c.ix && !carrierRuns s c then calOff c s else s) s
      if runMask s = m.had then (if m.had = 0 then switchRails false s else s)
      else updPwr (fun p => { p with move := some { m with
        target := m.source, want := m.had, had := runMask s, owner := none, started := s.elapsed, begun := false,
        whisper := p.whStby } }) s

/-! ## Waking (R467) -/

/-- The start voltage of the die, within the band outside PARK (R471). -/
def startVcore : Nat := min 780 (max 620 Config.startVoltage)

/-- WAKE_DONE: VDD_CORE is restored, the device stands in STANDBY and the timescale resumes from the tick held (R342). -/
def wakeDone (s : State) : State :=
  if s.pwr.state = 1 ∧ s.pwr.waking then
    let s := voutCore startVcore true (updPwr (fun p => { p with state := 2, waking := false }) s)
    let s := tmRestart (pllTo .freerun s)
    raise 0x1B (bump (68 + s.pwr.wakeSource) (bump 65 s))
  else s

/-! ## Gating (R470) -/

/-- Why a gating may not take effect: POOL_SHORT or GUAR_OVER. -/
def gateRefused (s : State) (g : GateReq) : Option Nat :=
  if g.ungate then none
  else if !gateLeaves s g.cores then some 0x1501
  else
    let left := (List.range 256).filter fun e => engUsable s e && !bit g.clusters (e / 16)
    if engGuarFits s s.params left.length then none else some 0x1D01

/-- A gating takes effect in its commit window. -/
def gateApply (g : GateReq) (s : State) : State :=
  let s := updPwr (fun p => { p with gates := p.gates.erase g }) s
  match gateRefused s g with
  | some st => finishOpt g.owner (.st st) s
  | none =>
    let s :=
      if g.ungate then
        let back := s.pwr.gatedCores &&& g.cores
        updFec (fun f => { f with untested := f.untested ||| back })
          (updPwr (fun p => { p with
            gatedClusters := p.gatedClusters - (p.gatedClusters &&& g.clusters), gatedCores := p.gatedCores - back }) s)
      else
        clustersGated g.clusters (updPwr (fun p => { p with
          gatedClusters := p.gatedClusters ||| g.clusters, gatedCores := p.gatedCores ||| g.cores }) s)
    finishOpt g.owner .ok (raise 0x1A s)

/-- One gating that is due. -/
def gateOne (s : State) : State :=
  match s.pwr.gates.find? fun g => g.due ≤ s.elapsed with
  | none => s
  | some g => gateApply g s

/-- Every gating that is due. -/
def gatesDue (s : State) : State := (s.pwr.gates.filter fun g => g.due ≤ s.elapsed).foldl (fun s g => gateApply g s) s

/-- GATING_APPLY. -/
def execGatingApply (s : State) : Out := within gateOne s

/-! ## Voltage and PMBus (R471 to R474) -/

/-- AVS_STEP: once per epoch, what the critical-path monitors ask for, and whether the VOUT_COMMAND went through. -/
def avsStep (up down ok : Bool) (s : State) : State :=
  if s.pwr.avsEpoch = some (s.tick / 500) then s
  else
    let s := updPwr (fun p => { p with avsEpoch := some (s.tick / 500) }) s
    let good : Bool := ok && !pmbStuck s && (railMap s).any (·.2.2 == 1)
    let count (n : Nat) (s : State) : State := if good then bump n s else s
    if s.parN 0x1000 0 = 0 then (if s.pwr.vcore = startVcore then s else voutCore startVcore ok s)
    else if up then
      if s.pwr.vcore < 780 then count 72 (voutCore (min 780 (s.pwr.vcore + 5)) ok s)
      else if (match s.pwr.avsLimitTick with
          | none => true
          | some t => decide (500000 ≤ s.elapsed - t)) then
        raise 0x16 (updPwr (fun p => { p with avsLimitTick := some s.elapsed }) s)
      else s
    else if down && 620 < s.pwr.vcore then count 73 (voutCore (max 620 (s.pwr.vcore - 5)) ok s)
    else s

/-- The commanded voltage of a role in mV; none for a rail that is off or the host's. -/
def railVolt (s : State) (role : Nat) : Option Nat :=
  match role with
  | 1 => some s.pwr.vcore
  | 2 => some 750
  | 3 => if bit s.pwr.railsOn 0 then some 900 else none
  | 4 => if bit s.pwr.railsOn 1 then some 1200 else none
  | 5 => if bit s.pwr.railsOn 2 then some 750 else none
  | 6 => if bit s.pwr.railsOn 3 then some 1200 else none
  | 7 => some 1800
  | _ => none

/-- One rail's telemetry. -/
def telOne (reads : List RailIn) (s : State) (e : Nat × Nat × Nat) : State :=
  let r := reads.getD e.1 {}
  let bad : Bool := r.failed || pmbStuck s
  let s := bumpBy 75 r.retries (bumpBy 74 3 s)
  if bad then pmbFault e.2.1 s
  else
    let s := updPwr (fun p => { p with powers := p.powers.set e.1 (r.mv * r.ma) }) s
    match railVolt s e.2.2 with
    | none => s
    | some v =>
      let w := s.parN 0x1006 0
      raiseIf (r.mv * 100 < v * (100 - w) || v * (100 + w) < r.mv * 100) 0x19 s

/-- TELEMETRY_READ: each PWR_TELEMETRY_PERIOD, the readings of every mapped rail. -/
def telemetry (reads : List RailIn) (s : State) : State :=
  if s.elapsed < s.pwr.lastTel + s.parN 0x1005 0 * 500 then s
  else (railMap s).foldl (telOne reads) (updPwr (fun p => { p with
    lastTel := s.elapsed, powers := List.replicate 8 0 }) s)

/-- ALERT_N low: STATUS_WORD of each mapped address is read in turn; `faults` has a bit for each map entry that shows
one. A stuck PMBus pin fails every read. -/
def alertRead (faults : Nat) (s : State) : State :=
  let rails := railMap s
  let quiet := rails.takeWhile fun e => pmbStuck s || !bit faults e.1
  let s := quiet.foldl (fun t e => if pmbStuck s then pmbFault e.2.1 t else t) (bumpBy 74 quiet.length s)
  match rails[quiet.length]? with
  | none => s
  | some e => raise 0x17 (bump 77 (bump 74 (updPwr (fun p => { p with alertAddr := e.2.1 }) s)))

/-- The host's oldest PMBus transaction ends, after some failed attempts; a stuck PMBus pin fails it (R472, R479). -/
def pmbusDone (fails : Nat) (data : Bytes) (s : State) : State :=
  match s.pwr.pmb with
  | [] => s
  | r :: rest =>
    let bad : Bool := fails == 3 || pmbStuck s
    let s := bump 74 (updPwr (fun p => { p with pmb := rest }) s)
    if bad then finish r.owner (.st 0x1101) (pmbFault r.addr s)
    else
      finish r.owner (.ok (if 3 ≤ r.kind then unle (data.take (if r.kind = 3 then 1 else if r.kind = 4 then 2 else 8)) else 0))
        (bumpBy 75 fails s)

/-! ## Heat and pins (R475, R478, R479) -/

/-- A junction temperature in 0.1 °C, taken once per epoch, and its events. -/
def tjReading (t : Int) (s : State) : State :=
  if s.pwr.tjEpoch = some (s.tick / 500) then s else
  let s := updPwr (fun p => { p with tj := t, tjEpoch := some (s.tick / 500) }) s
  let s := if 1050 ≤ t && !s.pwr.warn then raise 0x12 (bump 78 (updPwr (fun p => { p with warn := true }) s)) else s
  let s := if 1150 ≤ t && !s.pwr.crit then raise 0x13 (bump 79 (updPwr (fun p => { p with crit := true }) s)) else s
  if t ≤ 1000 && (s.pwr.warn || s.pwr.crit) then
    raise 0x14 (updPwr (fun p => { p with warn := false, crit := false }) s)
  else s

/-- Does the device drive push-pull pin `n`? -/
def drives (s : State) (n : Nat) : Bool := !bit s.pwr.hiZ n && (16 ≤ n || s.sys.gpioDir.getLsbD n)

/-- Is open-drain pin `n` driven low? The PMBus pins are driven by the transactions on them. -/
def drivenLow (s : State) (n : Nat) : Bool :=
  match n with
  | 19 => s.pins.intN
  | 20 => s.pins.svcReqN
  | 21 => s.pins.thermtripN
  | _ => true

/-! ## Commands (R481) -/

/-- PWR_STATUS. -/
def infoPwrStatus : CmdInfo := { op := 0x0100, len := .fixed 16, desc := true }
/-- PWR_SET. -/
def infoPwrSet : CmdInfo := { op := 0x0101, long := true, len := .fixed 3 }
/-- PWR_GATE. -/
def infoPwrGate : CmdInfo := { op := 0x0102, len := .fixed 10, line := true }
/-- PIN_REARM. -/
def infoPinRearm : CmdInfo := { op := 0x0103, len := .fixed 4 }
/-- PMBUS_XFER. -/
def infoPmbusXfer : CmdInfo := { op := 0x0104, long := true, len := .fixed 36 }

/-- PWR_POWER: the sum of the telemetry in 0.1 W. -/
def pwrPower (s : State) : Nat := s.pwr.powers.foldl (· + ·) 0 / 100000

/-- The 48 bytes of PWR_STATUS. -/
def pwrStatusBytes (s : State) : Bytes :=
  le 8 s.tick ++ le 4 (pwrState s) ++ le 4 s.pwr.svcReq ++ le 2 (ux 16 s.pwr.tj) ++ le 2 s.pwr.vcore ++ le 2 (pwrPower s)
    ++ [byteOf s.pwr.wakeSource, byteOf s.pwr.wakeGpio] ++ le 2 s.pwr.gatedClusters ++ le 6 s.pwr.gatedCores
    ++ le 3 s.pwr.hiZ ++ le 3 s.pwr.stuck ++ [byteOf s.pwr.pmbFailAddr] ++ zeros 9

/-- The gating change a PWR_GATE asks for: 8 ticks on (R470). -/
def gateAsked (p : Packet) (s : State) : GateReq :=
  let b := paramBytes p
  { owner := some (packetKey p), due := s.elapsed + 8, ungate := byteAt b 0 == 1, clusters := fld b 2 2,
    cores := fld b 4 6 }

end Sys2Proof.Machine
end

