-- ==== Sys2Proof/Machine/Seq.lean ====
section
/-! DEFINITION. Seq.lean: the overhead sequencers (R212 to R215): each instruction, one at a time, at the program counter
of its program's run. -/
namespace Sys2Proof.Machine

/-- The sequencer of a carrier and direction. -/
def getSeq (s : State) (c : Line) (d : Dir) : Seqr :=
  match d with
  | .tx => (getFrm s c).txSeq
  | .rx => (getFrm s c).rxSeq

/-- Change a sequencer. -/
def updSeq (c : Line) (d : Dir) (f : Seqr → Seqr) (s : State) : State :=
  updFrm c (fun x => match d with
    | .tx => { x with txSeq := f x.txSeq }
    | .rx => { x with rxSeq := f x.rxSeq }) s

/-- The program image in force (R215). -/
def seqImage (s : State) (c : Line) (d : Dir) : Bytes :=
  match d with
  | .tx => s.par 0x6020 c.inst
  | .rx => rxPar s 0x6021 c.inst

/-- What LDP reads: FRM_SEQ_PARM as in force in the direction's blocks (R41). -/
def seqParm (s : State) (c : Line) (d : Dir) : Bytes :=
  match d with
  | .tx => s.par 0x6022 c.inst
  | .rx => rxPar s 0x6022 c.inst

/-- The instruction word at the program counter of a run, none when no run is under way or the program has ended; a program of
ID 0 is no program (R215). -/
def seqWord (s : State) (c : Line) (d : Dir) : Option Nat :=
  let q := getSeq s c d
  let img := seqImage s c d
  if q.running && fld img 0 2 != 0 && q.pc < min 64 (byteAt img 2) then some (fld img (4 + 4 * q.pc) 4) else none

/-- Field op of an instruction word (R213). -/
def seqOp (w : Nat) : Nat := bits w 31 27

/-- Field d. -/
def seqD (w : Nat) : Nat := bits w 26 24

/-- Field a. -/
def seqA (w : Nat) : Nat := bits w 23 21

/-- Field b. -/
def seqB (w : Nat) : Nat := bits w 20 18

/-- Field imm. -/
def seqImm (w : Nat) : Nat := w % 65536

/-- Register `i`. -/
def Seqr.reg (q : Seqr) (i : Nat) : Nat := q.g.getD i 0

/-- Write register `i`, modulo 2^32. -/
def Seqr.setReg (i v : Nat) (q : Seqr) : Seqr := { q with g := q.g.set i (v % 2 ^ 32) }

/-- The program counter moves on past `n` skipped words; a run that passes its last word has ended (R214). -/
def Seqr.skip (n : Nat) (q : Seqr) : Seqr := { q with pc := q.pc + 1 + n }

/-- End a run that has passed its last word (R214). -/
def seqStop (c : Line) (d : Dir) (s : State) : State :=
  if (seqWord s c d).isNone then updSeq c d (fun q => { q with running := false }) s else s

/-- Run the instruction `op` when it is the one at the program counter of a run. -/
def seqStep (op : Nat) (c : Line) (d : Dir) (f : Nat → State → State) (s : State) : State :=
  match seqWord s c d with
  | some w => if seqOp w = op then seqStop c d (f w s) else s
  | none => s

/-- An instruction that only computes a new value of register d. -/
def seqSet (c : Line) (d : Dir) (v : Nat → Seqr → Nat) (w : Nat) (s : State) : State :=
  updSeq c d (fun q => (q.setReg (seqD w) (v w q)).skip 0) s

/-- END: stop. -/
def seqEnd (c : Line) (d : Dir) (_ : Nat) (s : State) : State := updSeq c d (fun q => { q with running := false }) s
/-- LDI: zero-extended immediate. -/
def seqLdi (c : Line) (d : Dir) : Nat → State → State := seqSet c d fun w _ => seqImm w
/-- LDH: the upper half. -/
def seqLdh (c : Line) (d : Dir) : Nat → State → State :=
  seqSet c d fun w q => q.reg (seqD w) % 65536 + 65536 * seqImm w
/-- ADD. -/
def seqAdd (c : Line) (d : Dir) : Nat → State → State := seqSet c d fun w q => q.reg (seqA w) + q.reg (seqB w)
/-- ADDI: sign-extended immediate. -/
def seqAddi (c : Line) (d : Dir) : Nat → State → State :=
  seqSet c d fun w q => q.reg (seqA w) + ux 32 (sx 16 (seqImm w))
/-- AND. -/
def seqAnd (c : Line) (d : Dir) : Nat → State → State := seqSet c d fun w q => q.reg (seqA w) &&& q.reg (seqB w)
/-- OR. -/
def seqOr (c : Line) (d : Dir) : Nat → State → State := seqSet c d fun w q => q.reg (seqA w) ||| q.reg (seqB w)
/-- XOR. -/
def seqXor (c : Line) (d : Dir) : Nat → State → State := seqSet c d fun w q => q.reg (seqA w) ^^^ q.reg (seqB w)
/-- SHL by imm[4:0]. -/
def seqShl (c : Line) (d : Dir) : Nat → State → State := seqSet c d fun w q => q.reg (seqA w) <<< (seqImm w % 32)
/-- SHR by imm[4:0]. -/
def seqShr (c : Line) (d : Dir) : Nat → State → State := seqSet c d fun w q => q.reg (seqA w) >>> (seqImm w % 32)
/-- What LDT reads: TICKLO, MFC, overhead validity, carrier; for another immediate the specification names no value: a
free one. -/
def seqLdt (c : Line) (d : Dir) (w : Nat) (s : State) : State :=
  match seqImm w with
  | 0 => seqSet c d (fun _ q => q.tickLo) w s
  | 1 => seqSet c d (fun _ q => q.mfc) w s
  | 2 => seqSet c d (fun _ q => b2n q.valid) w s
  | 3 => seqSet c d (fun _ _ => c.inst) w s
  | _ => seqSet c d (fun _ _ => s.fresh.1) w s.fresh.2
/-- LDP: PARM[imm[3:0]]. -/
def seqLdp (c : Line) (d : Dir) (w : Nat) (s : State) : State :=
  seqSet c d (fun w _ => fld (seqParm s c d) (4 * (seqImm w % 16)) 4) w s
/-- LDS: STATE[imm[2:0]]. -/
def seqLds (c : Line) (d : Dir) : Nat → State → State := seqSet c d fun w q => q.st.getD (seqImm w % 8) 0
/-- STS: STATE[imm[2:0]] := Ga. -/
def seqSts (c : Line) (d : Dir) (w : Nat) (s : State) : State :=
  updSeq c d (fun q => Seqr.skip 0 { q with st := q.st.set (seqImm w % 8) (q.reg (seqA w)) }) s
/-- RDB (receive): SEQ byte imm[4:0], 0 with an invalid overhead. -/
def seqRdb (c : Line) (d : Dir) : Nat → State → State := seqSet c d fun w q =>
  if q.valid then byteAt q.bytes (seqImm w % 32) else 0
/-- WRB (transmit): SEQ byte imm[4:0] := Ga[7:0]. -/
def seqWrb (c : Line) (d : Dir) (w : Nat) (s : State) : State :=
  updSeq c d (fun q => Seqr.skip 0 { q with bytes := q.bytes.set (seqImm w % 32) (byteOf (q.reg (seqA w))) }) s
/-- CRC8: one step, polynomial 0x07, of Gd[7:0] with byte Ga[7:0]. -/
def seqCrc8 (c : Line) (d : Dir) : Nat → State → State := seqSet c d fun w q =>
  crcByteM 8 0x07 (q.reg (seqD w) % 256) (byteOf (q.reg (seqA w)))
/-- A skip: past imm[5:0] words when the condition holds. -/
def seqSkip (c : Line) (d : Dir) (cond : Nat → Nat → Bool) (w : Nat) (s : State) : State :=
  updSeq c d (fun q => q.skip (if cond (q.reg (seqA w)) (q.reg (seqB w)) then seqImm w % 64 else 0)) s
/-- CNT (receive): add 1 to sequencer counter imm[1:0]. -/
def seqCnt (c : Line) (d : Dir) (w : Nat) (s : State) : State :=
  bump (frmCnt c (15 + seqImm w % 4)) (updSeq c d (Seqr.skip 0) s)
/-- EVT (receive): SEQ_EVENT, at most once per frame, with the code of the first (R215). -/
def seqEvt (c : Line) (d : Dir) (w : Nat) (s : State) : State :=
  let first := (getSeq s c d).evt.isNone
  let s := updSeq c d (fun q => Seqr.skip 0 (if first then { q with evt := some (seqImm w % 256) } else q)) s
  raiseIf first (lineEvt 0x60 c 7) s

/-- The table of instructions (R213). -/
def seqInstr (op : Nat) (c : Line) (d : Dir) (w : Nat) (s : State) : State :=
  match op with
  | 0x00 => seqEnd c d w s
  | 0x01 => seqLdi c d w s
  | 0x02 => seqLdh c d w s
  | 0x03 => seqAdd c d w s
  | 0x04 => seqAddi c d w s
  | 0x05 => seqAnd c d w s
  | 0x06 => seqOr c d w s
  | 0x07 => seqXor c d w s
  | 0x08 => seqShl c d w s
  | 0x09 => seqShr c d w s
  | 0x0A => seqLdt c d w s
  | 0x0B => seqLdp c d w s
  | 0x0C => seqLds c d w s
  | 0x0D => seqSts c d w s
  | 0x0E => seqRdb c d w s
  | 0x0F => seqWrb c d w s
  | 0x10 => seqCrc8 c d w s
  | 0x11 => seqSkip c d (· == ·) w s
  | 0x12 => seqSkip c d (· != ·) w s
  | 0x13 => seqSkip c d (fun a b => decide (a < b)) w s
  | 0x14 => seqCnt c d w s
  | 0x15 => seqEvt c d w s
  | _ => seqEnd c d w s

/-- May an op stand in the program of a direction (R213)? -/
def seqAllowed (d : Dir) (op : Nat) : Bool :=
  op ≤ 0x15 && (match d with
    | .tx => op != 0x0E && op != 0x14 && op != 0x15
    | .rx => op != 0x0F)

/-- Is a program image valid (R214)? -/
def seqValid (d : Dir) (img : Bytes) : Bool :=
  (List.range (byteAt img 2)).all fun i => seqAllowed d (seqOp (fld img (4 + 4 * i) 4))

/-- Start a run: registers 0, from word 0; the transmit program's SEQ bytes start at 0 (R212, R214). -/
def seqStart (c : Line) (d : Dir) (tickLo mfc : Nat) (valid : Bool) (bytes : Bytes) (s : State) : State :=
  seqStop c d (updSeq c d (fun q => { q with
    g := List.replicate 8 0, pc := 0, running := true, bytes := bytes, tickLo := tickLo, mfc := mfc, valid := valid,
    evt := none }) s)

/-- Run what is left of a run: at most 64 instructions (R214). -/
def seqFinish (c : Line) (d : Dir) : Nat → State → State
  | 0, s => s
  | n + 1, s =>
    match seqWord s c d with
    | none => s
    | some w => seqFinish c d n (seqStop c d (seqInstr (seqOp w) c d w s))

/-- A new program takes effect: STATE is cleared (R212). -/
def seqLoaded (c : Line) (d : Dir) (s : State) : State :=
  updSeq c d (fun q => { q with st := List.replicate 8 0, running := false }) s

/-! ## Parameters of the blocks that follow frame alignment (R25, R41) -/

/-- A committed value reaches the receive blocks that follow frame alignment. -/
def lagApply (s : State) (r : Nat × Bytes) : State :=
  let inst := r.1 % 256
  let c := lineOf inst
  let same : Bool := tableVal s.lag.view r.1 == r.2
  let s := { s with lag := { s.lag with view := tableApply s.lag.view [r] } }
  match r.1 / 256 with
  | 0x6010 => if same then s else updFrm c (fun f => { f with expPt := rxPar s 0x6011 inst }) s
  | 0x6011 => updFrm c (fun f => { f with expPt := r.2 }) s
  | 0x6021 => if same then s else seqLoaded c .rx s
  | _ => s

/-- The parameters that act in those blocks, with the carrier whose frames they wait for. -/
def lagging (s : State) (c : Line) (r : Nat × Bytes) : Bool :=
  let inst := r.1 % 256
  if [0x6010, 0x6011, 0x6012, 0x6013, 0x6021, 0x6022].contains (r.1 / 256) then lineOf inst == c
  else [0x7004, 0x7005, 0x7006, 0x7007].contains (r.1 / 256) && lineOf (s.parN 0x7001 inst) == c

/-- A set is committed: what it holds for those blocks waits for the frame of its tick. -/
def lagCommit (recs : SMap Bytes) (s : State) : State :=
  bothLines.foldl (fun s c =>
    match recs.filter (lagging s c) with
    | [] => s
    | l => { s with lag := { s.lag with wait := s.lag.wait ++ [(c, s.tick, l)] } }) s

/-- The frame of frame tick `t` reaches those blocks: what was committed for it or earlier is in force from this frame on. -/
def lagReach (c : Line) (t : Nat) (s : State) : State :=
  let due := s.lag.wait.filter fun x => x.1 == c && x.2.1 ≤ t
  let s := { s with lag := { s.lag with wait := s.lag.wait.filter fun x => !(x.1 == c && x.2.1 ≤ t) } }
  due.foldl (fun s x => x.2.2.foldl lagApply s) s

end Sys2Proof.Machine
end

