-- ==== Sys2Proof/Machine/LineRx.lean ====
section
/-! DEFINITION. LineRx.lean: a received line frame: overhead, checks, slots (R189 to R211, R235 to R239, R261). -/
namespace Sys2Proof.Machine

/-- Is a received overhead valid (R196)? -/
def ohValid (s : State) (c : Line) (oh : Bytes) : Bool :=
  !(getFec s c).frameBad.contains 0 && oh.length == 256 && unbe (slice oh 0 2) == 0xB3C5 && byteAt oh 3 / 16 == 1
    && byteAt oh 2 == byteAt oh 7

/-- The AAD of a frame's messages (R258): the overhead with bytes 140 to 207 replaced by 0. -/
def aadOf (oh : Bytes) : Bytes := patch oh 140 (zeros 68)

/-- A frame with an invalid overhead: counted, its frame tick follows the last one, GCC messages in progress go
(R196, R197, R210). -/
def invalidOh (c : Line) (s : State) : State :=
  let s := bump (frmCnt c 1) (updFrm c (fun f => { f with frameTick := f.frameTick + 1 }) s)
  if (getFrm s c).inF then dropReasm c s else s

/-- The fields of a valid overhead that act by persistence or at once (R192 to R211). DESIGN CHOICE: a BEI of 9 to 15, which no
sender sends, counts as 8 (R192; log entry 193). -/
def plainFields (c : Line) (ft : Nat) (oh : Bytes) (s : State) : State :=
  let s := if (getFrm s c).inF then noteAnn c ft oh s else s
  let bei := min 8 (byteAt oh 9 % 16)
  let ais := unbe (slice oh 13 3)
  let s := if bei = 0 then s else bumpBy (frmCnt c 7) bei s
  updFrm c (fun f => ((List.range 48).foldl (fun f k => acceptByte k (oh.getD (16 + k) 0) f) { f with
    bei := bei, btri := unbe (slice oh 10 3), seqId := unbe (slice oh 78 2),
    bdi := f.bdi.step 5 5 (bit (byteAt oh 9) 7),
    ais := f.ais.zipIdx.map fun x => x.1.step 3 3 (bit ais x.2) })) s

/-- A received GCC segment; without frame alignment those of the key agreement are not taken (R31). -/
def gccTake (c : Line) (ft : Nat) (seg : Bytes) (s : State) : State :=
  if byteAt seg 0 / 64 = 2 ∧ !(getFrm s c).inF then s else gccSegment c ft seg s

/-- The privileged fields of a valid overhead: the GCC under SA 24, the APS under SA 25, or in clear (R210, R211, R261,
R266). -/
def privFields (c : Line) (ft : Nat) (oh aad : Bytes) (s : State) : State :=
  let khp := byteAt oh 134
  let (g, seg, s) := checkMsg c 24 (bit khp 0) (bit khp 2) true ft aad (slice oh 144 32) (slice oh 176 16) s
  let s := match g with
    | .pass => gccTake c ft seg s
    | .fail => gccDrop c s
    | .farBlocked =>
      if byteAt oh 144 / 64 = 2 then gccTake c ft (slice oh 144 32) s else bump (cryCnt c 10) s
    | _ => s
  let (a, w, s) := checkMsg c 25 (bit khp 1) (bit khp 3) true ft aad (slice oh 140 4) (slice oh 192 16) s
  apsStep c (a = .pass) (unbe w) s

/-- Does any uncorrected codeword hold bits of slot `i`'s message (R189, R261)? -/
def slotHurt (f : FecC) (i : Nat) : Bool :=
  let lo := (2048 + 206576 * i) / f.frameK
  let hi := (2048 + 206576 * i + 206575) / f.frameK
  f.frameBad.any fun w => lo ≤ w && w ≤ hi

/-- Check slot `i`'s message and advance its dKEYX detector; an unequipped slot has neither (R205, R261). -/
def slotCheck (c : Line) (ft : Nat) (oh aad : Bytes) (f : LineIn) (s : State) (i : Nat) : Option Bytes × State :=
  if byteAt (getFrm s c).accPt i = 0 ∨ (getFec s c).frameSlots ≤ i then
    (none, updFrm c (fun x => { x with keyx := x.keyx.set i {} }) s)
  else
    let (ct, tag) := f.slots.getD i ([], [])
    let (r, pt, s) := checkMsg c i (bit (unbe (slice oh 131 3)) i) (bit (unbe (slice oh 128 3)) i)
      (!slotHurt (getFec s c) i) ft aad ct tag s
    let s := updFrm c (fun x => { x with keyx := lmod x.keyx i (KeyDet.step r) }) s
    (if r = .pass && (getFrm s c).inF && !bit (unbe (slice oh 13 3)) i then some pt else none, s)

/-- The local client that takes a slot's client index (R236). -/
def takerOf (s : State) (c : Line) (x : Nat) : Option Nat :=
  (View.cliOn s.params).find? fun i => cliLine s i == c && rxParN s 0x7004 (0x40 + i) == x

/-- One slot of a frame: client blocks, test blocks, test pattern, or data nobody takes; without data the lock is reset
(R235 to R237). -/
def slotRun (c : Line) (pt : Option Bytes) (s : State) (j : Nat) : SlotOut × State :=
  let m := accMapOf s c
  let r := getRxSlot s c j
  let put (r : RxSlot) (s : State) : State := updSlots c (fun x => { x with rx := x.rx.set j r }) s
  let base := 664 + 3 * c.ix
  match pt with
  | none =>
    let s := put r.none_ s
    match if ptClient (mapPt m j) then takerOf s c (mapIx m j / 16) else none with
    | some i => ({ locked := false }, if r.locked then raise 0x74 (bump (cliCnt i 11) s) else s)
    | none => ({ locked := false }, s)
  | some b =>
    if mapPt m j = 0xFD then
      let (r, o) := r.frame false b
      let n := (o.blks.filter (· != idleBlk)).length
      (o, put r (if n = 0 then s else cliOnce 0x7D (bumpBy (base + 1) n s)))
    else if mapPt m j = 0xFE then
      let (r, n) := r.prbsFrame b
      ({}, put r (if n = 0 then s else cliOnce 0x7D (bumpBy (base + 2) n s)))
    else if ptClient (mapPt m j) then
      match takerOf s c (mapIx m j / 16) with
      | none => ({}, bumpBy base 3128 s)
      | some i =>
        let (r, o) := r.frame (rxParN s 0x7007 (0x40 + i) == 1) b
        let s := put r s
        let s := if o.losses = 0 then s else bumpBy (cliCnt i 11) o.losses s
        (o, (List.range o.changes).foldl (fun s _ => raise 0x74 s) s)
    else ({}, s)

/-- Every slot in turn: what it delivers, whether it delivers. -/
def slotsRun (c : Line) (check : State → Nat → Option Bytes × State) (s : State) : List (Bool × SlotOut) × State :=
  (List.range 24).foldl (fun (acc : List (Bool × SlotOut) × State) j =>
    let (pt, s) := check acc.2 j
    let (o, s) := slotRun c pt s j
    (acc.1 ++ [(pt.isSome, o)], s)) ([], s)

/-- The clients of a carrier take what the slots deliver. -/
def clientsTake (c : Line) (outs : List (Bool × SlotOut)) (s : State) : State :=
  ((View.cliOn s.params).filter fun i => cliLine s i == c).foldl
    (clientFrame (slotMask fun j => (outs.getD j (false, {})).1) (outs.map (·.2))) s

/-- A tick in which the line frame takes no frame. In TRACKING and IF the far clock has none in it: the next frame comes as it
comes. Else the carrier receives none: its clients have no valid data, locks are reset (R237, R239); a parameter that waits for
its frame waits no longer. -/
def noFrame (c : Line) (s : State) : State :=
  if (getRx s c).st = .tracking ∧ (getFrm s c).inF then frmReport c s
  else
    let s := lagReach c s.tick (bipClear c s)
    let (outs, s) := slotsRun c (fun s _ => (none, s)) s
    let s := frmReport c s
    if carrierRuns s c then clientsTake c outs s else s

/-- The parity over a frame's information bits beyond the overhead (R202). -/
def frameParity (f : LineIn) : Nat := (bip8 (f.slots.flatMap (fun x => x.1 ++ x.2) ++ f.fill)).toNat

/-- The `n` bits of information fill after those received, which are not sent: the register runs on (R27, R189). -/
def fillRest (got : List Bool) (n : Nat) : List Bool :=
  if got.length < 31 then (prbsBits (got.length + n) (2 ^ 31 - 1)).1.drop got.length
  else (prbsBits (31 + n) (bitsNum (lastN 31 got))).1.drop 31

/-- A decoded frame as the line frame takes it: overhead, slots with their tags, fill (R189). -/
def frameIn (f : DecFrame) : LineIn :=
  let m : Mode := { n := f.n, const := f.mode.const, k := f.mode.k, rate := f.mode.rate, roll := f.mode.roll }
  let bits := frameBits f
  let fill := bits.drop (2048 + 206576 * m.slots)
  { oh := packBits (bits.take 2048),
    slots := (List.range m.slots).map fun i =>
      let b := (bits.drop (2048 + 206576 * i)).take 206576
      (packBits (b.take 206448), packBits (b.drop 206448)),
    fill := packBits (fill ++ fillRest fill (m.info - m.infoWhole)) }

/-- A received line frame (R189 to R211, R261), `lag` being the lag measured for it (R325). -/
def lineRx (c : Line) (f : LineIn) (lag : Option Int) (s : State) : State :=
  let oh := f.oh
  let valid := ohValid s c oh
  let inF := (getFrm s c).inF
  let s := if inF then bump (frmCnt c 0) (updFrm c (fun f => { f with gap := f.gap + 1 }) s) else s
  let ft := if valid then nearest32 s.tick (unbe (slice oh 4 4)) else (getFrm s c).frameTick + 1
  let s := lagReach c ft (if inF then seqFinish c .rx 64 s else s)
  let s := updFrm c (fun x => { x with
    fecf := x.fecf.step (rxParN s 0x6012 c.inst) (rxParN s 0x6013 c.inst) (!(getFec s c).frameBad.isEmpty) }) s
  let s := bipCheck c valid (byteAt oh 8) (some (frameParity f)) s
  let s := if valid then
      let s := updFrm c (fun x => { x with frameTick := ft, counted := true, tickLo := ft % 2 ^ 32 }) s
      let s := updTime c.ix (fun t => { t with lag := lag }) s
      let s := if inF then multiframe c (byteAt oh 2) s else s
      privFields c ft oh (aadOf oh) (applyAnn c ft (plainFields c ft oh s))
    else applyAnn c ft (invalidOh c s)
  let (outs, s) := slotsRun c (fun s j => if valid then slotCheck c ft oh (aadOf oh) f s j else (none, s)) s
  let s := (List.range 26).foldl (fun s i => rxLimit c i (retireKey c i s)) s
  let s := if inF then
      seqStart c .rx (ft % 2 ^ 32) (byteAt oh 2) valid (padTo 32 (slice oh 224 32))
        (updFrm c (fun x => { x with oh := padTo 256 oh, ohTick := ft, ohValid := valid }) s)
    else s
  let s := if valid then dchRx c (slice oh 208 16) s else s
  let s := frmReport c s
  clientsTake c outs (if bit (getFrm s c).reported 4 then bump (frmCnt c 8) s else s)

/-- The line frame takes the next frame that has left the pool (R189). -/
def lineNext (c : Line) (lag : Option Int) (s : State) : State :=
  match (getFec s c).ready with
  | [] => s
  | f :: rest =>
    let m : Mode := { n := f.n, const := f.mode.const, k := f.mode.k, rate := f.mode.rate, roll := f.mode.roll }
    let s := updFecC c (fun x => { x with
      ready := rest, taken := true, frameBad := badWords f, frameK := max 1 m.perWord, frameSlots := m.slots }) s
    lineRx c (frameIn f) lag s

end Sys2Proof.Machine
end

