-- ==== Sys2Proof/Machine/TxPipe.lean ====
section
/-! DEFINITION. TxPipe.lean: the transmit DSP of a carrier: from a frame's bits to the DAC codes of its four lanes, stage by
stage (R103, R109 to R121, R288). -/
namespace Sys2Proof.Machine

/-! ## The symbols of stage 1 (R121, R128) -/

/-- `n` symbols of the IDLE pattern and the register after them: QPSK, four bits of x^31 + x^28 + 1 for each symbol, in the
order XI, XQ, YI, YQ (R121). DESIGN CHOICE: the register runs on from tick to tick. -/
def idleSymbols (reg : Nat) : Nat → List (List Rat) × Nat
  | 0 => ([], reg)
  | n + 1 =>
    let step (r : List Bool × Nat) : List Bool × Nat :=
      let (b, x) := lfsrStep 31 28 r.2
      (r.1 ++ [b], x)
    let (bs, r) := step (step (step (step ([], reg))))
    let (rest, r') := idleSymbols r n
    (bs.map (pilotValue 1) :: rest, r')

/-- The test tone at a quarter of the symbol rate: 1, j, −1, −j on both polarisations (R128, TX_TEST_PATTERN). -/
def toneSymbols (n : Nat) : List (List Rat) :=
  (List.range n).map fun i =>
    let x : Cx := Cx.turn i (1, 0)
    [x.1, x.2, x.1, x.2]

/-- The information bits of the frame that leaves in a tick, in order: overhead, slots with their tags, fill (R189). -/
def txFrameBits (f : Frm) (fill : List Bool) : List Bool := bitsOf f.txOh ++ bitsOf f.txPay.flatten ++ fill

/-- The symbols of a carrier in a tick and the IDLE register after them: the pattern in IDLE; in TRAFFIC the frame, the
pattern or the tone by TX_TEST_PATTERN (R121, R128). -/
def stageSymbols (s : State) (c : Line) (info : List Bool) : List (List Rat) × Nat :=
  let m := txMode s.params c
  let reg := (s.tx.get c).idle
  if (s.tx.get c).eff < 2 then idleSymbols reg m.n
  else match s.parN 0x3102 c.inst with
    | 0 => (frameSymbols m (s.parN 0x3014 c.inst) info, reg)
    | 1 => idleSymbols reg m.n
    | _ => (toneSymbols m.n, reg)

/-! ## The stages (R114) -/

/-- Stage 1 of a lane: the pulse over 33 symbols, at the 77/64 samples of each symbol; `held` are the 32 symbols before
(R104, R115). -/
def pulseLane (roll : Nat) (held syms : List Rat) : List Rat :=
  let all := (held ++ syms).reverse
  (List.range (samplesOf syms.length)).map fun i =>
    let at_ : Rat := ((64 * i % 77 : Nat) : Rat) / 77 - 16
    let here := all.drop (syms.length - 1 - 64 * i / 77)
    ratSum (here.zipWith (fun x k => x * rrc roll (at_ + (k : Nat))) (List.range 33))

/-- What stage `n` (0 pulse, 1 dispersion, 2 pre-emphasis, 3 skew) holds of lane `i`. -/
def Tx.held (t : Tx) (n i : Nat) : List Rat := t.hist.getD (4 * n + i) []

/-- The 64 taps of stage 4 of a lane (R116): a pass-through is the spike of the reset value of TX_FIR_TAPS, so that the
latency does not depend on the mode (R127); computed taps have unit gain at DC. -/
def firTaps (s : State) (c : Line) (lane : Nat) : List Rat :=
  let spike : List Rat := (List.range 64).map fun k => if k = 31 then 1 else 0
  let user := s.par 0x3100 lane
  let peak := s.parN 0x3021 c.inst
  match s.parN 0x3020 c.inst with
  | 0 => spike
  | 1 =>
    let b := if peak = 0 then 0 else preemphSide peak
    (List.range 64).map fun k => if k = 31 then 1 + b else if k = 32 then -b else 0
  | _ => (List.range 64).map fun k => (sx 16 (fld user (2 * k) 2) : Rat) / 16384

/-- Stage 6: the samples of a tick scaled so that their RMS over the four lanes is TX_BACKOFF percent of full scale, as 12-bit
values. -/
def backoff (percent : Nat) (lanes : List (List Rat)) : List (List Int) :=
  let all := lanes.flatten
  let rms := rootOf (ratMean (all.map fun x => x * x))
  let k : Rat := (percent : Rat) * 2048 / 100 / rms
  lanes.map (·.map fun x => clampI (-2048) 2047 (roundUpHalf (k * x)))

/-- The envelope gain along a tick of `n` samples, from the gain before and that of the present symbol in 0.1 %: over the
first tick of a symbol a raised cosine leads from one to the other (R288). -/
def envelope (from_ next n : Nat) (first : Bool) (i : Nat) : Rat :=
  let a : Rat := (from_ : Rat) / 1000
  let b : Rat := (next : Rat) / 1000
  if first then a + (b - a) * (1 - (cosSin (180 * (i : Rat) / (n : Nat))).1) / 2 else b

/-- Stage 7: the Whisper gain on 12-bit samples. -/
def envelopeLane (g : Nat → Rat) (l : List Int) : List Int :=
  l.zipIdx.map fun x => clampI (-2048) 2047 (roundUpHalf (g x.2 * x.1))

/-- The table of stage 8 of a lane (R118). -/
def pdTable (s : State) (c : Line) (lane : Nat) : List Int :=
  match s.parN 0x3025 c.inst with
  | 0 => (List.range 257).map fun (j : Nat) => 64 * (j : Int) - 8192
  | 1 => (List.range 257).map (pdEntry (s.parN 0x3026 c.inst))
  | _ => (List.range 257).map fun j => sx 16 (fld (s.par 0x3101 lane) (2 * j) 2)

/-- Stages 8 and 9 on an internal sample (R118, R120): the DAC code, and whether it saturated. -/
def predistort (lut : List Int) (smp : Int) : Int × Bool :=
  let u := (smp + 2048).toNat
  let j := u / 16
  let f := u % 16
  let a := lut.getD j 0
  let b := lut.getD (j + 1) 0
  let v : Rat := a + (b - a : Int) * (f : Rat) / 16
  let code := roundUpHalf (v / 64)
  (clampI (-128) 127 code, code < -128 || 127 < code)

/-- The lanes XI, XQ, YI, YQ of a carrier as instances. -/
def txLanes (c : Line) : List Nat := (List.range 4).map (16 * c.inst + 1 + ·)

/-- Stages 1 to 5 of a carrier: the samples of its lanes and what the filters hold after the tick. -/
def stagesLinear (s : State) (c : Line) (syms : List (List Rat)) : List (List Rat) × List (List Rat) :=
  let t := s.tx.get c
  let m := txMode s.params c
  let lane (i : Nat) : List Rat := laneOf i syms
  let x1 := (List.range 4).map fun i => pulseLane m.roll (t.held 0 i) (lane i)
  let taps := cdTaps 0 (s.parI 0x3015 c.inst) (s.parN 0x3016 c.inst) m.n
  let x2 := [0, 2].flatMap fun i =>
    let (a, b) := firC taps (t.held 1 i) (t.held 1 (i + 1)) (x1.getD i []) (x1.getD (i + 1) [])
    [a, b]
  let x3 := [0, 1].flatMap fun p =>
    let pol := 16 * c.inst + 8 + p
    let (a, b) := iqAdjust (s.parI 0x3023 pol) (s.parI 0x3024 pol) (x2.getD (2 * p) []) (x2.getD (2 * p + 1) [])
    [a, b]
  let x4 := (x3.zip (txLanes c)).zipIdx.map fun x => fir (firTaps s c x.1.2) (t.held 2 x.2) x.1.1
  let x5 := (x4.zip (txLanes c)).zipIdx.map fun x => fir (delayTaps m.n (s.parI 0x3022 x.1.2)) (t.held 3 x.2) x.1.1
  let keep (n k : Nat) (l : List (List Rat)) : List (List Rat) := l.zipIdx.map fun x => heldAfter k (t.held n x.2) x.1
  (x5, keep 0 33 ((List.range 4).map lane) ++ keep 1 taps.length x1 ++ keep 2 64 x3 ++ keep 3 33 x4)

/-- The transmit pipeline of a tick (R114): the DAC codes of the four lanes, kept with what the filters hold. In DARK the
drive is zero (R121). -/
def txPipe (c : Line) (info : List Bool) (s : State) : State :=
  let m := txMode s.params c
  let n := samplesOf m.n
  if (s.tx.get c).eff = 0 then
    updTx c (fun t => { t with hist := [], dac := List.replicate 4 (List.replicate n 0), satLast := 0 }) s
  else
    let (syms, reg) := stageSymbols s c info
    let (lanes, hist) := stagesLinear s c syms
    let g := envelope (getWh s c).gain (whGain s c) n (whSends s c && s.tick % 8 == 0)
    let x7 := (backoff (s.parN 0x3027 c.inst) lanes).map (envelopeLane g)
    let out := (x7.zip (txLanes c)).map fun x => x.1.map (predistort (pdTable s c x.2))
    updTx c (fun t => { t with
      idle := reg, hist := hist, dac := out.map (·.map (·.1)),
      satLast := ((out.flatten).filter (·.2)).length }) s

/-- A carrier that does not run drives nothing: its pipeline is empty. -/
def txQuiet (c : Line) (s : State) : State :=
  updTx c (fun t => { t with hist := [], dac := [], satLast := 0 }) s

end Sys2Proof.Machine
end

