-- ==== Sys2Proof/Machine/LineTx.lean ====
section
/-! DEFINITION. LineTx.lean: the line frame a transmitter sends in a tick: overhead, announcements, slots, encryption
(R189 to R195, R202 to R204, R233 to R235, R258 to R260, R266). -/
namespace Sys2Proof.Machine

/-! ## Announcements (R123, R193, R260) -/

/-- The values an entry sets. -/
def entryRecs (s : State) (e : Entry) : SMap Bytes :=
  match e.action with
  | .commit r => r
  | .solstice h => ((findSol s h).map (·.recs)).getD []
  | _ => []

/-- The transmit halves of a carrier that an entry switches. -/
def entryMask (c : Line) (e : Entry) : Nat :=
  match e.action with
  | .cmd => if e.opcode = 0x0802 ∧ lineOf e.p.carrier.toNat = c then fld (paramBytes e.p) 0 4 else 0
  | .autoSwitch d m => if d = c then m else 0
  | .keSwitch d m => if d = c then m else 0
  | _ => 0

/-- The line-coordinated entries frozen for tick `t`, in order of acceptance. -/
def frozenFor (s : State) (t : Nat) : List Entry := s.cmd.entries.filter fun e => e.frozen && e.cls == .line && e.execTick == t

/-- The configuration at T as it is announced: the values in force with those of every frozen line-coordinated entry
(R123). -/
def annView (s : State) (t : Nat) : View := (frozenFor s t).foldl (fun v e => tableApply v (entryRecs s e)) s.params

/-- The transmit halves that switch at T. -/
def annMask (s : State) (c : Line) (t : Nat) : Nat := (frozenFor s t).foldl (fun m e => m ||| entryMask c e) 0

/-- The announcement under way, if any. -/
def annNow (s : State) (c : Line) : Option Nat := (s.tx.get c).annT.filter fun t => s.tick < t && t ≤ s.tick + 256

/-- The mode values of a view that NMA_CONST to NMA_PILOT carry. -/
def modeBytes (v : View) (c : Line) : Bytes :=
  let n (pid : Nat) : Nat := v.parN pid c.inst
  [byteOf (n 0x3011)] ++ be 2 (n 0x3012) ++ [byteOf (n 0x5000), byteOf (n 0x3013), byteOf (n 0x3014)]

/-- The payload types of a slot map, then its entries: the order of PT and SMAP, NPT and NSMAP (R192). -/
def splitMap (m : Bytes) : Bytes :=
  ((List.range 24).map fun i => byteOf (mapPt m i)) ++ (List.range 24).map fun i => byteOf (mapIx m i)

/-- Overhead bytes 64 to 127: the NMA fields, SEQID, NPT and NSMAP (R193). -/
def nmaBytes (s : State) (c : Line) : Bytes :=
  let own : View := s.params
  let (v, t) := match annNow s c with
    | some t => (annView s t, t)
    | none => (own, 0)
  let ann := (annNow s c).isSome
  let ch (pid : Nat) : Bool := v.par pid c.inst != own.par pid c.inst
  let flags := 128 * b2n ann + 64 * b2n (modeBytes v c != modeBytes own c) + 32 * b2n (ch 0x6000) + 16 * b2n (ch 0x6020)
  let id (v : View) : Nat := fld (v.par 0x6020 c.inst) 0 2
  [byteOf flags] ++ modeBytes v c ++ [0] ++ be 4 t ++ be 2 (if ann then id v else 0) ++ be 2 (id own)
    ++ splitMap (v.par 0x6000 c.inst)

/-- Overhead bytes 131 to 139: phases, clear flags, the switch announced (R260). -/
def keyBytesOf (s : State) (c : Line) : Bytes :=
  let ph (i : Nat) : Nat := b2n (getSa s c i).tx.phase
  let m := match annNow s c with
    | some t => annMask s c t
    | none => 0
  be 3 (slotMask fun i => (getSa s c i).tx.phase)
    ++ [byteOf (ph 24 + 2 * ph 25 + 4 * b2n (blocked s c 24) + 8 * b2n (blocked s c 25))]
    ++ be 3 (m % 2 ^ 24) ++ [byteOf (m / 2 ^ 24 % 4), 0]

/-! ## The slots -/

/-- What a client hands to the mapper for a frame: its index, its blocks, whether they are valid data. -/
structure CliFrame where
  ix : Nat
  blks : List Blk
  ok : Bool
deriving DecidableEq, Repr

/-- The ingress of every client of a carrier. -/
def clientsGive (c : Line) (inp : Nat → CliIn) (s : State) : List CliFrame × State :=
  ((View.cliOn s.params).filter fun i => cliLine s i == c).foldl (fun (a : List CliFrame × State) i =>
    let (b, ok, s) := ingressTick i (inp i) a.2
    (a.1 ++ [{ ix := i, blks := b, ok := ok }], s)) ([], s)

/-- Does slot `i` carry no valid data, `slots` being those the frame has: AISMAP (R204)? Every bit of FRM_FORCE_AIS is sent. -/
def slotAis (s : State) (c : Line) (slots late : Nat) (fr : List CliFrame) (i : Nat) : Bool :=
  let m := s.par 0x6000 c.inst
  bit (s.parN 0x6001 c.inst) i || i < slots && (bit late i
    || ptClient (mapPt m i) && (match fr.find? (·.ix == mapIx m i / 16) with
      | some f => !f.ok || (getCli s f.ix).disrupt
      | none => true))

/-- `n` blocks of a client's, every `k`-th one; fault blocks where there are none. -/
def everyKth (k : Nat) : Nat → List Blk → List Blk
  | 0, _ => []
  | n + 1, bs => bs.headD faultBlk :: everyKth k n (bs.drop k)

/-- The 206,448 payload bits of an equipped slot and the state with its scrambler or pattern run on (R233 to R235). -/
def slotBits (c : Line) (late : Nat) (fr : List CliFrame) (s : State) (i : Nat) : List Bool × State :=
  let m := s.par 0x6000 c.inst
  let sl := match c with
    | .a => s.cli.a
    | .b => s.cli.b
  let scr (bs : List Blk) : List Bool × State :=
    let (b, st) := blkBits (sl.txScr.getD i 0) bs
    (b, updSlots c (fun x => { x with txScr := x.txScr.set i st }) s)
  if mapPt m i = 0xFE then
    let (b, st) := prbsBits 206448 (sl.txPrbs.getD i 0)
    (b, updSlots c (fun x => { x with txPrbs := x.txPrbs.set i st }) s)
  else if mapPt m i = 0xFD then scr (List.replicate 3128 idleBlk)
  else
    match if bit late i then none else fr.find? (·.ix == mapIx m i / 16) with
    | some f =>
      let k := typeSlots (mapPt m i)
      scr (everyKth k 3128 (f.blks.drop (mapIx m i % 16)))
    | none => scr (List.replicate 3128 faultBlk)

/-- One slot of the frame: payload and tag. Unequipped and Blocked slots carry information fill, whose register is
`fill`; the others are encrypted and counted (R258, R259, R263). -/
def slotSend (c : Line) (late : Nat) (fr : List CliFrame) (aad : Bytes) (a : List Bytes × Nat × State) (i : Nat) :
    List Bytes × Nat × State :=
  let (out, fill, s) := a
  let filled (s : State) : List Bytes × Nat × State :=
    let (b, st) := prbsBits 206576 fill
    (out ++ [packBits b], st, s)
  if mapPt (s.par 0x6000 c.inst) i = 0 then filled s
  else
    let (b, s) := slotBits c late fr s i
    match (getSa s c i).tx.cur with
    | none => filled (bump (cryCnt c 9) s)
    | some k =>
      let ct := gcmCrypt k.key (msgIv k s.tick) (packBits b)
      (out ++ [ct ++ gcmTag k.key (msgIv k s.tick) aad ct], fill, countMsg c i s)

/-- A privileged message: ciphertext and tag under a half's current key, counted; in clear with a tag of zeros while it
is Blocked (R258, R266). -/
def privSend (c : Line) (i : Nat) (clear text aad : Bytes) (s : State) : Bytes × Bytes × State :=
  match (getSa s c i).tx.cur with
  | none => (clear, zeros 16, s)
  | some k =>
    let ct := gcmCrypt k.key (msgIv k s.tick) text
    (ct, gcmTag k.key (msgIv k s.tick) aad ct, countMsg c i s)

/-! ## The frame -/

/-- The overhead without its encrypted fields and privileged tags (R192). -/
def clearOh (s : State) (c : Line) (ais : Nat) (dch seq : Bytes) : Bytes :=
  let f := getFrm s c
  let m := s.par 0x6000 c.inst
  let kblk := slotMask fun i => mapPt m i != 0 && blocked s c i
  be 2 0xB3C5 ++ [byteOf s.tick, 0x10] ++ be 4 s.tick ++ [byteOf f.txPar2, byteOf (bkiByte s c)] ++ be 3 (tribFault s c)
    ++ be 3 ais ++ splitMap m ++ nmaBytes s c ++ be 3 kblk ++ keyBytesOf s c ++ zeros 68 ++ dch ++ padTo 32 seq

/-- Begin the run of the transmit sequencer for the frame of this tick (R212, R214). -/
def txSeqBegin (c : Line) (s : State) : State :=
  if carrierRuns s c then seqStart c .tx (s.tick % 2 ^ 32) (s.tick % 256) true (zeros 32) s else s

/-- The frame of this tick leaves (R189): overhead, slots, fill; the parity of two frames back, the next indications.
DESIGN CHOICE: the first two frames after a carrier's start carry the parities of the last two before its stop (R202; log entry
192). -/
def lineTx (c : Line) (i : TxIn) (inp : Nat → CliIn) (s : State) : State :=
  if !carrierRuns s c then bump (192 + 9 * c.ix + 1) (txQuiet c s)
  else
    let late := i.late.toNat
    let (fr, s) := clientsGive c inp (privClear c s)
    let s := (List.range 26).foldl (fun s i => if carried s c i then useLimitHit c i s else s) s
    let msg := (getFrm s c).gcc.key.headD []
    let (seg, fin, s) := gccNext c (blocked s c 24) s
    let s := if fin then keSegDone c msg s else s
    let (dch, s) := dchNext c s
    let s := seqFinish c .tx 64 s
    let s := updFrm c (fun f => { f with txSeq := { f.txSeq with running := false } }) s
    let slots := (txMode s.params c).slots
    let ais := slotMask fun i => slotAis s c slots late fr i
    let oh := clearOh s c ais dch (getFrm s c).txSeq.bytes
    let (g, gt, s) := privSend c 24 seg seg oh s
    let (a, at_, s) := privSend c 25 (zeros 4) (be 4 (getFrm s c).apsTx) oh s
    let (pay, st, s) := (List.range slots).foldl (slotSend c late fr oh) ([], 2 ^ 31 - 1, s)
    let (fill, _) := prbsBits (txMode s.params c).infoFill st
    let par := (bip8 (pay.flatten ++ packBits fill)).toNat
    let s := updFrm c (fun f => { f with
      txOh := patch (patch oh 140 (a ++ g)) 176 (gt ++ at_), txPay := pay, txPar2 := f.txPar1, txPar1 := par,
      beiTx := 0 }) s
    txCount c (late != 0) (txPipe c (txFrameBits (getFrm s c) fill) s)

end Sys2Proof.Machine
end

