-- ==== Sys2Proof/Machine/Boot.lean ====
section
/-! DEFINITION. Boot.lean: reset, the mask ROM, the firmware image and what stops the device (R33, R475, R495 to R505). -/
namespace Sys2Proof.Machine

/-- Change the boot state. -/
def updBoot (f : Boot → Boot) (s : State) : State := { s with boot := f s.boot }

/-! ## Reset (R495, R497) -/

/-- A write of the calibration store that a reset interrupts leaves its slot without a marker (R379). -/
def storeCut (s : State) : State :=
  match s.flash.ops with
  | o :: _ => if o.kind = .calStore then calCut o.data s else s
  | [] => s

/-- Everything but the flash, the trip latch and what lies outside the device goes back to its reset value. A firmware
slot being written stays invalid. -/
def resetWith (tripped : Bool) (s : State) : State :=
  let r := State.reset
  { r with
    flash := { r.flash with
      mem := (storeCut s).flash.mem,
      slots := s.flash.slots.map fun x => if x.st = .writing then { x with st := .invalid } else x },
    sys := { r.sys with gpioIn := s.sys.gpioIn, perst := s.sys.perst },
    pwr := { r.pwr with tripped := tripped },
    hostMem := s.hostMem, free := s.free, pending := s.pending }

/-! ## The firmware image (R500, R501) -/

/-- Where a firmware slot lies in flash. -/
def slotAddr (i : Nat) : Nat := if i = 0 then 0x100000 else 0x500000

/-- The length of the image whose header these bytes begin with. -/
def fwLen (b : Bytes) : Nat := 64 + fld b 16 4 + 97 + 96

/-- The check of an image: 0, or the error of BOOT_STAT. -/
def fwCheck (img : Bytes) : Nat :=
  let body := fld img 16 4
  let n := 64 + body + 97
  let key := slice img (64 + body) 97
  if fld img 0 4 ≠ 0x4C4E0001 ∨ !rsv img 24 64 ∨ 1835008 < fwLen img ∨ img.length ≠ fwLen img ∨ body ≤ fld img 20 4 then 7
  else if unbe (sha384 key) ≠ Config.keyHash.toNat then 4
  else if !sigOk key (img.take n) (img.drop n) then 5
  else if fld img 4 4 < Config.securityFloor then 6
  else 0

/-- The image in a flash slot, as long as its header says; the header alone when that is more than an image may have. -/
def slotImage (s : State) (i : Nat) : Bytes :=
  let h := flashRead s (slotAddr i) 64
  if fwLen h ≤ 1835008 then flashRead s (slotAddr i) (fwLen h) else h

/-- The error of the image in a flash slot: NO_IMAGE when it is erased. -/
def fwSlotCheck (s : State) (i : Nat) : Nat :=
  if (flashRead s (slotAddr i) 64).all (· == 0xFF) then 3 else fwCheck (slotImage s i)

/-- The boot slot of the valid boot record with the highest sequence (R499, R501). -/
def bootRecord (s : State) : Option Nat := (recBest s 0 0x1000).map (·.2.1)

/-- PLL_LOCK: tick 0 begins and the image source of BOOT_SEL is taken. -/
def pllLock (s : State) : State :=
  if s.boot.stage ≠ 2 then s
  else
    let i := match bootRecord s with
      | some 1 => 1
      | _ => 0
    let s := { s with tick := 0, elapsed := 0 }
    updBoot (fun b => { b with
      locked := true, stage := if b.strap < 2 then 3 else 7, slot := if b.strap < 2 then i else 0, firstSlot := i,
      tried := false }) s

/-- A flash image does not pass: the other slot once, then the end BOOT_SEL sets (R498). -/
def slotFailed (err : Nat) (s : State) : State :=
  updBoot (fun b =>
    if b.tried then { b with error := err, checking := false, slot := 0, stage := if b.strap = 0 then 7 else 0xF }
    else { b with error := err, checking := false, slot := 1 - b.slot, tried := true, stage := 3 }) s

/-- The firmware starts from this image. -/
def startImage (img : Bytes) (source : Nat) (s : State) : State :=
  updBoot (fun b => { b with
    stage := 5, checking := false, source := source, slot := if source = 1 then b.slot else 0,
    fallback := source == 1 && b.slot != b.firstSlot, curVersion := fld img 8 8, curSecVersion := fld img 4 4,
    pubKey := slice img (64 + fld img 16 4) 97 }) s

/-- IMAGE_CHECK_DONE: a passing image starts; else the other slot, waiting or a halt (R498, R501, R502). -/
def imageChecked (s : State) : State :=
  if s.boot.stage ≠ 4 then s
  else if s.boot.checking then
    match fwSlotCheck s s.boot.slot with
    | 0 =>
      let img := slotImage s s.boot.slot
      startImage img 1 { s with flash := { s.flash with
        slots := lmod s.flash.slots s.boot.slot fun x => { x with
          st := .valid, fwVersion := fld img 8 8, secVersion := fld img 4 4 } } }
    | e => slotFailed e s
  else
    let img := if s.boot.loadLen ≤ 1835008 then SMap.getAll (0 : Byte) s.boot.staging 0 s.boot.loadLen else []
    match fwCheck img with
    | 0 => startImage img (if s.boot.strap = 3 then 3 else 2) s
    | e => updBoot (fun b => { b with stage := 7, error := e }) s

/-! ## STANDBY-ready (R432, R271, R323, R378, R499, R504) -/

/-- The map a board record gives (R499). -/
def boardMap (s : State) : Option Bytes :=
  let b := flashRead s 0x8000 132
  if fld b 0 4 = 0x42520001 ∧ fld b 128 4 = crc32c (b.take 128) then some (slice b 4 64) else none

/-- The key-epoch record at start-up: F and H, or EPOCH_RECORD_BAD (R271). -/
def epochStart (s : State) : State :=
  match recBest s 0x2000 0x3000 with
  | some (_, h, _) => { s with cry := { s.cry with high := h, floor := h, recordBad := false } }
  | none =>
    if recErased s 0x2000 && recErased s 0x3000 then { s with cry := { s.cry with high := 0, floor := 0 } }
    else raise 0x9C { s with cry := { s.cry with recordBad := true } }

/-- The domain record at start-up (R323). -/
def domainStart (s : State) : State :=
  match domBest s with
  | some (_, d, v, _) => updDm (fun x => { x with recDomain := d, recVersion := v }) s
  | none => s

/-- STANDBY_READY: the flash records have been read and the self-tests run; `engFail` and `coreFail` are the engines and
decoder cores that failed theirs. -/
def standbyReady (engFail coreFail : Nat) (s : State) : State :=
  if s.boot.stage ≠ 5 then s
  else
    let s := updBoot (fun b => { b with stage := 6 })
      { s with sys := { s.sys with ready := true, fwRunning := true }, pwr := { s.pwr with state := 2, vcore := startVcore } }
    let s := match boardMap s with
      | some m => updBoot (fun b => { b with boardValid := true }) (s.setPar 0x1001 0 m)
      | none => s
    let s := domainStart (epochStart (fallowStart (calStart s)))
    let s := updBoot (fun b => { b with calValid := s.cal.valid }) s
    let s := updStw (fun x => { x with disabled := engFail }) s
    let s := if 4 < popcount 256 engFail then svcCause 4 s else s
    let s := checkCores (updFec (fun f => { f with disabled := coreFail }) s)
    let s := raiseIf s.boot.queueTouched 0x05 s
    raise 0x02 s

/-! ## The PCIe endpoint (R73, R497) -/

/-- The endpoint's reset: sessions end, the queue pairs are disabled and their registers, with the MSI-X table, go back to
reset. -/
def endpointReset (s : State) : State :=
  let s := (List.range 8).foldl (fun s q => disableQueue q s) s
  { s with
    cmd := { s.cmd with queues := List.replicate 8 {} },
    ev := { s.ev with msixTable := [], msixPend := 0 } }

/-! ## What stops the device (R33, R475) -/

/-- What a client had on its way to the host is not sent any more (R33): its egress buffer, the frame just demapped and the
codewords under way go. -/
def noClientData (i : Nat) (s : State) : State :=
  updCli i (fun x => { x with egr := {}, arr := [], pcsTx := {}, editOut := [] }) s

/-- The DAC outputs are held at common mode, every code 0 (R475). -/
def dacsHeld (s : State) : State :=
  bothLines.foldl (fun s c => updTx c (fun t => { t with dac := t.dac.map fun l => l.map fun _ => 0 }) s) s

/-- XO_IN is lost: both transmitters squelched, no client data toward the host, DEVICE_FAULT, until reset. -/
def xoLoss (s : State) : State :=
  if s.boot.stage < 2 ∨ s.boot.stage = 0xF ∨ !s.boot.xoFound ∨ s.sys.deviceFault then s
  else
    let s := updBoot (fun b => if b.stage = 6 then b else { b with error := 1 }) s
    let s := setOutputs { s with sys := { s.sys with deviceFault := true } }
    let s := (List.range 12).foldl (fun s i => if cliOn s i then setFault i false (noClientData i s) else s) s
    let s := match s.pwr.move with
      | none => s
      | some m => finishOpt m.owner (.st stDeviceFault) (updPwr (fun p => { p with move := none }) s)
    raise 0x2C (pllTo .stopped s)

end Sys2Proof.Machine
end

