-- ==== Sys2Proof/Machine/Engine.lean ====
section
/-! DEFINITION. Engine.lean: how an engine issues the instructions of its run within the budget (R388 to R399, R453), one
command for each function, and the end of a tick's runs. -/
namespace Sys2Proof.Machine

/-! ## Timing -/

/-- The key under which a register's readiness is kept. -/
def regKey (k : RegKind) (n : Nat) : List Nat :=
  match k with
  | .unused => []
  | .s => [n]
  | .v => [16 + n]
  | .p => if n = 0 then [] else [48 + n]

/-- The registers an instruction reads: its sources and guard, and Vd where it adds to it or sets one lane. -/
def srcKeys (w : EWord) : List Nat :=
  match fnKinds w.cls w.fn with
  | none => []
  | some (d, a, b) =>
    let acc : Bool := (w.cls == 4 && (w.fn == 1 || w.fn == 3 || w.fn == 4)) || (w.cls == 5 && w.fn == 4)
    regKey a w.a ++ regKey b w.b ++ regKey .p w.guard ++ if acc then regKey d w.d else []

/-- The cycles an instruction occupies, a taken branch's two more apart (R393). -/
def costOf (w : EWord) : Nat := if w.cls = 5 ∨ w.cls = 8 then 2 else 1

/-- The first cycle from `c` on with fewer than 8 accesses outstanding. -/
def slotFree (pend : List (Nat × Bool)) (c : Nat) : Nat :=
  let ok (t : Nat) : Bool := decide ((pend.filter fun x => t < x.1).length < 8)
  if ok c then c
  else (((pend.map (·.1)).filter fun t => decide (c < t) && ok t).foldl (fun (m : Option Nat) t =>
    some (match m with
      | none => t
      | some u => min t u)) none).getD c

/-- The cycle at which the next instruction issues: its operands ready, a place for a Store access, nothing outstanding
for SWAIT. -/
def issueAt (w : EWord) (r : Run) : Nat :=
  let c := (srcKeys w).foldl (fun c k => max c (SMap.get 0 r.ready k)) r.cycle
  if w.cls = 9 ∧ w.fn < 2 then slotFree r.pend c
  else if w.cls = 9 then (r.pend.map (·.1)).foldl max c
  else c

/-- Does the decode cache serve a read of the 64 bytes at address `a` (R425)? -/
def cacheHit (s : State) (a : Nat) : Bool :=
  (pageParts a 64).all fun p => s.str.cache.contains p.1 && (mergeOf s p.1).isNone

/-- The cycles from issue to result. A Store read that the decode cache serves takes 12 (R425); any other Store access takes a free
number of cycles up to 200. -/
def latencyOf (w : EWord) (r : Run) (s : State) : Nat × State :=
  match w.cls with
  | 2 => (3, s)
  | 4 => (4, s)
  | 5 => (2, s)
  | 7 => (if w.fn = 0 ∨ w.fn = 2 then 3 else 1, s)
  | 8 => (2, s)
  | 9 =>
    if w.fn = 0 ∧ cacheHit s (accAddr w r) then (12, s)
    else if w.fn < 2 then (1 + s.fresh.1 % 200, s.fresh.2) else (1, s)
  | _ => (1, s)

/-- The cycles VIN and SIN stall until data arrives: a free number, as long as a Store access at most. -/
def stallOf (w : EWord) (s : State) : Nat × State :=
  if w.cls = 8 ∧ (w.fn = 0 ∨ w.fn = 2) then (s.fresh.1 % 200, s.fresh.2) else (0, s)

/-! ## Sampling (R453, R454) -/

/-- The 16 bytes of a sample. -/
def sampleBytes (s : State) (e : Nat) (r : Run) (pc : Nat) (precise stalled : Bool) (lat at_ : Nat) : Bytes :=
  le 6 s.tick ++ le 2 pc ++ [byteOf e, byteOf r.tenant, byteOf (b2n precise + 2 * b2n stalled), 0] ++ le 2 lat ++ le 2 at_

/-- An instruction has retired: a sample under way moves on, and every p-th instruction begins one. -/
def sampleOne (e pc : Nat) (stalled : Bool) (lat at_ : Nat) (r : Run) (s : State) : Run × State :=
  let (r, s) := match r.samp with
    | none => (r, s)
    | some (k, c, st) =>
      if k ≤ 1 then ({ r with samp := none }, addSample (sampleBytes s e r pc false st 0 c) s)
      else ({ r with samp := some (k - 1, c, st) }, s)
  let p := s.parN 0xF003 0
  if p = 0 ∨ r.tenant < 2 ∨ !bit (s.parN 0xF004 0) r.tenant then (r, s)
  else if s.obs.sampleCount + 1 < p then (r, { s with obs := { s.obs with sampleCount := s.obs.sampleCount + 1 } })
  else
    let s := { s with obs := { s.obs with sampleCount := 0 } }
    if tenN s 0xD000 r.tenant = 2 then (r, addSample (sampleBytes s e r pc true stalled lat at_) s)
    else
      let k := s.fresh.1 % 17
      let s := s.fresh.2
      if k = 0 then (r, addSample (sampleBytes s e r pc false stalled 0 at_) s)
      else ({ r with samp := some (k, at_, stalled) }, s)

/-! ## The end of a run (R390, R399) -/

/-- A run has ended with the status it holds. -/
def finishRun (e : Nat) (r : Run) (s : State) : State :=
  let s := match r.samp with
    | none => s
    | some (_, c, st) => addSample (sampleBytes s e r r.lastPc false st 0 c) s
  let s := setEng e { getEng s e with run := some { r with samp := none } } s
  match r.ended with
  | some 0 =>
    let s := bump (tenCnt r.tenant 1) s
    if 2 ≤ r.tenant && tenN s 0xD008 r.tenant == 1 then renew r.tenant s else s
  | some 1 =>
    let first := (getTen s r.tenant).overs == 0
    let s := bump (tenCnt r.tenant 2) (updTen r.tenant (fun x => { x with overs := x.overs + 1 }) s)
    let s := if r.tenant < 2 then updRx (devLine r.tenant) (fun x => { x with nlcOverrun := true }) s else s
    raiseIf first 0xD0 s
  | _ => s

/-- An overrun. -/
def overrun (e : Nat) (r : Run) (s : State) : State := finishRun e { r with ended := some 1 } s

/-! ## Issuing -/

/-- Issue the instruction `w` of the run on engine `e`: it waits for its operands, runs within the budget or ends the
run as an overrun, and retires. -/
def issue (op : EngOp) (e code : Nat) (w : EWord) (r : Run) (s : State) : State :=
  let (stall, s) := stallOf w s
  let at_ := issueAt w r + stall
  let (lat, s) := latencyOf w r s
  let fin := at_ + costOf w
  if 5800 < fin then overrun e r s
  else
    let dKey := match fnKinds w.cls w.fn with
      | none => []
      | some (d, _, _) => regKey d w.d
    let r1 := { r with
      pc := r.pc + 8, cycle := fin, lastPc := r.pc,
      ready := dKey.foldl (fun m k => SMap.put 0 m k (at_ + lat)) r.ready,
      pend := (if w.cls = 9 ∧ w.fn < 2 then [(at_ + lat, w.fn == 1)] else []) ++ r.pend.filter fun x => at_ < x.1 }
    let (r2, s) := op { e := e, at_ := at_, code := code, pc := r.pc } w r1 s
    let (r3, s) := if r2.ended = some 2 then ({ r2 with lastPc := r.lastPc }, s)
      else sampleOne e r.pc (decide (r.cycle < at_)) lat at_ r2 s
    if r3.ended.isSome then finishRun e r3 s else setEng e { getEng s e with run := some r3 } s

/-- The word the run on engine `e` is at, with its run and the length of the code; none for the device's own programs,
which are not visible (R403), a run that has ended, or a pc past the code. -/
def nextWord (s : State) (e : Nat) : Option (Run × Nat × EWord) :=
  match (getEng s e).run with
  | none => none
  | some r =>
    if r.ended.isSome || r.tenant < 2 then none
    else match imageOf s r.image with
      | none => none
      | some im =>
        if im.code.length < r.pc + 8 then none else some (r, im.code.length, eword (fld im.code r.pc 8))

/-- The operation of a class and function. -/
def engOp (cls fn : Nat) : EngOp :=
  match cls, fn with
  | 0, 0 => opEnd
  | 0, 1 => opNop
  | 0, 2 => opBr
  | 0, 3 => opEvt
  | 0, 4 => opSys
  | 1, 0 => opAdd
  | 1, 1 => opSub
  | 1, 2 => opAnd
  | 1, 3 => opOr
  | 1, 4 => opXor
  | 1, 5 => opShl
  | 1, 6 => opShr
  | 1, 7 => opSar
  | 1, 8 => opMovi
  | 1, 9 => opAddi
  | 1, 10 => opCmpeq
  | 1, 11 => opCmplt
  | 1, 12 => opCmpltu
  | 2, 0 => opMul
  | 2, 1 => opMulh
  | 2, 2 => opMulhu
  | 3, 0 => opVadd
  | 3, 1 => opVsub
  | 3, 2 => opVadds
  | 3, 3 => opVsubs
  | 3, 4 => opVmin
  | 3, 5 => opVmax
  | 3, 6 => opVand
  | 3, 7 => opVor
  | 3, 8 => opVxor
  | 3, 9 => opVshl
  | 3, 10 => opVshr
  | 3, 11 => opVsar
  | 3, 12 => opVcmpeq
  | 3, 13 => opVcmplt
  | 4, 0 => opVmul
  | 4, 1 => opMac
  | 4, 2 => opCmul
  | 4, 3 => opCmac
  | 4, 4 => opCmacc
  | 5, 0 => opBcast
  | 5, 1 => opShuf
  | 5, 2 => opRot
  | 5, 3 => opRedadd
  | 5, 4 => opIns
  | 5, 5 => opExt
  | 6, 0 => opPand
  | 6, 1 => opPor
  | 6, 2 => opPnot
  | 6, 3 => opPmov
  | 7, 0 => opLd
  | 7, 1 => opSt
  | 7, 2 => opVld
  | 7, 3 => opVst
  | 8, 0 => opVin
  | 8, 1 => opVout
  | 8, 2 => opSin
  | 8, 3 => opSout
  | 9, 0 => opSld
  | 9, 1 => opSst
  | 9, 2 => opSwait
  | _, _ => opNop

/-! ## The rest of a tick's runs -/

/-- One instruction of engine `e`, whatever it is; a run past the end of its code can only run out of budget. -/
def engStep (e : Nat) (s : State) : State :=
  match nextWord s e with
  | some (r, code, w) => issue (engOp w.cls w.fn) e code w r s
  | none =>
    match (getEng s e).run with
    | none => s
    | some r => if r.ended.isSome then s else overrun e r s

/-- The cycle at which an engine's next instruction issues, none when it has no run to go on with. -/
def nextAt (s : State) (e : Nat) : Option Nat :=
  match nextWord s e with
  | some (r, _, w) => some (issueAt w r)
  | none => match (getEng s e).run with
    | none => none
    | some r => if r.ended.isSome then none else some r.cycle

/-- The engine that issues next: the earliest cycle of issue, then the lowest ID (R427). -/
def nextEng (s : State) : Option Nat :=
  (s.stw.engs.foldl (fun (m : Option (Nat × Nat)) x =>
    match nextAt s x.1, m with
    | none, _ => m
    | some d, none => some (d, x.1)
    | some d, some (c, e) => if d < c || (d == c && x.1 < e) then some (d, x.1) else some (c, e)) none).map (·.2)

/-- Run every engine to its end, in the order of their cycles. -/
def runEngines : Nat → State → State
  | 0, s => s
  | n + 1, s =>
    match nextEng s with
    | none => s
    | some e => runEngines n (engStep e s)

/-- A device tenant's run ends as the outside says: within its budget or not. -/
def devRuns (late : List Nat) (s : State) : State :=
  s.stw.engs.foldl (fun s x => match x.2.run with
    | none => s
    | some r =>
      if r.ended.isNone && r.tenant < 2 then finishRun x.1 { r with ended := some (if late.contains x.1 then 1 else 0) } s
      else s) s

/-- The headers of a run's OUT windows (R399). -/
def writeHeaders (e : Nat) (s : State) : State :=
  match (getEng s e).run with
  | none => s
  | some r =>
    if r.tenant < 2 then s
    else [4, 5, 6, 7].foldl (fun s k =>
      if (portOf s r.tenant k).isSome then
        storeWrite (windowAddr s r.tenant r.slot k 0) (le 6 s.tick ++ [byteOf (r.ended.getD 1), byteOf r.slot]) s
      else s) s

/-- After the tick each bound port's base moves on by the windows of the slots held (R396). -/
def moveBases (s : State) (t : Nat) : State :=
  let n := (getTen s t).granted
  if n = 0 then s
  else updTen t (fun x => { x with bases := x.bases.zipIdx.map fun b => match portOf s t b.2 with
    | none => b.1
    | some (_, c, z) => (b.1 + n * z) % max 1 (c * 4096) }) s

/-- The engines' part of a tick's end: runs finished, headers written, bases moved, this tick's counts made last tick's. -/
def enginesClose (late : List Nat) (s : State) : State :=
  let s := runEngines 1500000 (devRuns late s)
  (s.stw.engs.map (·.1)).foldl (fun s e => writeHeaders e s) s

/-- The tick's end, after the engine tests. -/
def stwClose (s : State) : State :=
  let s := hostTenants.foldl moveBases s
  updStw (fun x => { x with
    engs := (x.engs.map fun e => (e.1, { e.2 with run := none })).filter (·.2 != {}),
    tenants := x.tenants.map fun t => { t with overLast := t.overs, overs := 0, evtEng := none },
    tested := 0, once := [] }) s

end Sys2Proof.Machine
end

