-- ==== Sys2Proof/Machine/ReadOnly.lean ====
section
/-! DEFINITION. ReadOnly.lean: what a read of a parameter returns (R45, R521 to R524): the active value, or for a read-only
PID the state it stands for. -/
namespace Sys2Proof.Machine

/-- Groups 0x1 and 0x2 (R362, R480). -/
def readTiming (s : State) (pid inst : Nat) : Nat :=
  match pid with
  | 0x1100 => ux 32 s.pwr.tj
  | 0x1101 => s.pwr.vcore
  | 0x1102 => pwrPower s
  | 0x2100 => pllCode s.tm.pll
  | 0x2101 => s.tm.sel.getD 0xFF
  | 0x2102 => ux 32 s.tm.control
  | 0x2103 => ux 32 s.tm.holdVal
  | 0x2104 => measOr s.tm.phaseErr
  | _ => measOr (getRef s (inst - 0x10)).freq

/-- Groups 0x3 to 0x5 (R128, R157, R183); a computed value is computed from the values `v` of the view read (R521). -/
def readLine (s : State) (v : View) (pid inst : Nat) : Nat :=
  let c := lineOf inst
  match pid with
  | 0x3030 => (txMode v c).grid
  | 0x3031 => (txMode v c).dacRate
  | 0x5200 => poolCap s
  | 0x5201 => activeCores s
  | 0x5202 => orMarker (getFec s c).avgIter
  | 0x5203 => orMarker (getFec s c).ber
  | _ => measure s pid inst

/-- Groups 0x9 to 0xB (R282, R310, R336). -/
def readLink (s : State) (pid inst : Nat) : Nat :=
  let w := getWh s (lineOf inst)
  let t := s.dm.time.getD (inst - 1) {}
  match pid with
  | 0x9100 => s.cry.high
  | 0x9101 => s.cry.floor
  | 0xA200 => measOr w.wqf
  | 0xA201 => measOr w.depthEst
  | 0xA202 => w.agc
  | 0xB100 => measOr t.offset
  | 0xB101 => measOr t.delay
  | _ => if s.dm.joinedOnce then s.cfgVersion else s.dm.recVersion

/-- Groups 0xC to 0xE (R383, R418, R440). The guarantee and limit of a device tenant are its number of engines (R403). -/
def readCore (s : State) (pid inst : Nat) : Nat :=
  let v := inst - 0x50
  let t := inst - 0xC0
  match pid with
  | 0xC200 => calCode (calSt s (lineOf inst))
  | 0xC201 => measOr (getConv s v).temp
  | 0xC202 => (getConv s v).spares.length
  | 0xC203 => (getConv s v).margin10
  | 0xD002 | 0xD003 => nlcEngines s (devLine t)
  | 0xD100 => (usableEngs s).length
  | 0xD101 => freePages s
  | 0xD102 => tenState s t
  | 0xD103 => heldCount s t
  | 0xD104 => (getTen s t).grantedLast
  | 0xE100 => s.str.fallowList.length
  | 0xE101 => countPg s (·.poison)
  | _ => countPg s (·.quar.isSome)

/-- Is the PID one whose value the device computes? -/
def computed (pid inst : Nat) : Bool :=
  (pid / 0x100 % 16 != 0 && (findRow pid inst).any (·.ro)) || pid == 0x3030 || pid == 0x3031
    || ((pid == 0xD002 || pid == 0xD003) && inst < 0xC2)

/-- The value a read of a parameter returns in a view. -/
def readIn (s : State) (v : View) (pid inst : Nat) : Bytes :=
  if !computed pid inst then s.par pid inst
  else if pid = 0x6100 then accMapOf s (lineOf inst)
  else
    let g := pid / 0x1000
    le 4 (if g < 3 then readTiming s pid inst
      else if g < 6 then readLine s v pid inst
      else if g < 12 then readLink s pid inst
      else readCore s pid inst)

/-- The value a read of a parameter returns. -/
def readParam (s : State) (pid inst : Nat) : Bytes := readIn s s.params pid inst

end Sys2Proof.Machine
end

