-- ==== Sys2Proof/Machine/Checks.lean ====
section
/-! DEFINITION. Checks.lean: the checks that span parameters or blocks, made at COMMIT, SOLSTICE_PREPARE and each freeze
(R53, R98) on the configuration that will be active at the execution tick. -/
namespace Sys2Proof.Machine

/-- A failed check: its status, and the highest-numbered PID it relates with its instance (R526). -/
structure Failed where
  st : Nat
  pid : Nat
  inst : Nat
deriving DecidableEq, Repr

/-- The DETAIL of a failed check (R526): 0 with NO_RESOURCE, which is neither BAD_PARAM nor block-specific. -/
def Failed.detail (f : Failed) : Nat := if f.st = stNoResource then 0 else f.pid + 65536 * f.inst

/-- Does a set hold one of these PIDs of this instance? -/
def holds (recs : SMap Bytes) (pids : List Nat) (inst : Nat) : Bool :=
  recs.any fun r => pids.contains (r.1 / 256) && r.1 % 256 == inst

/-- A check on the configuration that will be active, with what it answers when it fails. -/
def chk (ok : Bool) (st pid inst : Nat) : Option Failed :=
  if ok then none else some { st := st, pid := pid, inst := inst }

/-- The check of a slot map in itself (R195), made before the others (R224). -/
def checkMap (v : View) (c : Line) : List (Option Failed) := [chk (mapConsistent (v.par 0x6000 c.inst)) 0x1601 0x6000 c.inst]

/-- The other line-transmit checks (R129, R214, R224). -/
def checkLine (v : View) (c : Line) : List (Option Failed) :=
  let i := c.inst
  let client : Option Nat := (List.range 24).foldl (fun (m : Option Nat) j =>
    let map := v.par 0x6000 i
    let x := mapIx map j / 16
    let bad : Bool := ptClient (mapPt map j) && (v.cliType x != mapPt map j || v.cliLine x != c)
    if bad then some (max x (m.getD 0)) else m) none
  [ chk (slotFits v c) 0x1301 0x6000 i,
    chk (v.clientsOk c) 0x1702 0x7001 (0x40 + client.getD 0),
    chk (seqValid .tx (v.par 0x6020 i)) 0x1602 0x6020 i,
    chk (seqValid .rx (v.par 0x6021 i)) 0x1602 0x6021 i ]

/-- The number of candidates a scan is checked with (R140). -/
def scanCount (v : View) (c : Line) : Nat :=
  let step := v.parN 0x4023 c.inst
  ((v.parI 0x4022 c.inst - v.parI 0x4021 c.inst) / (max 1 step : Nat)).toNat + 1 + 2 * step / 50 + 1

/-- The receive checks of a carrier (R154, R161). -/
def checkRx (v : View) (c : Line) : List (Option Failed) :=
  let i := c.inst
  [ chk (v.parI 0x4021 i ≤ v.parI 0x4022 i) stBadParam 0x4022 i,
    chk (v.parN 0x4020 i != 0 || scanCount v c * 40 + 30000 ≤ v.parN 0x4011 i) 0x1401 0x4023 i,
    chk (v.parN 0x4070 i == 0 || nlcNeed v c ≤ v.parN 0x4071 i)
      0x1402 0x4073 i ]

/-- The clients whose lane placement breaks R223. -/
def laneBad (v : View) : List Nat :=
  v.cliOn.filter fun i => !v.placeOk i || v.cliOn.any fun j => i != j && !v.pairOk i j

/-- Is a coefficient value's bank one that will not be active (R298)? A swap that is pending is taken as made. -/
def bankFree (s : State) (inst : Nat) (v : Bytes) : Bool :=
  let x := getChain s (inst - 0xA1)
  byteAt v 0 != (if x.swap.isSome then 1 - x.bank else x.bank)

/-- May the strength of a region change: no page of it is held, zeroising, quarantined or in the merge buffer (R424)? -/
def regionFree (s : State) (r : Nat) : Bool :=
  !(s.stw.pages.any fun g => g.1 / 256 == r && (g.2.owner.isSome || g.2.zero.isSome || g.2.quar.isSome))
    && !(s.str.merge.any fun m => m.page / 256 == r)

/-- Does a Harvest destination name only pages that its tenant holds (R452)? -/
def harvestOk (s : State) (d : Bytes) : Bool :=
  byteAt d 0 != 2 || (List.range (5 * fld d 4 2)).all fun i =>
    (getPg s (fld d 2 2 + i)).owner == some (byteAt d 1)

/-- The checks of tenants (R404): each tenant of which the set holds a PID, then the totals. -/
def checkTenants (s : State) (v : View) (recs : SMap Bytes) : List (Option Failed) :=
  let pids : List Nat := (List.range 11).map (0xD000 + ·) ++ [0xE010]
  let own := hostTenants.filter fun t => holds recs pids (0xC0 + t)
  let last (pid : Nat) (dflt : Nat) : Nat :=
    (hostTenants.filter fun t => v.parN pid (0xC0 + t) != 0).foldl (fun m t => max m (0xC0 + t)) dflt
  (own.map fun t => (tenCheck s v t (holds recs [0xD009] (0xC0 + t))).map fun (f : Nat × Nat) =>
      { st := f.1, pid := f.2, inst := 0xC0 + t })
    ++ [ chk (engGuarFits s v (usableEngs s).length) 0x1D01 0xD002
          (last 0xD002 0xC1),
        chk (pageGuarFits s v) 0x1D01 0xD004 (last 0xD004 0xC1) ]

/-- The first check a set fails on the configuration `v` that will be active with it. -/
def crossCheck (s : State) (v : View) (recs : SMap Bytes) : Option Failed :=
  let both (f : Line → List (Option Failed)) : List (Option Failed) := f .a ++ f .b
  let bad := laneBad v
  let regions := (List.range 128).filter fun r => byteAt (v.par 0xE000 0) r != byteAt (s.par 0xE000 0) r
  (both (checkMap v) ++ both (checkLine v) ++ both (checkRx v)
    ++ [ chk (v.parN 0x4071 1 + v.parN 0x4071 2 ≤ 192) stNoResource 0x4071 2,
        chk (v.parN 0x5002 1 + v.parN 0x5002 2 ≤ 100) 0x1502 0x5002 2,
        chk bad.isEmpty 0x1701 0x7003 (0x40 + bad.foldl max 0) ]
    ++ (recs.map fun r => chk
        (!(r.1 / 256 == 0xA103 || r.1 / 256 == 0xA104) || bankFree s (r.1 % 256) r.2) 0x1A01
        (r.1 / 256) (r.1 % 256))
    ++ checkTenants s v recs
    ++ [ chk (!holds recs [0xE000] 0 || regions.all (regionFree s)) 0x1E04 0xE000 0,
        chk (!holds recs [0xF002] 0 || harvestOk s (v.par 0xF002 0)) 0x1F01 0xF002 0 ]).findSome? id

/-! ## Change class (R46) -/

/-- The higher of two classes. -/
def ChangeClass.max (x y : ChangeClass) : ChangeClass :=
  match x, y with
  | .disruptive, _ | _, .disruptive => .disruptive
  | .line, _ | _, .line => .line
  | _, _ => .local_

/-- Is class `x` above class `y`? -/
def ChangeClass.above (x y : ChangeClass) : Bool := x != y && ChangeClass.max x y == x

/-- The class of one value of a set: a value that equals the one active without the set raises nothing (R46). -/
def recClass (v : View) (r : Nat × Bytes) : ChangeClass :=
  if tableVal v r.1 = r.2 then .local_ else ((findRow (r.1 / 256) (r.1 % 256)).map (·.cls)).getD .local_

/-- The class of a set against the configuration active without it. -/
def setClass (v : View) (recs : SMap Bytes) : ChangeClass :=
  recs.foldl (fun c r => ChangeClass.max c (recClass v r)) .local_

/-- Does a set hold a parameter outside commit (R46)? -/
def setOutside (recs : SMap Bytes) : Bool :=
  recs.any fun r => ((findRow (r.1 / 256) (r.1 % 256)).map (·.cls)) == some .outside

/-- Does entry `x` execute before entry `y`: by tick, rescheduled ones first in order of their at-tick, then by
acceptance (R48, R54, R57)? -/
def Entry.before (x y : Entry) : Bool :=
  x.execTick < y.execTick || (x.execTick == y.execTick &&
    (if x.resched && y.resched then x.atTick < y.atTick || (x.atTick == y.atTick && x.acceptNo ≤ y.acceptNo)
     else if x.resched != y.resched then x.resched else x.acceptNo ≤ y.acceptNo))

/-- Put an entry into its place of an ordered list. -/
def putInOrder (x : Entry) : List Entry → List Entry
  | [] => [x]
  | y :: ys => if x.before y then x :: y :: ys else y :: putInOrder x ys

/-- Entries in the order in which they execute. -/
def execOrder (es : List Entry) : List Entry := es.foldr putInOrder []

/-- The configuration active at tick `t` with the scheduled entries that `keep` admits. -/
def viewAt (s : State) (t : Nat) (keep : Entry → Bool) : View :=
  (execOrder (s.cmd.entries.filter fun e => e.execTick ≤ t && keep e)).foldl (fun v e => tableApply v (entryRecs s e))
    s.params

/-- The tick and class a set gets with this at-tick (R46, R50): the class is taken at the tick it would execute, first as
a local change; a set that is line-coordinated there moves to the tick of its class. -/
def placeSet (s : State) (p : Packet) (recs : SMap Bytes) : Nat × ChangeClass :=
  let t (cls : ChangeClass) : Nat := match placeAt cls p s.tick with
    | .ok x => x.1
    | .error _ => p.atTick.toNat
  let c := setClass (viewAt s (t .local_) fun _ => true) recs
  if c != .line then (t c, c)
  else (t .line, ChangeClass.max .line (setClass (viewAt s (t .line) fun _ => true) recs))

end Sys2Proof.Machine
end

