-- ==== Sys2Proof/Machine/Timeline.lean ====
section
/-! DEFINITION. Timeline.lean: the timed-action table at work: what a commit changes at once, freezing (R53, R83, R125),
execution (R48, R55, R62), timescale steps (R57, R58). -/
namespace Sys2Proof.Machine

/-! ## Committing a set (R41, R46, R62) -/

/-- What the present tick has counted so far of a selection (R49, R450). -/
def selNow (s : State) (sel : Bytes) : Nat := if byteAt sel 1 < 128 then 0 else SMap.get 0 s.obs.raised (byteAt sel 0)

/-- A commit of OBS_SEL restarts the counters whose selection changes (R450). -/
def selChanged (old new : Bytes) (s : State) : State :=
  (List.range 64).foldl (fun s k =>
    if slice old (2 * k) 2 = slice new (2 * k) 2 then s
    else restartCounter (1856 + k) (selNow s (slice new (2 * k) 2)) s) s

/-- A commit of OBS_HARVEST_DEST restarts the ring when its value differs or Harvest is stopped (R452). -/
def harvestRestart (changed : Bool) (s : State) : State :=
  if changed || s.obs.harvLost then
    { s with
      obs := { s.obs with harvTail := 0, harvLost := false, harvWriting := false, harvRec := [] },
      sys := { s.sys with harvHead := 0 } }
  else s

/-- The applied front-end value that follows a committed one (R138). -/
def feCommit (pid inst : Nat) (s : State) : State :=
  let c := lineOf (inst / 16)
  match (feSettings c).find? fun x => x.1 == pid && x.2.2 == inst with
  | some x => updRx c (fun r => { r with fe := SMap.put 0 r.fe (pkey x.2.1 inst) (s.parI pid inst) }) s
  | none => s

/-- What a committed value sets going at once, beside being the value in force: `old` is the value before. -/
def commitHook (old : Bytes) (r : Nat × Bytes) (s : State) : State :=
  let inst := r.1 % 256
  let c := lineOf inst
  let when_ (f : State → State) : State := if old = r.2 then s else f s
  match r.1 / 256 with
  | 0x2000 => when_ (refTypeChanged (inst - 0x10))
  | 0x2010 => when_ (ppsEnableChanged (inst - 0x20))
  | 0x4030 => if s.parN 0x4030 inst = 0 then reloadFe c s else s
  | 0x4031 => feCommit 0x4031 inst s
  | 0x4032 => feCommit 0x4032 inst s
  | 0x4033 => feCommit 0x4033 inst s
  | 0x6020 => when_ (seqLoaded c .tx)
  | 0xA000 => whTxCheck c s
  | 0xA005 => when_ (fun s => unsettle (2 + c.ix) 36 (unsettle c.ix 36 s))
  | 0xA100 => when_ (unsettle (inst - 0xA1) 36)
  | 0xA101 => when_ (unsettle (inst - 0xA1) 35)
  | 0xA102 => when_ (unsettle (inst - 0xA1) 33)
  | 0xA103 => loadCoef (inst - 0xA1) 1 r.2 s
  | 0xA104 => loadCoef (inst - 0xA1) 2 r.2 s
  | 0xB010 => when_ mateEnableChanged
  | 0xB011 => when_ mateSeniorChanged
  | 0xB012 => (List.range 12).foldl setSquelch s
  | 0xD000 => tenClassChanged (inst - 0xC0) s
  | 0xD00A => tenPortsChanged (inst - 0xC0) s
  | 0xE000 => reencode old r.2 s
  | 0xF000 => selChanged old r.2 s
  | 0xF002 => harvestRestart (old != r.2) s
  | _ => s

/-- Does a set change one of these PIDs of this instance? -/
def changes (old : View) (recs : SMap Bytes) (pids : List Nat) (inst : Nat) : Bool :=
  recs.any fun r => pids.contains (r.1 / 256) && r.1 % 256 == inst && tableVal old r.1 != r.2

/-- The declared disruptive sequences that a set starts (R67, R156): on a running transmitter, on a receiver, on clients. The
clients of the carrier have no valid data from this window on. -/
def disruptive (old : View) (recs : SMap Bytes) (s : State) : State :=
  let s := bothLines.foldl (fun s c =>
    let rate := changes old recs [0x3010] c.inst
    let s := if changes old recs [0x3010, 0x3015, 0x3016] c.inst && carrierRuns s c then clientsFault c (beginDisrupt c rate s) else s
    let s := if rate && calSt s c != .off then calRetune c true s else s
    let s := if changes old recs [0x4000, 0x4026] c.inst then clientsFault c (restartAcq c s) else s
    if changes old recs [0x4000] c.inst && calSt s c != .off then calRetune c false s else s) s
  (List.range 12).foldl (fun s i =>
    if changes old recs [0x7000, 0x7001, 0x7002, 0x7003] (0x40 + i) then clientDisrupt i s else s) s

/-- Apply a set: all of its values in one commit window (R62); the transmitters' outputs follow once what the set disrupts is
squelched (R67, R122). -/
def applySet (recs : SMap Bytes) (s : State) : State :=
  let old := s.params
  let s := recs.foldl (fun s r => commitHook (tableVal old r.1) r s)
    (lagCommit recs { s with params := tableApply s.params recs })
  let s := disruptive old recs s
  bothLines.foldl (fun s c => if holds recs [0x3000] c.inst then setOutput c s else s) s

/-! ## Freezing (R53) -/

/-- The freeze tick of an entry. -/
def Entry.freezeTick (e : Entry) : Nat := e.execTick - (if e.cls = .line then 256 else 4)

/-- The configuration active at an entry's tick without the entry. -/
def viewWithout (s : State) (e : Entry) : View := viewAt s e.execTick (· != e)

/-- The parameters a carrier announces (R123). -/
def announcedPids : List Nat := [0x3011, 0x3012, 0x3013, 0x3014, 0x5000, 0x6000, 0x6020]

/-- Is a line-coordinated entry one for carrier `c`: does it switch its keys, or change a value the carrier announces, against
the values in force or against those that the entries before its tick leave? DESIGN CHOICE: an entry whose values are all unchanged
at its freeze announces nothing (R527; log entry 190). -/
def lineFor (s : State) (e : Entry) (c : Line) : Bool :=
  e.cls == .line && (entryMask c e != 0 || changes s.params (entryRecs s e) announcedPids c.inst
    || changes (viewWithout s e) (entryRecs s e) announcedPids c.inst)

/-- Is an entry a transmit disruptive entry for carrier `c` (R125)? -/
def disruptFor (s : State) (e : Entry) (c : Line) : Bool :=
  e.cls == .disruptive && changes (viewWithout s e) (entryRecs s e) [0x3010, 0x3015, 0x3016] c.inst

/-- Does an entry collide on carrier `c` with one that is frozen already (R125)? The device's own switches collide like any
(R265). -/
def clashOn (s : State) (e : Entry) (c : Line) : Bool :=
  let near (l d : Entry) : Bool := l.execTick - 256 ≤ d.execTick && d.execTick ≤ l.execTick
  if lineFor s e c then s.cmd.entries.any fun d => d.frozen && d.freezeTick != s.tick && near e d && disruptFor s d c
  else disruptFor s e c && s.cmd.entries.any fun l => l.frozen && near l e && lineFor s l c

/-- The refusal of an entry at its freeze, with its DETAIL: the config version (R83), the class (R46), the checks across
blocks, a missing next key (R267). -/
def freezeCheck (s : State) (e : Entry) : Option (Nat × Nat) :=
  let recs := entryRecs s e
  if e.p.reqCfgVer ≠ 0 ∧ e.p.reqCfgVer.toNat ≠ s.cfgVersion then some (stVersionSkew, 0)
  else if (setClass (viewWithout s e) recs).above e.cls then some (stWrongState, 0)
  else
    match crossCheck s (viewAt s e.execTick fun _ => true) recs with
    | some f => some (f.st, f.detail)
    | none =>
      if bothLines.all fun c => switchReady s c (entryMask c e) then none else some (0x1803, 0)

/-- The refusal of any entry at its freeze: of the device's own only the key agreement's switch can be refused, for want of a
next key (R267, R277). -/
def freezeRefusal (s : State) (e : Entry) : Option (Nat × Nat) :=
  match e.internal, e.action with
  | true, .keSwitch c m => if switchReady s c m then none else some (0x1803, 0)
  | true, _ => none
  | false, _ => freezeCheck s e

/-- Take an entry out of the table; the handle of its Solstice is freed (R61). -/
def removeEntry (e : Entry) (s : State) : State :=
  let s := { s with cmd := { s.cmd with entries := s.cmd.entries.erase e } }
  match e.action with
  | .solstice h => freeSol h s
  | _ => s

/-- An entry leaves the table with a status; one of the device's own has no completion. -/
def dropEntry (e : Entry) (st d : Nat) (s : State) : State :=
  entryCpl e st d 0 (removeEntry e s)

/-- What becomes of an entry that R125 refuses: it completes with ANNOUNCE_CLASH; an automatic switch is scheduled again for
the next multiframe boundary (R265); a switch of the key agreement's is dropped. -/
def clashEntry (e : Entry) (s : State) : State :=
  match e.internal, e.action with
  | true, .autoSwitch c m =>
    autoSet c m { s with cmd := { s.cmd with entries := s.cmd.entries.map fun x =>
      if x = e then { x with atTick := x.execTick + 256, execTick := x.execTick + 256 } else x } }
  | _, _ => dropEntry e 0x1302 0 s

/-- An entry that collides on the carriers named: ENTRY_CLASH of each, and what becomes of the entry (R125). -/
def refuseClash (e : Entry) (cs : List Line) (s : State) : State :=
  clashEntry e (cs.foldl (fun s c => raise (lineEvt 0x30 c 7) (bump (192 + 9 * c.ix + 7) s)) s)

/-- The disruptive entries of carrier `c` that froze in this very tick and collide with the line-coordinated entry `e`, which
freezes now, are the ones refused (R125): an automatic switch may be scheduled at its own freeze tick (R265). -/
def refuseLate (e : Entry) (c : Line) (s : State) : State :=
  (s.cmd.entries.filter fun d =>
    d.frozen && d.freezeTick == s.tick && e.execTick ≤ d.execTick + 256 && d.execTick ≤ e.execTick && disruptFor s d c).foldl
      (fun s d => refuseClash d [c] s) s

/-- Freeze an entry, or remove it with the failing status; from a line-coordinated entry's freeze the change is announced
(R53, R125, R527). DESIGN CHOICE: an entry that both fails its revalidation and collides completes with the revalidation's
status and raises no ENTRY_CLASH; the specification does not say which comes first. -/
def freezeEntry (e : Entry) (s : State) : State :=
  match freezeRefusal s e, bothLines.filter (clashOn s e) with
  | some (st, d), _ => dropEntry e st d (countSlotFit st d s)
  | none, c :: cs =>
    refuseClash e (c :: cs) s
  | none, [] =>
    let lines := bothLines.filter (lineFor s e)
    let s := lines.foldl (fun s c => refuseLate e c s) s
    let s := { s with cmd := { s.cmd with
      entries := s.cmd.entries.map fun x => if x = e then { x with frozen := true } else x } }
    let s := match e.action with
      | .solstice h => setSol h .frozen s
      | _ => s
    lines.foldl (fun s c => announce c e.execTick s) s

/-- The entries whose freeze is due, line-coordinated ones first: where two collide, the disruptive one is refused
(R125). -/
def freezesDue (s : State) : List Entry :=
  let due := execOrder (s.cmd.entries.filter fun e => !e.frozen && e.freezeTick ≤ s.tick)
  due.filter (·.cls == .line) ++ due.filter (·.cls != .line)

/-- ENTRY_FREEZE: the first entry whose freeze is due. -/
def freezeOne (s : State) : State :=
  match freezesDue s with
  | [] => s
  | e :: _ => freezeEntry e s

/-- Freeze every entry that is due. -/
def freezeAll (s : State) : State := (freezesDue s).foldl (fun s e => freezeEntry e s) s

/-! ## Execution -/

/-- What a timed command does in the commit window of its tick. -/
def timedEffect (op : Nat) (p : Packet) (s : State) : Reply × State :=
  let b := paramBytes p
  match op with
  | 0x0206 =>
    (.ok, ([0, 1].filter (bit (byteAt b 0))).foldl (fun s o => ppsAlignNow o s) s)
  | 0x0401 => (.ok, (pktLines p).foldl (fun s c => clientsFault c (acquireNow c (byteAt b 0 == 1) s)) s)
  | 0x4401 => (.wait, captureOpen p s)
  | 0x0802 => (.ok, switchHalves (pktLine p) (fld b 0 4) s)
  | 0x0803 => (.ok, (pktLines p).foldl (fun s c => zeroiseNow c (fld b 0 4) (byteAt b 4) s) s)
  | 0x0F00 => (.ok, clearCounters (fld b 0 2) (fld b 2 2) s)
  | 0x0F01 => if byteAt (s.par 0xF002 0) 0 = 0 then (.st stWrongState, s) else (.ok, takeHarvest s)
  | _ => (.ok, s)

/-- What an entry does when its tick comes. -/
def runAction (e : Entry) (recs : SMap Bytes) (s : State) : Reply × State :=
  match e.action with
  | .commit _ | .solstice _ => (.ok, applySet recs s)
  | .autoSwitch c m | .keSwitch c m => (.ok, switchHalves c m s)
  | .cmd => timedEffect e.opcode e.p s

/-- A timed command that has executed and waits for its data (RX_CAPTURE, R162). -/
def openEntry (e : Entry) (s : State) : State :=
  { s with cmd := { s.cmd with opens := s.cmd.opens ++ [{
    p := e.p, opcode := e.opcode, crc := e.crc, acceptTick := e.acceptTick, deadline := s.elapsed + 40,
    timed := some (s.tick, e.lateExec) }] } }

/-- Execute a frozen entry: it leaves the table, acts, and its completion follows (R48, R55). -/
def runEntry (e : Entry) (s : State) : State :=
  let recs := entryRecs s e
  let s := removeEntry e s
  let s := if e.lateExec then bump 26 s else s
  let (r, s) := runAction e recs s
  if r = .wait ∧ !e.orphan then openEntry e s else entryReply e s.tick r s

/-- Execute an entry that is due, freezing it first where a step has carried the tick past its freeze. -/
def executeEntry (e : Entry) (s : State) : State :=
  if e.frozen then runEntry e s
  else
    let s := freezeEntry e s
    let f := { e with frozen := true }
    if s.cmd.entries.contains f then runEntry f s else s

/-! ## Timescale steps (R57, R58) -/

/-- One entry that a forward step skips: aborted, late, or placed 8 ticks after the step. -/
def skipEntry (s : State) (e : Entry) : State :=
  let sol := match e.action with
    | .solstice _ => true
    | _ => false
  if e.internal then rearmHigh (removeEntry e s)
  else if e.cls == .line || sol then entryCpl e stAborted 0 0 (removeEntry e s)
  else if e.p.latePolicy then
    { s with cmd := { s.cmd with entries := s.cmd.entries.map fun x =>
      if x = e then { x with execTick := s.tick + 8, resched := true, lateExec := true } else x } }
  else entryCpl e stLate 0 0 (removeEntry e s)

/-- A forward step from tick `t0` skips the entries of the ticks that are no more (R57). -/
def skipEntries (t0 : Nat) (s : State) : State :=
  let gone := execOrder (s.cmd.entries.filter fun e => t0 ≤ e.execTick && e.execTick < s.tick)
  let n := (gone.filter (·.tabled)).length
  let s := bothLines.foldl (fun s c =>
    if ((s.tx.get c).annT.any fun t => t < s.tick) then updTx c (fun x => { x with annT := none }) s else s) s
  let s := gone.foldl skipEntry s
  if n = 0 then s else raise 0x0B (bumpBy 27 n s)

/-- TM_STEP executes (R354): its completion gives the tick at which it was asked. -/
def stepNow (e : Entry) (s : State) : State :=
  let t0 := s.tick
  let d := stepDelta e.p
  let s := removeEntry e s
  let s := if e.lateExec then bump 26 s else s
  if stepOut t0 d then entryReply e t0 (.st stBadParam) s
  else
    let s := whStep (stepTimescale d s)
    let s := if d < 0 then zeroiseStep s else skipEntries t0 s
    entryReply e t0 .ok s

/-- The entries due in this tick, in the order in which they execute. -/
def entriesDue (s : State) : List Entry := execOrder (s.cmd.entries.filter (·.execTick ≤ s.tick))

/-- Is this entry a TM_STEP? -/
def Entry.isStep (e : Entry) : Bool := e.action == .cmd && e.opcode == 0x0203

/-- The timed actions that are due, the timescale steps of the tick first: a tick that a step renumbers does not come
(R57). -/
def nextDue (s : State) : Option Entry :=
  let due := entriesDue s
  (due.find? (·.isStep)).orElse fun _ => due.head?

/-- Execute one entry. -/
def executeOne (s : State) : State :=
  match nextDue s with
  | none => s
  | some e => if e.isStep then stepNow e s else executeEntry e s

/-- Execute the timescale steps that are due; an entry that a step makes due is left. -/
def stepsDue : Nat → State → State
  | 0, s => s
  | n + 1, s => if (nextDue s).any (·.isStep) then stepsDue n (executeOne s) else s

/-- Execute every entry that is due. -/
def executeDue : Nat → State → State
  | 0, s => s
  | n + 1, s => if (nextDue s).isSome then executeDue n (executeOne s) else s

/-- The mode switches, slot maps and keys announced for this tick are applied (R527). -/
def announcedAll (s : State) : State := announced .b (announced .a s)

/-- Every due timescale step. -/
def stepAll (s : State) : State := stepsDue s.cmd.entries.length s

/-- Every due timed action. -/
def executeAll (s : State) : State := announcedAll (executeDue s.cmd.entries.length s)

/-- ENTRY_FREEZE. -/
def execEntryFreeze (s : State) : Out := within freezeOne s

/-- TIMED_ACTION_EXECUTE. -/
def execTimedActionExecute (s : State) : Out := within executeOne s

/-- Is the entry an automatic key switch of carrier `c`? -/
def isAuto (c : Line) (e : Entry) : Bool :=
  match e.action with
  | .autoSwitch d _ => d == c
  | _ => false

/-- AUTOMATIC_SWITCH of a carrier (R265): the switch whose condition has arisen is scheduled; a scheduled one is announced
from its freeze tick and switches the keys at its own. -/
def execAutomaticSwitch (c : Line) (s : State) : Out :=
  within (fun s =>
    let s := autoSchedule c s
    let s := match (freezesDue s).find? (isAuto c) with
      | some e => freezeEntry e s
      | none => s
    match (entriesDue s).find? (isAuto c) with
    | some e => executeEntry e s
    | none => s) s

end Sys2Proof.Machine
end

