-- ==== Sys2Proof/Machine/System.lean ====
section
/-! DEFINITION. System.lean: the system group (0x0, R96 to R100): parameters, commits, Solstices, the timed-action list,
firmware; deadlines (R91), failed host reads (R82) and firmware restarts (R32). -/
namespace Sys2Proof.Machine

/-! ## Identity and state (R96) -/

/-- NOP. -/
def infoNop : CmdInfo := { op := 0, timed := true, session := false }
/-- IDENTIFY. -/
def infoIdentify : CmdInfo := { op := 0x0001, session := false, len := .fixed 16, desc := true }
/-- STATE_GET. -/
def infoStateGet : CmdInfo := { op := 0x0002, session := false }
/-- SESSION_OPEN. -/
def infoSessionOpen : CmdInfo := { op := 0x0003, session := false }
/-- SESSION_CLOSE. -/
def infoSessionClose : CmdInfo := { op := 0x0004 }
/-- EXPERT_ENABLE. -/
def infoExpertEnable : CmdInfo := { op := 0x0008, len := .fixed 1 }
/-- PARAM_GET. -/
def infoParamGet : CmdInfo := { op := 0x0010, len := .range 24 4096 4, desc := true }
/-- PARAM_SET: its length is checked record by record (R98). -/
def infoParamSet : CmdInfo := { op := 0x0011, len := .range 0 4096 1 }
/-- COMMIT. -/
def infoCommit : CmdInfo := { op := 0x0012, timed := true }
/-- SOLSTICE_PREPARE. -/
def infoSolsticePrepare : CmdInfo := { op := 0x0013 }
/-- SOLSTICE_CANCEL. -/
def infoSolsticeCancel : CmdInfo := { op := 0x0015, len := .fixed 1 }
/-- TIMED_LIST. -/
def infoTimedList : CmdInfo := { op := 0x0018, len := .fixed 24, desc := true }
/-- FW_UPDATE. -/
def infoFwUpdate : CmdInfo := { op := 0x0020, long := true, len := .fixed 17 }
/-- FW_ACTIVATE. -/
def infoFwActivate : CmdInfo := { op := 0x0021, long := true, len := .fixed 1 }
/-- FLASH_STATUS. -/
def infoFlashStatus : CmdInfo := { op := 0x0030, session := false, len := .fixed 16, desc := true }

/-- The 48 bytes of IDENTIFY. -/
def identifyBytes (s : State) : Bytes :=
  le 4 0x4802 ++ le 2 Config.siliconRev.toNat ++ zeros 2 ++ le 8 s.boot.curVersion ++ le 16 Config.dieId.toNat
    ++ le 4 s.boot.curSecVersion ++ le 4 s.cfgVersion ++ zeros 8

/-- The inline result of STATE_GET for queue `q`; the STATE_GET itself is accepted and not yet completed. -/
def stateWord (s : State) (q : Nat) : Nat :=
  let x := getSess s q
  s.pwr.state + 256 * (sysState s % 256) + 65536 * ((inFlight s + 1) % 65536) + 2 ^ 32 * (timedUsed s % 65536)
    + 2 ^ 48 * (if x.isSome then q else 0xF) + 2 ^ 52 * b2n (x.any (·.expert))

/-! ## Sessions (R87 to R89) -/

/-! ## Parameters (R97, R98) -/

/-- A length padded to a multiple of 8. -/
def pad8 (n : Nat) : Nat := (n + 7) / 8 * 8

/-- A value record (R97). -/
def valueRecord (pid inst : Nat) (v : Bytes) : Bytes :=
  le 2 pid ++ [byteOf inst, 0] ++ le 2 v.length ++ [0, 0] ++ padTo (pad8 v.length) v

/-- Has queue `q`'s session expert access? -/
def expertOf (s : State) (q : Nat) : Bool := (getSess s q).any (·.expert)

/-- A refusal of step 8 at an offset. -/
def at8 (st off : Nat) : Refuse := { step := 8, st := st, detail := off }

/-- Checks 2 and 4 of R98 on one entry of PARAM_GET at `off`, its reserved byte with them. -/
def checkEntry (expert : Bool) (b : Bytes) (off : Nat) : Option Refuse :=
  match findRow (fld b off 2) (byteAt b (off + 2)) with
  | none => some (at8 stBadParam off)
  | some r => firstOf [need (byteAt b (off + 3) == 0) (at8 stBadParam off), need (!r.expert || expert) (at8 stWrongState off)]

/-- The offsets of PARAM_GET's entries. -/
def entryOffs (b : Bytes) : List Nat := (List.range ((b.length - 20) / 4)).map fun i => 20 + 4 * i

/-- The value that PARAM_GET returns: active, or in the session's open shadow (R96). -/
def viewValue (s : State) (q view pid inst : Nat) : Bytes :=
  let shadow : SMap Bytes := if view = 1 then ((getSess s q).map (·.shadow)).getD [] else []
  (SMap.find shadow (pkey pid inst)).getD (readIn s (tableApply s.params shadow) pid inst)

/-- The checks of one record of PARAM_SET at `off`, in order (R98). -/
def checkRecord (expert locked : Bool) (b : Bytes) (off : Nat) : Option Refuse :=
  let inst := byteAt b (off + 2)
  let n := fld b (off + 4) 2
  let v := slice b (off + 8) n
  if b.length < off + 8 ∨ b.length < off + 8 + pad8 n then some (at8 stBadLength off)
  else
    match findRow (fld b off 2) inst with
    | none => some (at8 stBadParam off)
    | some r =>
      firstOf [need (r.len n) (at8 stBadParam off), need (!r.expert || expert) (at8 stWrongState off),
        need (!r.ro && r.cls != .outside) (at8 stBadParam off), need (!(r.rwl && locked)) (at8 stLocked off),
        need (r.ok inst v && byteAt b (off + 3) == 0 && fld b (off + 6) 2 == 0 && rsv b (off + 8 + n) (off + 8 + pad8 n))
          (at8 stBadParam off),
        need (!r.expertVal v || expert) (at8 stWrongState off)]

/-- The checks of every record from `off`; the fuel is the number of records that can follow. -/
def checkRecords (expert locked : Bool) (b : Bytes) : Nat → Nat → Option Refuse
  | 0, _ => none
  | k + 1, off =>
    if off ≠ 0 ∧ off = b.length then none
    else
      match checkRecord expert locked b off with
      | some r => some r
      | none => checkRecords expert locked b k (off + 8 + pad8 (fld b (off + 4) 2))

/-- Enter the records into a shadow (R44). -/
def enterRecords (b : Bytes) : Nat → Nat → SMap Bytes → SMap Bytes
  | 0, _, m => m
  | k + 1, off, m =>
    if b.length ≤ off then m
    else
      let n := fld b (off + 4) 2
      enterRecords b k (off + 8 + pad8 n) (SMap.ins (pkey (fld b off 2) (byteAt b (off + 2))) (slice b (off + 8) n) m)

/-! ## Commits and Solstices (R45, R46, R60, R61) -/

/-- The open shadow of queue `q`'s session. -/
def shadowOf (s : State) (q : Nat) : SMap Bytes := ((getSess s q).map (·.shadow)).getD []

/-- Empty the open shadow. -/
def clearShadow (q : Nat) (s : State) : State := setSess q ((getSess s q).map fun x => { x with shadow := [] }) s

/-- The refusal of a set that is being sealed: a parameter outside commit (R46), or a failed check across blocks. -/
def checkSet (s : State) (v : View) (recs : SMap Bytes) : Option Refuse :=
  if setOutside recs then some (at8 stBadParam 0)
  else (crossCheck s v recs).map fun f => at8 f.st f.detail

/-- The code of a class in SOLSTICE_PREPARE's result. -/
def classCode : ChangeClass → Nat
  | .line => 1
  | .disruptive => 2
  | _ => 0

/-- The lowest free handle. -/
def freeHandle (s : State) : Nat := (((List.range 8).map (· + 1)).find? fun h => (findSol s h).isNone).getD 0

/-- The entry of an armed Solstice. -/
def solEntry (s : State) (h : Nat) : Option Entry := s.cmd.entries.find? fun e => e.action == .solstice h

/-- Cancel an entry that is not frozen: it completes ABORTED, and with it a Solstice ends (R54, R61). -/
def cancelEntry (e : Entry) (s : State) : State := entryCpl e stAborted 0 0 (removeEntry e s)

/-! ## The timed-action list (R54) -/

/-- A record of TIMED_LIST (R96). -/
def entryRecord (e : Entry) : Bytes :=
  [byteOf e.p.q.val, byteOf (b2n e.frozen)] ++ le 2 e.p.tag.toNat ++ le 2 e.p.seq.toNat ++ le 2 e.opcode ++ le 8 e.execTick

/-! ## Firmware and flash (R96, R99, R100) -/

/-- The slot that the running firmware was not started from. -/
def inactiveSlot (s : State) : Nat := 1 - (if s.boot.source = 1 then s.boot.slot else (bootRecord s).getD 0)

/-- Change a firmware slot's entry. -/
def updSlot (i : Nat) (x : FwSlot) (s : State) : State := { s with flash := { s.flash with slots := s.flash.slots.set i x } }

/-- A chunk is taken (R99): the one at offset 0 opens the next sequence and marks the slot. -/
def chunkTaken (q off n : Nat) (s : State) : State :=
  let s := if off = 0 then
      updSlot (inactiveSlot s) { st := .writing } { s with flash := { s.flash with updateSeq := s.flash.updateSeq + 1 } }
    else s
  { s with flash := { s.flash with updateBy := some q, updateNext := off + n } }

/-- The flash operation of a chunk, for the sequence that is open. -/
def chunkOp (p : Packet) (off last : Nat) (chunk : Bytes) (s : State) : FlashOp :=
  { kind := .fwChunk, owner := some (packetKey p), addr := slotAddr (inactiveSlot s) + off, data := chunk, aux := last,
    aux2 := s.flash.updateSeq }

/-- The state of a firmware slot in FLASH_STATUS; a slot whose sequence has ended is invalid (R88, R99). -/
def slotCode (s : State) (x : FwSlot) : Nat :=
  match x.st with
  | .erased => 0
  | .valid => 1
  | .invalid => 2
  | .writing => if s.flash.updateBy.isSome then 3 else 2

/-- The 64 bytes of FLASH_STATUS. -/
def flashStatusBytes (s : State) : Bytes :=
  let slot (i : Nat) : FwSlot := s.flash.slots.getD i {}
  let ver (i : Nat) : Nat := if (slot i).st = .valid then (slot i).fwVersion else 0
  let sec (i : Nat) : Nat := if (slot i).st = .valid then (slot i).secVersion else 0
  let cal (i : Nat) : Option Nat := calSeq (calSlot s i)
  let dom := match domBest s with
    | some (_, _, v, _) => v
    | none => 0
  [byteOf (slotCode s (slot 0)), byteOf (slotCode s (slot 1)), byteOf ((bootRecord s).getD 0xFF), 0] ++ le 8 (ver 0)
    ++ le 8 (ver 1) ++ le 4 (sec 0) ++ le 4 (sec 1) ++ le 4 ((cal 0).getD 0) ++ le 4 ((cal 1).getD 0)
    ++ [byteOf (b2n (cal 0).isSome + 2 * b2n (cal 1).isSome), 0] ++ le 2 s.str.fallowList.length
    ++ le 4 (((recBest s 0x2000 0x3000).map (·.2.1)).getD 0) ++ le 4 dom ++ le 2 s.flash.lastErr
    ++ [byteOf s.flash.ops.length, 0] ++ le 8 s.flash.lastErrTick ++ zeros 4

/-! ## Firmware restarts (R32, R56, R100) -/

/-- An exchange ends without a message: at its command's deadline (R91) or a restart. -/
def keCut (st : Nat) (k : CmdKey) (s : State) : State :=
  bothLines.foldl (fun s c => if ((getExch s c).any fun x => x.owner == k) then keEnd c st s else s) s

/-- Every chain that still runs is asked to abort. -/
def chainsAbort (s : State) : State := (List.range 16).foldl (fun s n => dmaAbort n stAborted s) s

/-- Does a command wait for the boot record that FW_ACTIVATE with "when" = 1 has written (R100)? -/
def activating (s : State) (k : CmdKey) : Bool :=
  s.flash.ops.any fun o => o.kind == .bootRecord && o.aux2 == 1 && o.owner == some k

/-- The firmware restarts (R32): sessions end, accepted commands are completed with ABORTED, but for the one `keep`, an
FW_ACTIVATE under way and timed commands that have executed and wait for their data; the blocks drop what those commands had
under way. -/
def restartFirmware (keep : Option CmdKey) (s : State) : State :=
  let keep := keep.orElse fun _ => s.sys.fwActivate
  let s := bump 28 { s with sys := { s.sys with
    fwRunning := false, fwRestarting := true, fwActivate := keep, restarts := s.sys.restarts + 1 } }
  let s := (List.range 9).foldl (fun s q => loseSession q s) s
  let gone := s.cmd.opens.filter fun o =>
    o.timed.isNone && keep != some (packetKey o.p) && !activating s (packetKey o.p)
  let s := gone.foldl (fun s o => finish (packetKey o.p) (.st stAborted) (keCut stAborted (packetKey o.p) s)) s
  let s := s.dm.binds.foldl (fun s b => decide_ 0x0B08 b.crc b.p (cplOf s 0x0B08 b.p stAborted 0 0) false s)
    { s with dm := { s.dm with binds := [] } }
  let s := { s with
    cry := { s.cry with
      installs := s.cry.installs.filter (·.owner.isNone), gcmTest := [], pk := s.cry.pk.filter (·.owner.isNone) },
    wh := { s.wh with caps := [] },
    pwr := { s.pwr with gates := s.pwr.gates.filter (·.owner.isNone), pmb := [] },
    fec := { s.fec with tests := [] } }
  pwrRestart (stwRestart (calRestart (chainsAbort (updMate (fun m => { m with
    switch := m.switch.map fun w => { w with owner := none } }) s))))

/-- Write every completion that can be written of those held. -/
def writeAllHeld (s : State) : State := s.cmd.held.foldl (fun s h => writeHeld h.q s) s

/-- The firmware that FW_ACTIVATE started is the one that runs. -/
def firmwareSwitched (s : State) : State :=
  let i := (bootRecord s).getD 0
  let img := slotImage s i
  updBoot (fun b => { b with
    source := 1, slot := i, curVersion := fld img 8 8, curSecVersion := fld img 4 4,
    pubKey := slice img (64 + fld img 16 4) 97 }) s

/-- FW_RESTART_DONE: the firmware runs again; completions held are written. -/
def restartDone (s : State) : State :=
  if !s.sys.fwRestarting then s
  else
    let k := s.sys.fwActivate
    let s := if k.isSome then firmwareSwitched s else s
    let s := writeAllHeld { s with sys := { s.sys with fwRunning := true, fwRestarting := false, fwActivate := none } }
    raise 0x02 (finishOpt k .ok s)

/-- FLASH_FAIL. -/
def stFlashFail : Nat := 0x1001

/-- The check of the image in a slot when its last chunk has been written: OK, AUTH_FAIL or FW_ROLLBACK (R93, R99). -/
def imageVerdict (s : State) (i : Nat) : Nat :=
  let e := fwSlotCheck s i
  if e = 0 then (if fld (slotImage s i) 4 4 < s.boot.curSecVersion then 0x1002 else 0)
  else if e = 6 then 0x1002 else stAuthFail

/-- The slot a chunk is written to. -/
def chunkSlot (o : FlashOp) : Nat := if o.addr < slotAddr 1 then 0 else 1

/-- A chunk's sequence ends with its slot as `x`; one that a newer sequence has followed leaves that one open and its slot as
marked (R99). -/
def sequenceEnds (o : FlashOp) (x : FwSlot) (s : State) : State :=
  if o.aux2 = s.flash.updateSeq then updSlot (chunkSlot o) x { s with flash := { s.flash with updateBy := none } } else s

/-- A chunk goes to flash when its turn has come: the one at offset 0 erases the slot first. -/
def chunkWrite (o : FlashOp) (s : State) : State :=
  let s := if o.addr = slotAddr (chunkSlot o) then flashErase o.addr 0x400000 s else s
  flashProgram o.addr o.data s

/-- The last chunk is in flash: the image is read back and checked, the sequence ends, and a slot that passes is valid. -/
def lastChunk (o : FlashOp) (s : State) : State :=
  let i := chunkSlot o
  let open_ := (o.owner.bind (openCmd s)).isSome
  let st := imageVerdict s i
  let img := slotImage s i
  let x : FwSlot := if st = 0 && open_ then { st := .valid, fwVersion := fld img 8 8, secVersion := fld img 4 4 }
    else { st := .invalid }
  finishOpt o.owner (.st st) (flashEnded st (sequenceEnds o x s))

/-- A flash operation of firmware or boot record ends (R99, R100). -/
def flashDone (ok : Bool) (s : State) : State :=
  match s.flash.ops with
  | [] => s
  | o :: _ =>
    match o.kind with
    | .fwChunk =>
      if !ok then finishOpt o.owner (.st stFlashFail) (flashEnded stFlashFail (sequenceEnds o { st := .invalid } s))
      else
        let s := chunkWrite o s
        if o.aux = 1 then lastChunk o s else finishOpt o.owner .ok (flashEnded 0 s)
    | .bootRecord =>
      (match if ok then recWrite 0 0x1000 o.aux s else none with
      | none => finishOpt o.owner (.st stFlashFail) (flashEnded stFlashFail s)
      | some s =>
        let s := flashEnded 0 s
        if o.aux2 = 1 && (o.owner.bind (openCmd s)).isSome then restartFirmware o.owner s else finishOpt o.owner .ok s)
    | _ => s

/-! ## Deadlines and late results (R91) -/

/-- A command reaches its deadline: TIMEOUT_INTERNAL, and what it still had under way internally ends. A chain is aborted
first and completes when its accesses have (R436). -/
def deadlineHit (k : CmdKey) (s : State) : State :=
  match openCmd s k with
  | none => s
  | some o =>
    if s.elapsed < o.deadline then s
    else
      match chainOf s k with
      | some n => dmaAbort n stTimeout s
      | none =>
        let s := finish k (.st stTimeout) (keCut stTimeout k s)
        { s with cmd := { s.cmd with expired := s.cmd.expired ++ [k] } }

/-- The key of three operands. -/
def keyOf (q : Fin 9) (tag : BitVec 12) (seq : BitVec 16) : CmdKey := { q := q.val, tag := tag.toNat, seq := seq.toNat }

/-- Every deadline that has come. -/
def deadlinesDue (s : State) : State := s.cmd.opens.foldl (fun s o => deadlineHit (packetKey o.p) s) s

/-! ## Host reads that fail (R82) -/

/-- A header read fails for good: the entry is passed over, and a completion without a tag says which. -/
def headerFailed (q : Nat) (s : State) : State :=
  let i := (getQ s q).sqHead
  let s := bump 9 (takeSq q s)
  raise 0x03 (sysErr 5 (post q { tag := 0xFFFF, status := stTimeout, execTick := s.tick, result := i } false s))

/-- A read of the entry that queue `q` is at times out: it is retried, or it has been and fails. -/
def readTimeout (q : Nat) (hdr : Option (BitVec 16 × Packet)) (again : Bool) (s : State) : State :=
  let r := (getQ s q).retry
  if !fetching s || nextVisit s != some q then s
  else if !again then
    if hdr.isNone && (r == .again || r == .late) then s
    else bump 24 (updQ q (fun u => { u with retry := .again }) s)
  else if r != .again && r != .late then s
  else
    match hdr with
    | none => headerFailed q s
    | some (op, p) =>
      if p.q.val ≠ q ∨ p.paramInline then s
      else
        let s := takeSq q s
        match checkLen op.toNat p with
        | some x => refuse op.toNat p x s
        | none => refuse op.toNat p { step := 3, st := stTimeout } s

end Sys2Proof.Machine
end

