-- ==== Sys2Proof/Machine/Window.lean ====
section
/-! DEFINITION. Window.lean: the commit window of a tick (R39): what becomes due in it, in one order, before the work of the
tick and before any command the host sends in the tick. -/
namespace Sys2Proof.Machine

/-- Every shadowed register field whose 8 ticks have elapsed (R47). -/
def shadowApplyAll (s : State) : State := (List.range s.sys.gpioWait.length).foldl (fun s _ => shadowApplyOne s) s

/-- What precedes the timed actions: the announcements that end, freezes, timescale steps, and what they make due; Harvest, which reads the counters as
the tick begins; power moves; register fields; the Steward's stops; key installations. -/
def windowFirst (s : State) : State :=
  let s := freezeAll (announcedAll (stepAll (freezeAll (announcedAll s))))
  let s := gatesDue (moveDue (moveBegin (harvestNow s)))
  applyInstalls (stwWindowFirst (shadowApplyAll s))

/-- What follows the timed actions: the reference selection, which a commit of the tick may change (R348); the allocations of the tick, the frame's transmit sequencers, Whisper and its bank
swaps. -/
def windowLast (s : State) : State :=
  let s := calWindow (mateWindow (tmWindow s))
  let s := dmaWindow (stwWindow (fecWindow s))
  let s := txSeqBegin .b (txSeqBegin .a s)
  let s := [Line.a, Line.b].foldl (fun s c => whDepth c (whStart c (whSent c s))) s
  callWaitLimit ((List.range 4).foldl (fun s n => bankSwap n s) s)

/-- The commit window's work, after the timed actions the automatic switches whose condition has arisen (R265); a move to PARK that ends in it stops the clocks. -/
def windowWork (s : State) : State :=
  let s := windowFirst s
  if stopped s then s else 
    let s := executeAll (cfgAdopt (freezeAll s))
    windowLast (freezeAll (autoSchedule .b (autoSchedule .a s)))

/-- Open the commit window of the present tick: once in a tick, while the clocks run. -/
def openWindow (s : State) : State :=
  if stopped s || s.windowDone then s else settle { windowWork s with windowDone := true }

end Sys2Proof.Machine
end

