-- ==== Sys2Proof/Machine/Entry.lean ====
section
/-! DEFINITION. Entry.lean: how every command and event takes effect: in the present tick, after its commit window. -/
namespace Sys2Proof.Machine

/-- A command's effect on a device out of reset: in reset (R495) or after a thermal trip (R475) nothing changes. What the
commit window of the tick brings comes first (R39). -/
def live (f : State → State) (s : State) : Out :=
  let s := openWindow s
  if s.pwr.tripped || s.boot.inReset then .next s else .next (settle (f s))

/-- A command's effect on a device whose clocks run, after the commit window of the tick (R39). -/
def clocked (f : State → State) (s : State) : Out :=
  let s := openWindow s
  if stopped s then .next s else .next (settle (f s))

/-- The device takes the packet, if it fetches now, and handles it. -/
def command (op : Nat) (p : Packet) (pre : State → Option Refuse) (act : State → State) (s : State) : Out :=
  if packetWf p then
    clocked (fun s => match fetch op p s with
      | none => s
      | some s => handle op p pre act s) s
  else .fault .illFormed

/-- A command of the immediate or the long class. -/
def runCmd (i : CmdInfo) (p : Packet) (chk : State → Option Refuse) (h : State → Reply × State) (s : State) : Out :=
  command i.op p (checks i p chk) (runNow i p h) s

/-- A command of the immediate class that needs a resource of a pool: without a free one it is refused at step 12 of R81. -/
def runPool (i : CmdInfo) (p : Packet) (chk : State → Option Refuse) (free : State → Bool) (h : State → Reply × State)
    (s : State) : Out :=
  command i.op p (fun s => firstOf [checks i p chk s, need (free s) { step := 12, st := stNoResource }]) (runNow i p h) s

/-- A timed command whose class and further refusals depend on the state. -/
def runTimed (i : CmdInfo) (p : Packet) (chk : State → Option Refuse) (cls : State → ChangeClass) (s : State) : Out :=
  command i.op p (fun s => firstOf [checks i p chk s, checkTimed (cls s) p s])
    (fun s => schedule i.op p .cmd (cls s) s) s

end Sys2Proof.Machine
end

