-- ==== Sys2Proof/Machine/BootCmds.lean ====
section
/-! DEFINITION. BootCmds.lean: the commands and events of Boot.lean, each in the present tick's open commit
window. -/
namespace Sys2Proof.Machine

/-- RESET: RESET_N low for 10 µs; it does not release a thermal trip. -/
def execReset (s : State) : Out := .next (settle (resetWith s.pwr.tripped s))

/-- POWER_LOSS: every volatile state is lost, the trip latch too. -/
def execPowerLoss (s : State) : Out := .next (settle (resetWith false s))

/-- RESET_RELEASE: the straps are sampled and the mask ROM starts its search for XO_IN (R498). -/
def execResetRelease (strap : BitVec 2) (s : State) : Out :=
  if s.boot.inReset && !s.pwr.tripped then
    .next (settle (updBoot (fun b => { b with inReset := false, strap := strap.toNat, stage := 1 }) s))
  else .next (settle s)

/-- XO_FOUND. -/
def execXoFound (s : State) : Out :=
  live (fun s => if s.boot.stage = 1 then updBoot (fun b => { b with stage := 2, xoFound := true }) s else s) s

/-- XO_ABSENT: the ROM halts. -/
def execXoAbsent (s : State) : Out :=
  live (fun s => if s.boot.stage = 1 then updBoot (fun b => { b with stage := 0xF, error := 1 }) s else s) s

/-- PLL_LOCK. -/
def execPllLock (s : State) : Out := live pllLock s

/-- IMAGE_READ_DONE: the read of the slot under trial ends; not `ok` when the flash does not answer. -/
def execImageReadDone (ok : Bool) (s : State) : Out :=
  live (fun s =>
    if s.boot.stage ≠ 3 then s
    else if ok then updBoot (fun b => { b with stage := 4, checking := true }) s else slotFailed 2 s) s

/-- IMAGE_CHECK_DONE. -/
def execImageCheckDone (s : State) : Out := live imageChecked s

/-- STANDBY_READY. -/
def execStandbyReady (engFail : BitVec 256) (coreFail : BitVec 48) (s : State) : Out :=
  clocked (standbyReady engFail.toNat coreFail.toNat) s

/-- PERST_N asserted. -/
def execPerstN (s : State) : Out :=
  .next (settle (let s := { s with sys := { s.sys with perst := true } }
    if s.boot.inReset || s.pwr.tripped then s else endpointReset s))

/-- PERST_N deasserted: the link trains. -/
def execPerstNDeassert (s : State) : Out := .next (settle { s with sys := { s.sys with perst := false } })

/-- PCIE_FUNCTION_RESET. -/
def execPcieFunctionReset (s : State) : Out := live endpointReset s

/-- XO_IN_LOSS. -/
def execXoInLoss (s : State) : Out := live xoLoss s

/-- THERMTRIP: THERMTRIP_N asserts, every clock stops and the DAC outputs go to common mode. -/
def execThermtrip (s : State) : Out :=
  if s.boot.inReset then .next (settle s) else .next (settle (dacsHeld (updPwr (fun p => { p with tripped := true }) s)))

end Sys2Proof.Machine
end

