-- ==== Sys2Proof/Machine/CalibCmds.lean ====
section
/-! DEFINITION. CalibCmds.lean: the commands and events of Calib.lean, each in the present tick's open commit
window. -/
namespace Sys2Proof.Machine

/-- SPARE_CAL_DONE. -/
def execSpareCalDone (cv : Fin 16) (res : SliceCal) (s : State) : Out := clocked (spareCalDone cv.val res) s

/-- SPARE_SWAP. -/
def execSpareSwap (cv : Fin 16) (s : State) : Out := clocked (spareSwap cv.val) s

/-- CAL_STORE_WRITTEN. -/
def execCalStoreWritten (ok : Bool) (s : State) : Out := clocked (calStored ok) s

/-- CAL_MEASUREMENT_DONE. -/
def execCalMeasurementDone (cv : Fin 16) (res : Vector SliceCal 64) (s : State) : Out :=
  clocked (measured cv.val res.toList) s

/-- TEMP_SENSOR_READ. -/
def execTempSensorRead (cv : Fin 16) (t : BitVec 16) (s : State) : Out := clocked (tempRead cv.val t.toInt) s

/-- CAL_STATUS. -/
def execCalStatus (p : Packet) (s : State) : Out :=
  let v := byteAt (paramBytes p) 16
  runCmd infoCalStatus p (fun _ => need (v ≤ 15) (badParam 16)) (fun s => (.data (calStatusBytes s v), s)) s

/-- CAL_RUN. -/
def execCalRun (p : Packet) (s : State) : Out :=
  let b := paramBytes p
  let m := fld b 0 2
  runCmd infoCalRun p (fun _ => firstOf [need (m != 0) (badParam 0), need (byteAt b 2 ≤ 1) (badParam 2)]) (fun s =>
    let l := bitsSet 16 m
    if !l.all (calReady s) then (.st stWrongState, s)
    else if l.any (runOf s) then (.st stBusy, s)
    else (.wait, l.foldl (fun s v => bump (convCnt v 0) s) (addRun { owner := some (packetKey p), mask := m, meas := m, start := s.elapsed + 1, store := byteAt b 2 == 1 } s))) s

/-- CAL_STORE. -/
def execCalStore (p : Packet) (s : State) : Out :=
  runCmd infoCalStore p (fun _ => none) (fun s =>
    (.wait, calStoreOp (some (packetKey p)) 0 s)) s

/-- CAL_TEST (R370). -/
def execCalTest (p : Packet) (s : State) : Out :=
  let c := pktLine p
  let e := byteAt (paramBytes p) 0
  runCmd infoCalTest p (fun _ => need (e ≤ 1) (badParam 0)) (fun s =>
    match e, calSt s c with
    | 1, .service => (.ok, setCalSt c .test s)
    | 1, .recovery => (.ok, setCalSt c .test s)
    | 0, .test => (.ok, setCalSt c (if s.cal.valid then .service else .recovery) s)
    | _, _ => (.st stWrongState, s)) s

/-- CAL_TRIM_SET. -/
def execCalTrimSet (p : Packet) (s : State) : Out :=
  let b := paramBytes p
  let v := byteAt b 0
  let k := byteAt b 1
  let t := (List.range 4).map fun i => sx 16 (fld b (2 + 2 * i) 2)
  runCmd infoCalTrimSet p
    (fun _ => firstOf ([need (v ≤ 15) (badParam 0), need (k ≤ 67) (badParam 1)]
      ++ (List.range 4).map fun i => need ((t.getD i 0).natAbs ≤ 511) (badParam (2 + 2 * i))))
    (fun s => if calSt s (convLine v) ≠ .test then (.st stWrongState, s) else (.ok, rampAsked v k t s)) s

/-- CAL_SPARE_SET. -/
def execCalSpareSet (p : Packet) (s : State) : Out :=
  let b := paramBytes p
  let v := byteAt b 0
  let q := byteAt b 1
  runCmd infoCalSpareSet p (fun _ => firstOf [need (v ≤ 15) (badParam 0), need (q ≤ 63) (badParam 1)]) (fun s =>
    if calSt s (convLine v) ≠ .test then (.st stWrongState, s)
    else if runOf s v then (.st stBusy, s)
    else if (getConv s v).spares.isEmpty then (.st 0x1C02, s)
    else (.wait, pumpSubs v (updConv v (fun x => { x with subs := x.subs ++ [{ pos := q, failed := false, req := [] }] })
      (addRun { owner := some (packetKey p), mask := 2 ^ v, meas := 0, start := 0 } s)))) s

/-- CAL_DUMP. -/
def execCalDump (p : Packet) (s : State) : Out :=
  let v := byteAt (paramBytes p) 16
  runCmd infoCalDump p (fun _ => need (v ≤ 15) (badParam 16)) (fun s =>
    let x := getConv s v
    (.data (convRecord (fun k i => (x.trim k).getD i 0) x), s)) s

end Sys2Proof.Machine
end

