-- ==== Sys2Proof/Machine/ClientCmds.lean ====
section
/-! DEFINITION. ClientCmds.lean: the commands and events of Client.lean, each in the present tick's open commit
window. -/
namespace Sys2Proof.Machine

/-- LANE_RETUNE_DONE. -/
def execLaneRetuneDone (cl : Fin 12) (s : State) : Out := clocked (laneRetuned cl.val) s

/-- SQUELCH_DELAY_EXPIRY. -/
def execSquelchDelayExpiry (cl : Fin 12) (s : State) : Out := clocked (fun s => setSquelch s cl.val) s

/-- INGRESS_ALIGNMENT: what the PCS found of the client's lanes. -/
def execIngressAlignment (cl : Fin 12) (aligned : Bool) (s : State) : Out := clocked (ingressAlign cl.val aligned) s

/-- LANE_CLOCK_CHANGE: an RX lane of a configured client loses or regains clock recovery (R253). -/
def execLaneClockChange (lane : Fin 32) (ok : Bool) (s : State) : Out :=
  clocked (fun s =>
    if bit s.cli.powered lane.val && bit s.cli.laneOk lane.val != ok then
      raise 0x73 { s with cli := { s.cli with laneOk := setBit s.cli.laneOk lane.val ok } }
    else s) s

/-- TS_PACKET: `d` rx is ingress, from the host. -/
def execTsPacket (cl : Fin 12) (d : Dir) (ns : Fin 2000) (frac : BitVec 16) (pkt : Bytes) (s : State) : Out :=
  clocked (tsPacket cl.val d ns.val frac.toNat pkt) s

/-- CLI_STATUS. -/
def execCliStatus (p : Packet) (s : State) : Out :=
  let i := byteAt (paramBytes p) 16
  runCmd infoCliStatus p (needClient i 16) (fun s => (.data (cliStatusBytes s i), s)) s

/-- CLI_TS_READ. The one-step flag stands in bit 2 of byte 12. -/
def execCliTsRead (p : Packet) (s : State) : Out :=
  let b := paramBytes p
  let i := byteAt b 16
  let d := byteAt b 17
  let m := fld b 18 2
  runCmd infoCliTsRead p
    (fun s => firstOf [needClient i 16 s, need (d ≤ 1) (badParam 17), need (1 ≤ m && m ≤ 64) (badParam 18)])
    (fun s =>
      let q := if d = 0 then (getCli s i).tsIn else (getCli s i).tsOut
      let rest := q.drop m
      takeData p (tsReadBytes m q) s
        (updCli i (fun x => if d = 0 then { x with tsIn := rest } else { x with tsOut := rest }) s)) s

/-- CLIENT_BITSLIP (R238). -/
def execClientBitslip (p : Packet) (s : State) : Out :=
  let b := paramBytes p
  let i := byteAt b 0
  let n := byteAt b 2
  runCmd infoClientBitslip p
    (fun s => firstOf [needClient i 0 s, need (byteAt b 1 < cliK s i) (badParam 1), need (1 ≤ n && n ≤ 65) (badParam 2)])
    (fun s =>
      let c := cliLine s i
      if s.parN 0x7007 (0x40 + i) = 0 then (.st stWrongState, s)
      else
        match slotOrder (accMapOf s c) (cliRxSlots s i) (byteAt b 1) with
        | none => (.st stWrongState, s)
        | some j => (.ok, updSlots c (fun x => { x with rx := lmod x.rx j fun r =>
            { r with slip := r.slip + n, cand := (r.cand + n) % 66, goodRun := 0 } }) s)) s

end Sys2Proof.Machine
end

