-- ==== Sys2Proof/Machine/CryptoCmds.lean ====
section
/-! DEFINITION. CryptoCmds.lean: the commands and events of Crypto.lean, each in the present tick's open commit
window. -/
namespace Sys2Proof.Machine

/-- KEY_USE_LIMIT: at the first frame whose message would pass the limit. -/
def execKeyUseLimit (c : Line) (sa : Fin 26) (s : State) : Out :=
  clocked (fun s => if carried s c sa.val then useLimitHit c sa.val s else s) s

/-- RETIRED_KEY_ZEROISE. -/
def execRetiredKeyZeroise (c : Line) (sa : Fin 26) (s : State) : Out := clocked (retireKey c sa.val) s

/-- RX_KEY_CHECK_LIMIT. -/
def execRxKeyCheckLimit (c : Line) (sa : Fin 26) (s : State) : Out := clocked (rxLimit c sa.val) s

/-- CRY_STATUS. -/
def execCryStatus (p : Packet) (s : State) : Out :=
  runCmd infoCryStatus p (fun _ => none) (fun s => (.data (cryStatusBytes s (pktLine p)), s)) s

/-- KEY_INSTALL. -/
def execKeyInstall (p : Packet) (s : State) : Out :=
  let b := paramBytes p
  let x := pktInstall p
  runCmd infoKeyInstall p
    (fun _ => firstOf [need (x.sa ≤ 25) (badParam 0), need (byteAt b 1 ≤ 1) (badParam 1),
      need (rsv b 2 4) (badParam 2), need (rsv b 12 16) (badParam 12)])
    (fun s =>
      match installCheck s x true with
      | 0 => (.wait, addInstall x s)
      | st => (.st st, s)) s

/-- KEY_SWITCH: timed, line-coordinated. -/
def execKeySwitch (p : Packet) (s : State) : Out :=
  runTimed infoKeySwitch p (fun _ => need (fld (paramBytes p) 0 4 < 2 ^ 26) (badParam 0)) (fun _ => .line) s

/-- KEY_ZEROISE: timed, local. -/
def execKeyZeroise (p : Packet) (s : State) : Out :=
  let b := paramBytes p
  runTimed infoKeyZeroise p
    (fun _ => firstOf [need (fld b 0 4 < 2 ^ 26) (badParam 0), need (byteAt b 4 ≤ 3) (badParam 4)])
    (fun _ => .local_) s

/-- CRY_GCM_TEST: the host buffer's bytes come with the command; the result is ready in a later tick, 64 KiB per
tick. -/
def execCryGcmTest (p : Packet) (src : Bytes) (s : State) : Out :=
  let b := paramBytes p
  let n := fld b 24 4
  let m := fld b 28 4
  runCmd infoCryGcmTest p (fun _ => none) (fun s =>
    if 262144 < n + m then (.st 0x1801, s)
    else
      let aad := src.take m
      let text := padTo n (src.drop m)
      let iv := slice b 32 12
      let key := slice b 44 32
      let ct := gcmCrypt key iv text
      (.wait, { s with cry := { s.cry with
        gcmTest := s.cry.gcmTest ++ [(packetKey p, n + m, ct ++ gcmTag key iv aad ct)] } })) s

end Sys2Proof.Machine
end

