-- ==== Sys2Proof/Machine/DmaCmds.lean ====
section
/-! DEFINITION. DmaCmds.lean: the commands and events of Dma.lean, each in the present tick's open commit
window. -/
namespace Sys2Proof.Machine

/-- DMA_DESCRIPTOR: the descriptor as read from host memory (none when the read failed twice, R82), and what the host
reads of its source bring (fewer bytes than its length when one failed twice). -/
def execDmaDescriptor (ch : Fin 16) (desc : HostRead (Vector Byte 32)) (data : HostRead Bytes) (s : State) : Out :=
  clocked (fun s => descriptor ch.val (desc.value.map (·.toList)) data.value (lateRead data (lateRead desc s))) s

/-- DESCRIPTOR_COMPLETE. -/
def execDescriptorComplete (ch : Fin 16) (s : State) : Out := clocked (descriptorComplete ch.val) s

/-- DMA_START. -/
def execDmaStart (p : Packet) (s : State) : Out :=
  let b := paramBytes p
  let n := byteAt b 0
  let first := fld b 8 8
  runCmd infoDmaStart p
    (fun _ => firstOf [need (n ≤ 15) (badParam 0), need (rsv b 1 8) (badParam 1), need (first % 32 == 0) (badParam 8)])
    (fun s =>
      if (getCh s n).tenant.isNone then (.st stWrongState, s)
      else if (getCh s n).run.isSome then (.st stBusy, s)
      else (.wait, updCh n (fun x => { x with
        run := some (packetKey p), next := first, index := 0, moved := 0, cur := none, abort := none }) s)) s

/-- DMA_STATUS. -/
def execDmaStatus (p : Packet) (s : State) : Out :=
  let n := byteAt (paramBytes p) 16
  runCmd infoDmaStatus p (fun _ => need (n ≤ 15) (badParam 16)) (fun s => (.data (dmaStatusBytes s n), s)) s

/-- DMA_ABORT. -/
def execDmaAbort (p : Packet) (s : State) : Out :=
  let n := byteAt (paramBytes p) 0
  runCmd infoDmaAbort p (fun _ => need (n ≤ 15) (badParam 0))
    (fun s => if (getCh s n).run.isNone then (.st stWrongState, s) else (.ok, dmaAbort n stAborted s)) s

/-- CRC_UNIT. -/
def execCrcUnit (p : Packet) (s : State) : Out :=
  let b := paramBytes p
  let op := byteAt b 1
  runCmd infoCrcUnit p
    (fun _ => firstOf [need (byteAt b 0 ≤ 7) (badParam 0), need (op ≤ 4) (badParam 1),
      need (op != 1 || byteAt b 2 ≤ 3) (badParam 2), need (op != 1 || byteAt b 3 ≤ 2) (badParam 3),
      need (rsv b 4 8) (badParam 4)])
    (crcOp (byteAt b 0) op b) s

end Sys2Proof.Machine
end

