-- ==== Sys2Proof/Machine/DomainCmds.lean ====
section
/-! DEFINITION. DomainCmds.lean: the commands and events of Domain.lean, each in the present tick's open commit
window. -/
namespace Sys2Proof.Machine

/-- PATH_TIMEOUT. -/
def execPathTimeout (path : Fin 5) (s : State) : Out := clocked (fun s => updPath s path.val) s

/-- CONFLICT_FLAG_EXPIRY. -/
def execConflictFlagExpiry (s : State) : Out := clocked conflictExpiry s

/-- DOMAIN_RECORD_WRITTEN. -/
def execDomainRecordWritten (ok : Bool) (s : State) : Out := clocked (domRecordEnd ok) s

/-- MISSING_OFFSET_REQUEST. -/
def execMissingOffsetRequest (s : State) : Out := clocked missingReq s

/-- FETCH_TIMEOUT. -/
def execFetchTimeout (s : State) : Out := clocked fetchTimeout s

/-- CFG_SKEW_TIMEOUT. -/
def execCfgSkewTimeout (nb : Fin 3) (s : State) : Out := clocked (cfgSkew nb.val) s

/-- EPOCH_GRACE_EXPIRY. -/
def execEpochGraceExpiry (c : Line) (s : State) : Out := clocked (epochGrace c.ix) s

/-- WHISPER_BEACON_SEND. -/
def execWhisperBeaconSend (c : Line) (s : State) : Out := clocked (whBeacon c) s

/-- CFG_REQ. -/
def execCfgReq (s : State) : Out := clocked (dmTake 0x01 onCfgReq) s

/-- CFG_PART. -/
def execCfgPart (s : State) : Out := clocked (dmTake 0x02 onCfgPart) s

/-- CALL. -/
def execCall (s : State) : Out := clocked (dmTake 0x03 onCall) s

/-- HOST. -/
def execHost (s : State) : Out := clocked (dmTake 0x04 (forwarded fun _ => dmDeliver 1)) s

/-- BEACON. -/
def execBeacon (s : State) : Out := clocked (dmTake 0x07 onBeacon) s

/-- DM_STATUS. -/
def execDmStatus (p : Packet) (s : State) : Out :=
  runCmd infoDmStatus p (fun _ => none) (fun s => (.data (dmStatusBytes s), s)) s

/-- DM_JOIN (R315, R323). -/
def execDmJoin (p : Packet) (s : State) : Out :=
  let b := paramBytes p
  let dom := fld b 0 4
  let id := fld b 4 2
  let key := slice b 8 97
  runCmd infoDmJoin p
    (fun _ => firstOf [need (dom != 0) (badParam 0), need (id ≤ 16383) (badParam 4), need (rsv b 6 8) (badParam 6),
      need (byteAt b 8 == 4) (badParam 8), need (rsv b 105 108) (badParam 105)])
    (fun s =>
      let (x, y) := keyXY key
      if s.dm.member then (.st stWrongState, s)
      else if s.dm.joinedOnce && (s.dm.domain != dom || s.dm.key != key) then (.st stLocked, s)
      else
        match pubCheck x y with
        | 0 =>
          let v := if s.dm.recDomain = dom then s.dm.recVersion else 0
          (.ok, raise 0xB0 { s with
            cfgVersion := v, dm := { s.dm with member := true, joinedOnce := true, domain := dom, id := id, key := key } })
        | st => (.st st, s)) s

/-- DM_LEAVE (R316). -/
def execDmLeave (p : Packet) (s : State) : Out :=
  runCmd infoDmLeave p (fun _ => none) (membersOnly fun s =>
    (.ok, raise 0xB0 (updPaths (updDm (fun d => { d with member := false, fetch := none }) s)))) s

/-- DM_PUBLISH: answered once the version is adopted (R322, R323). -/
def execDmPublish (p : Packet) (s : State) : Out :=
  let d := paramBytes p
  runCmd infoDmPublish p (fun _ => none) (membersOnly fun s =>
    match docCheck s d with
    | 0 =>
      if fld d 4 4 ≤ s.cfgVersion then (.st 0x1B02, s)
      else if s.dm.adopt.isSome then (.st stBusy, s)
      else (.wait, beginAdopt (fld d 4 4) d (some (packetKey p)) s)
    | st => (.st st, docRefused s)) s

/-- DM_CFG_READ. -/
def execDmCfgRead (p : Packet) (s : State) : Out :=
  runCmd infoDmCfgRead p (fun _ => none) (membersOnly fun s =>
    if s.dm.doc.isEmpty then (.st stWrongState, s) else (.data s.dm.doc, s)) s

/-- DM_SEND. -/
def execDmSend (p : Packet) (s : State) : Out :=
  let b := paramBytes p
  runCmd infoDmSend p (fun _ => need (rsv b 2 4) (badParam 2)) (membersOnly fun s =>
    (.ok s.dm.msgId, dmSend 0x04 (fld b 0 2) (b.drop 4) (sendPaths s) s)) s

/-- DM_RECV. -/
def execDmRecv (p : Packet) (s : State) : Out :=
  runCmd infoDmRecv p (fun _ => none) (membersOnly fun s =>
    match s.dm.queue with
    | [] => (.data (zeros 24), s)
    | e :: rest =>
      takeData p ([byteOf e.kind, 0] ++ le 2 e.origin ++ le 4 e.msgId ++ le 8 e.tick ++ le 2 e.body.length ++ zeros 6
        ++ e.body) s (updDm (fun d => { d with queue := rest }) s)) s

/-- DM_CALL: the calling member holds its own call too. -/
def execDmCall (p : Packet) (s : State) : Out :=
  let b := paramBytes p
  runCmd infoDmCall p (fun _ => none) (membersOnly fun s =>
    let body := be 4 (fld b 0 4) ++ be 8 (fld b 4 8) ++ be 4 (fld b 12 4) ++ b.drop 16
    (.ok s.dm.msgId, callArrived { origin := s.dm.id, number := fld b 12 4, version := fld b 0 4, t := fld b 4 8 }
      (dmSend 0x03 0xFFFF body (sendPaths s) s))) s

/-- DM_CALL_BIND (R328). -/
def execDmCallBind (p : Packet) (s : State) : Out :=
  let b := paramBytes p
  let h := byteAt b 0
  command 0x0B08 p
    (fun s => firstOf [checks infoDmCallBind p (fun s => firstOf [
        checkHandle h p.q.val s, need ((findSol s h).map (·.st) == some .prepared) (badParam 0),
        need (byteAt b 1 == 0) (badParam 1)]) s, checkLimit_ p s])
    (bindNow p) s

end Sys2Proof.Machine
end

