-- ==== Sys2Proof/Machine/EngineCmds.lean ====
section
/-! DEFINITION. EngineCmds.lean: the commands and events of Engine.lean, each in the present tick's open commit
window. -/
namespace Sys2Proof.Machine

/-- One instruction of engine `e`, when the run is at one of this class and function. -/
def engRow (cls fn : Nat) (op : EngOp) (e : Fin 256) (s : State) : Out :=
  clocked (fun s => match nextWord s e.val with
    | none => s
    | some (r, code, w) => if w.cls = cls ∧ w.fn = fn then issue op e.val code w r s else s) s

/-- ENG_END. -/
def execEngEnd (e : Fin 256) (s : State) : Out := engRow 0 0 opEnd e s

/-- ENG_NOP. -/
def execEngNop (e : Fin 256) (s : State) : Out := engRow 0 1 opNop e s

/-- ENG_BR. -/
def execEngBr (e : Fin 256) (s : State) : Out := engRow 0 2 opBr e s

/-- ENG_EVT. -/
def execEngEvt (e : Fin 256) (s : State) : Out := engRow 0 3 opEvt e s

/-- ENG_SYS. -/
def execEngSys (e : Fin 256) (s : State) : Out := engRow 0 4 opSys e s

/-- ENG_ADD. -/
def execEngAdd (e : Fin 256) (s : State) : Out := engRow 1 0 opAdd e s

/-- ENG_SUB. -/
def execEngSub (e : Fin 256) (s : State) : Out := engRow 1 1 opSub e s

/-- ENG_AND. -/
def execEngAnd (e : Fin 256) (s : State) : Out := engRow 1 2 opAnd e s

/-- ENG_OR. -/
def execEngOr (e : Fin 256) (s : State) : Out := engRow 1 3 opOr e s

/-- ENG_XOR. -/
def execEngXor (e : Fin 256) (s : State) : Out := engRow 1 4 opXor e s

/-- ENG_SHL. -/
def execEngShl (e : Fin 256) (s : State) : Out := engRow 1 5 opShl e s

/-- ENG_SHR. -/
def execEngShr (e : Fin 256) (s : State) : Out := engRow 1 6 opShr e s

/-- ENG_SAR. -/
def execEngSar (e : Fin 256) (s : State) : Out := engRow 1 7 opSar e s

/-- ENG_MOVI. -/
def execEngMovi (e : Fin 256) (s : State) : Out := engRow 1 8 opMovi e s

/-- ENG_ADDI. -/
def execEngAddi (e : Fin 256) (s : State) : Out := engRow 1 9 opAddi e s

/-- ENG_CMPEQ. -/
def execEngCmpeq (e : Fin 256) (s : State) : Out := engRow 1 10 opCmpeq e s

/-- ENG_CMPLT. -/
def execEngCmplt (e : Fin 256) (s : State) : Out := engRow 1 11 opCmplt e s

/-- ENG_CMPLTU. -/
def execEngCmpltu (e : Fin 256) (s : State) : Out := engRow 1 12 opCmpltu e s

/-- ENG_MUL. -/
def execEngMul (e : Fin 256) (s : State) : Out := engRow 2 0 opMul e s

/-- ENG_MULH. -/
def execEngMulh (e : Fin 256) (s : State) : Out := engRow 2 1 opMulh e s

/-- ENG_MULHU. -/
def execEngMulhu (e : Fin 256) (s : State) : Out := engRow 2 2 opMulhu e s

/-- ENG_VADD. -/
def execEngVadd (e : Fin 256) (s : State) : Out := engRow 3 0 opVadd e s

/-- ENG_VSUB. -/
def execEngVsub (e : Fin 256) (s : State) : Out := engRow 3 1 opVsub e s

/-- ENG_VADDS. -/
def execEngVadds (e : Fin 256) (s : State) : Out := engRow 3 2 opVadds e s

/-- ENG_VSUBS. -/
def execEngVsubs (e : Fin 256) (s : State) : Out := engRow 3 3 opVsubs e s

/-- ENG_VMIN. -/
def execEngVmin (e : Fin 256) (s : State) : Out := engRow 3 4 opVmin e s

/-- ENG_VMAX. -/
def execEngVmax (e : Fin 256) (s : State) : Out := engRow 3 5 opVmax e s

/-- ENG_VAND. -/
def execEngVand (e : Fin 256) (s : State) : Out := engRow 3 6 opVand e s

/-- ENG_VOR. -/
def execEngVor (e : Fin 256) (s : State) : Out := engRow 3 7 opVor e s

/-- ENG_VXOR. -/
def execEngVxor (e : Fin 256) (s : State) : Out := engRow 3 8 opVxor e s

/-- ENG_VSHL. -/
def execEngVshl (e : Fin 256) (s : State) : Out := engRow 3 9 opVshl e s

/-- ENG_VSHR. -/
def execEngVshr (e : Fin 256) (s : State) : Out := engRow 3 10 opVshr e s

/-- ENG_VSAR. -/
def execEngVsar (e : Fin 256) (s : State) : Out := engRow 3 11 opVsar e s

/-- ENG_VCMPEQ. -/
def execEngVcmpeq (e : Fin 256) (s : State) : Out := engRow 3 12 opVcmpeq e s

/-- ENG_VCMPLT. -/
def execEngVcmplt (e : Fin 256) (s : State) : Out := engRow 3 13 opVcmplt e s

/-- ENG_VMUL. -/
def execEngVmul (e : Fin 256) (s : State) : Out := engRow 4 0 opVmul e s

/-- ENG_MAC. -/
def execEngMac (e : Fin 256) (s : State) : Out := engRow 4 1 opMac e s

/-- ENG_CMUL. -/
def execEngCmul (e : Fin 256) (s : State) : Out := engRow 4 2 opCmul e s

/-- ENG_CMAC. -/
def execEngCmac (e : Fin 256) (s : State) : Out := engRow 4 3 opCmac e s

/-- ENG_CMACC. -/
def execEngCmacc (e : Fin 256) (s : State) : Out := engRow 4 4 opCmacc e s

/-- ENG_BCAST. -/
def execEngBcast (e : Fin 256) (s : State) : Out := engRow 5 0 opBcast e s

/-- ENG_SHUF. -/
def execEngShuf (e : Fin 256) (s : State) : Out := engRow 5 1 opShuf e s

/-- ENG_ROT. -/
def execEngRot (e : Fin 256) (s : State) : Out := engRow 5 2 opRot e s

/-- ENG_REDADD. -/
def execEngRedadd (e : Fin 256) (s : State) : Out := engRow 5 3 opRedadd e s

/-- ENG_INS. -/
def execEngIns (e : Fin 256) (s : State) : Out := engRow 5 4 opIns e s

/-- ENG_EXT. -/
def execEngExt (e : Fin 256) (s : State) : Out := engRow 5 5 opExt e s

/-- ENG_PAND. -/
def execEngPand (e : Fin 256) (s : State) : Out := engRow 6 0 opPand e s

/-- ENG_POR. -/
def execEngPor (e : Fin 256) (s : State) : Out := engRow 6 1 opPor e s

/-- ENG_PNOT. -/
def execEngPnot (e : Fin 256) (s : State) : Out := engRow 6 2 opPnot e s

/-- ENG_PMOV. -/
def execEngPmov (e : Fin 256) (s : State) : Out := engRow 6 3 opPmov e s

/-- ENG_LD. -/
def execEngLd (e : Fin 256) (s : State) : Out := engRow 7 0 opLd e s

/-- ENG_ST. -/
def execEngSt (e : Fin 256) (s : State) : Out := engRow 7 1 opSt e s

/-- ENG_VLD. -/
def execEngVld (e : Fin 256) (s : State) : Out := engRow 7 2 opVld e s

/-- ENG_VST. -/
def execEngVst (e : Fin 256) (s : State) : Out := engRow 7 3 opVst e s

/-- ENG_VIN. -/
def execEngVin (e : Fin 256) (s : State) : Out := engRow 8 0 opVin e s

/-- ENG_VOUT. -/
def execEngVout (e : Fin 256) (s : State) : Out := engRow 8 1 opVout e s

/-- ENG_SIN. -/
def execEngSin (e : Fin 256) (s : State) : Out := engRow 8 2 opSin e s

/-- ENG_SOUT. -/
def execEngSout (e : Fin 256) (s : State) : Out := engRow 8 3 opSout e s

/-- ENG_SLD. -/
def execEngSld (e : Fin 256) (s : State) : Out := engRow 9 0 opSld e s

/-- ENG_SST. -/
def execEngSst (e : Fin 256) (s : State) : Out := engRow 9 1 opSst e s

/-- ENG_SWAIT. -/
def execEngSwait (e : Fin 256) (s : State) : Out := engRow 9 2 opSwait e s

/-- RUN_BUDGET_EXPIRY: a run whose next instruction no longer fits its budget is an overrun. -/
def execRunBudgetExpiry (e : Fin 256) (s : State) : Out :=
  clocked (fun s => match (getEng s e.val).run with
    | none => s
    | some r =>
      if r.ended.isSome then s
      else match nextWord s e.val with
        | some (_, _, w) => if 5800 < issueAt w r + costOf w then overrun e.val r s else s
        | none => if 5800 ≤ r.cycle then overrun e.val r s else s) s

end Sys2Proof.Machine
end

