-- ==== Sys2Proof/Machine/FecCmds.lean ====
section
/-! DEFINITION. FecCmds.lean: the commands and events of Fec.lean, each in the present tick's open commit
window. -/
namespace Sys2Proof.Machine

/-- DECODE_END: the first decoding of codeword `cw` of the carrier's waiting frame `frame` comes to its one outcome. -/
def execDecodeEnd (c : Line) (frame : Fin 4) (cw : Fin 256) (s : State) : Out :=
  clocked (fun s => decodeEnd (jobOf s c (256 * frame.val + cw.val)) s) s

/-- REDECODE_START: a failed codeword, by 256·frame + number, begins to be decoded once more. -/
def execRedecodeStart (c : Line) (cw : Fin 1024) (s : State) : Out :=
  clocked (fun s => redecodeStart (jobOf s c cw.val) s) s

/-- CODEWORD_RELEASE: a codeword, by 256·frame + number, leaves the pool. -/
def execCodewordRelease (c : Line) (cw : Fin 1024) (s : State) : Out :=
  clocked (fun s => codewordRelease (jobOf s c cw.val) s) s

/-- CORE_SELF_TEST: the built-in test of one core ends. -/
def execCoreSelfTest (core : Fin 48) (pass : Bool) (s : State) : Out :=
  clocked (fun s => if coreTestDue s core.val then coreTested core.val pass s else s) s

/-- FEC_STATUS. -/
def execFecStatus (p : Packet) (s : State) : Out :=
  runCmd infoFecStatus p (fun _ => none) (fun s => (.data (fecStatusBytes s (pktLine p)), s)) s

/-- FEC_POOL. -/
def execFecPool (p : Packet) (s : State) : Out :=
  runCmd infoFecPool p (fun _ => none) (fun s => (.data (fecPoolBytes s), s)) s

/-- FEC_CORE_TEST: answered by the core's test in the next tick. -/
def execFecCoreTest (p : Packet) (s : State) : Out :=
  let k := byteAt (paramBytes p) 0
  runCmd infoFecCoreTest p (fun _ => need (k ≤ 47) (badParam 0)) (fun s =>
    if bit (s.fec.disabled ||| s.fec.leaving ||| s.pwr.gatedCores) k then (.st stWrongState, s)
    else (.wait, updFec (fun x => { x with tests := x.tests ++ [(packetKey p, k, s.elapsed)] }) s)) s

end Sys2Proof.Machine
end

