-- ==== Sys2Proof/Machine/FrameCmds.lean ====
section
/-! DEFINITION. FrameCmds.lean: the commands and events of Frame.lean, each in the present tick's open commit
window. -/
namespace Sys2Proof.Machine

/-- FRAME_ALIGNMENT_GAIN. -/
def execFrameAlignmentGain (c : Line) (s : State) : Out := clocked (frameGain c) s

/-- FRAME_ALIGNMENT_LOSS. -/
def execFrameAlignmentLoss (c : Line) (s : State) : Out := clocked (frameLoss c) s

/-- LOF_TIMER. -/
def execLofTimer (c : Line) (s : State) : Out := clocked (lofTimer c) s

/-- LOM_TIMER. -/
def execLomTimer (c : Line) (s : State) : Out := clocked (lomTimer c) s

/-- GCC_MESSAGE_RX. -/
def execGccMessageRx (c : Line) (s : State) : Out := clocked (gccPass c) s

/-- FRM_STATUS. -/
def execFrmStatus (p : Packet) (s : State) : Out :=
  runCmd infoFrmStatus p (fun _ => none) (fun s => (.data (frmStatusBytes s (pktLine p)), s)) s

/-- FRM_GCC_SEND. -/
def execFrmGccSend (p : Packet) (s : State) : Out :=
  let c := pktLine p
  runPool infoFrmGccSend p (fun _ => none) (fun s => (getFrm s c).gcc.host.length < 8) (fun s =>
    if s.parN 0x6002 c.inst = 0 then (.st stWrongState, s)
    else (.ok, updFrm c (fun f => { f with gcc := { f.gcc with host := f.gcc.host ++ [paramBytes p] } }) s)) s

/-- FRM_GCC_RECV. -/
def execFrmGccRecv (p : Packet) (s : State) : Out :=
  let c := pktLine p
  runCmd infoFrmGccRecv p (fun _ => none) (fun s =>
    match (getFrm s c).gcc.queue with
    | [] => (.data (zeros 16), s)
    | m :: rest => takeData p (le 2 m.bytes.length ++ zeros 6 ++ le 8 m.tick ++ m.bytes) s
        (updFrm c (fun f => { f with gcc := { f.gcc with queue := rest } }) s)) s

/-- FRM_APS_SET. -/
def execFrmApsSet (p : Packet) (s : State) : Out :=
  runCmd infoFrmApsSet p (fun _ => none) (fun s =>
    (.ok, updFrm (pktLine p) (fun f => { f with apsTx := fld (paramBytes p) 0 4 }) s)) s

/-- FRM_OH_CAPTURE. -/
def execFrmOhCapture (p : Packet) (s : State) : Out :=
  runCmd infoFrmOhCapture p (fun _ => none) (fun s =>
    let f := getFrm s (pktLine p)
    (.data (le 8 f.ohTick ++ [byteOf (b2n f.ohValid)] ++ zeros 7 ++ padTo 256 f.oh), s)) s

end Sys2Proof.Machine
end

