-- ==== Sys2Proof/Machine/HarvestCmds.lean ====
section
/-! DEFINITION. HarvestCmds.lean: the commands and events of Harvest.lean, each in the present tick's open commit
window. -/
namespace Sys2Proof.Machine

/-- HARVEST_RECORD_WRITTEN. -/
def execHarvestRecordWritten (s : State) : Out := clocked harvestWritten s

end Sys2Proof.Machine
end

