-- ==== Sys2Proof/Machine/KeyEngineCmds.lean ====
section
/-! DEFINITION. KeyEngineCmds.lean: the commands and events of KeyEngine.lean, each in the present tick's open commit
window. -/
namespace Sys2Proof.Machine

/-- EPOCH_RECORD_WRITTEN. -/
def execEpochRecordWritten (ok : Bool) (s : State) : Out := clocked (epochRecordEnd ok) s

/-- PK_OP_DONE. -/
def execPkOpDone (s : State) : Out := clocked (pkDone true) s

/-- DRBG_RESEED. -/
def execDrbgReseed (ok : Bool) (s : State) : Out := clocked (drbgReseed ok) s

/-- OFFER. -/
def execOffer (c : Line) (s : State) : Out := clocked (keTake c 1 (onOffer c)) s

/-- ANSWER. -/
def execAnswer (c : Line) (s : State) : Out := clocked (keTake c 2 (onAnswer c)) s

/-- CONFIRM. -/
def execConfirm (c : Line) (s : State) : Out := clocked (keTake c 3 (onConfirm c)) s

/-- DONE. -/
def execDone (c : Line) (s : State) : Out := clocked (keTake c 4 (onDone c)) s

/-- ABORT. -/
def execAbort (c : Line) (s : State) : Out := clocked (keTake c 5 (onAbort c)) s

/-- KE_RESEND_EXPIRY. -/
def execKeResendExpiry (c : Line) (s : State) : Out := clocked (keResend c) s

/-- NO_PEER_TIMEOUT. -/
def execNoPeerTimeout (c : Line) (s : State) : Out := clocked (keNoPeer c) s

/-- EXCHANGE_RECORD_EXPIRY. -/
def execExchangeRecordExpiry (c : Line) (s : State) : Out := clocked (recordExpiry c) s

/-- KE_START (R274). -/
def execKeStart (p : Packet) (s : State) : Out :=
  let c := pktLine p
  let b := paramBytes p
  runCmd infoKeStart p
    (fun _ => firstOf [need (fld b 4 4 < 2 ^ 26) (badParam 4), need (fld b 8 8 % 256 == 0) (badParam 8),
      need (byteAt b 16 ≤ 1) (badParam 16), need (rsv b 17 24) (badParam 17)])
    (fun s =>
      if (getCry s c).secret.isNone || s.parN 0x6002 c.inst == 0 then (.st stWrongState, s)
      else if (getExch s c).isSome then (.st stBusy, s)
      else if fld b 0 4 ≤ s.cry.floor then (.st 0x1901, s)
      else (.wait, pkAdd { kind := .keGen c } (updCry c (fun x => { x with exch := some (startExch p s) }) s))) s

/-- KE_STATUS. -/
def execKeStatus (p : Packet) (s : State) : Out :=
  runCmd infoKeStatus p (fun _ => none) (fun s =>
    let y := getCry s (pktLine p)
    (match y.exch with
    | some x => .ok (x.code + 256 * (x.resends % 256) + 2 ^ 16 * y.lastStatus + 2 ^ 32 * x.epoch)
    | none => .ok (256 * (y.lastResends % 256) + 2 ^ 16 * y.lastStatus + 2 ^ 32 * y.lastEpoch), s)) s

/-- KE_ABORT. -/
def execKeAbort (p : Packet) (s : State) : Out :=
  let c := pktLine p
  runCmd infoKeAbort p (fun _ => none) (fun s =>
    match getExch s c with
    | none => (.st stWrongState, s)
    | some x => (.ok, finish x.owner (.st stAborted)
        (gccSendKey c (x.header 5 stAborted x.initNonce) (keEnd c stAborted s)))) s

/-- KE_SECRET_SET. -/
def execKeSecretSet (p : Packet) (s : State) : Out :=
  let c := pktLine p
  runCmd infoKeSecretSet p (fun _ => none) (fun s =>
    if (getExch s c).isSome then (.st stWrongState, s)
    else (.ok, updCry c (fun x => { x with secret := some (paramBytes p) }) s)) s

/-- PK_VERIFY. -/
def execPkVerify (p : Packet) (s : State) : Out :=
  let b := paramBytes p
  runPool infoPkVerify p
    (fun _ => firstOf [need (byteAt b 0 == 4) (badParam 0), need (rsv b 97 100) (badParam 97)]) pkFree
    (pkHost .verify p) s

/-- PK_ECDH. -/
def execPkEcdh (p : Packet) (s : State) : Out :=
  let b := paramBytes p
  runPool infoPkEcdh p
    (fun _ => firstOf [need (byteAt b 16 ≤ 1) (badParam 16), need (rsv b 17 24) (badParam 17),
      need (byteAt b 16 == 1 || byteAt b 72 == 4) (badParam 72)]) pkFree
    (pkHost (.ecdh (byteAt b 16)) p) s

/-- KE_EPOCH_FLOOR. -/
def execKeEpochFloor (p : Packet) (s : State) : Out :=
  let e := fld (paramBytes p) 0 4
  runCmd infoKeEpochFloor p (fun _ => none) (fun s =>
    if e < s.cry.high then (.st 0x1901, s)
    else (.wait, flashAdd { kind := .epochRecord, owner := some (packetKey p), aux := e, aux2 := 1 } s)) s

end Sys2Proof.Machine
end

