-- ==== Sys2Proof/Machine/LineRxCmds.lean ====
section
/-! DEFINITION. LineRxCmds.lean: the commands and events of LineRx.lean, each in the present tick's open commit
window. -/
namespace Sys2Proof.Machine

/-- LINE_FRAME_RX: the line frame takes the next frame the pool has released; the row brings the lag measured for it. -/
def execLineFrameRx (c : Line) (lag : Option (BitVec 32)) (s : State) : Out :=
  clocked (lineNext c (lag.map (·.toInt))) s

end Sys2Proof.Machine
end

