-- ==== Sys2Proof/Machine/MateCmds.lean ====
section
/-! DEFINITION. MateCmds.lean: the commands and events of Mate.lean, each in the present tick's open commit
window. -/
namespace Sys2Proof.Machine

/-- MATE_LANE_DOWN. -/
def execMateLaneDown (lane : Fin 2) (s : State) : Out := clocked (laneDown lane.val) s

/-- MATE_FRAME_RX. -/
def execMateFrameRx (lane : Fin 2) (frame : Bytes) (lag : BitVec 32) (s : State) : Out :=
  clocked (mateRx lane.val frame lag.toInt) s

/-- MATE_AUTO_SWITCH. -/
def execMateAutoSwitch (s : State) : Out := clocked autoSwitch s

/-- MATE_HOLDOFF_EXPIRY. -/
def execMateHoldoffExpiry (s : State) : Out := clocked holdoffExpiry s

/-- PROBE_TIMER. -/
def execProbeTimer (s : State) : Out := clocked probeTimer s

/-- PROBE. -/
def execProbe (s : State) : Out := clocked (dmTake 0x05 (forwarded (onProbe true))) s

/-- PROBE_REPLY. -/
def execProbeReply (s : State) : Out := clocked (dmTake 0x06 (forwarded (onProbe false))) s

/-- PEER_LOST_TIMEOUT. -/
def execPeerLostTimeout (s : State) : Out := clocked peerLost s

/-- Domain commands need membership (R337); MATE_STATUS and MATE_SWITCH are the mate link's. -/
def execMateStatus (p : Packet) (s : State) : Out :=
  runCmd infoMateStatus p (fun _ => none) (fun s => (.data (mateStatusBytes s), s)) s

/-- MATE_SWITCH: answered when the new ACTIVE takes over. -/
def execMateSwitch (p : Packet) (s : State) : Out :=
  runCmd infoMateSwitch p (fun _ => none) (fun s =>
    if !mateOn s then (.st stWrongState, s)
    else if !s.mate.link then (.st 0x1B04, s)
    else if s.mate.switch.isSome then (.st stBusy, s)
    else if canSwitch s then (.wait, startSwitch (some (packetKey p)) s)
    else (.st stWrongState, s)) s

end Sys2Proof.Machine
end

