-- ==== Sys2Proof/Machine/ObserveCmds.lean ====
section
/-! DEFINITION. ObserveCmds.lean: the commands and events of Observe.lean, each in the present tick's open commit
window. -/
namespace Sys2Proof.Machine

/-- OBS_CLEAR. -/
def execObsClear (p : Packet) (s : State) : Out := runTimed infoObsClear p (chkObsClear p) (fun _ => .local_) s

/-- OBS_HARVEST_NOW. -/
def execObsHarvestNow (p : Packet) (s : State) : Out :=
  runTimed infoObsHarvestNow p (fun _ => none) (fun _ => .local_) s

/-- OBS_SAMPLE_READ: the oldest samples, each removed. -/
def execObsSampleRead (p : Packet) (s : State) : Out :=
  let m := fld (paramBytes p) 16 2
  runCmd infoObsSampleRead p (fun _ => need (1 ≤ m && m ≤ 4096) (badParam 16)) (fun s =>
    takeData p (samplesOut m s) s { s with obs := { s.obs with samples := s.obs.samples.drop m } }) s

end Sys2Proof.Machine
end

