-- ==== Sys2Proof/Machine/PowerCmds.lean ====
section
/-! DEFINITION. PowerCmds.lean: the commands and events of Power.lean, each in the present tick's open commit
window. -/
namespace Sys2Proof.Machine

/-- FOREGROUND_CAL_DONE. -/
def execForegroundCalDone (cv : Fin 16) (res : Vector SliceCal 68) (s : State) : Out :=
  clocked (foregroundDone cv.val res.toList) s

/-- GPIO_WAKE_EDGE: an edge of the sense PWR_WAKE_EDGE sets, on a GPIO that PWR_WAKE_GPIO enables. -/
def execGpioWakeEdge (gpio : Fin 16) (falling : Bool) (s : State) : Out :=
  live (fun s =>
    if bit (s.parN 0x1003 0) gpio.val && bit (s.parN 0x1004 0) gpio.val == falling then beginWake 3 gpio.val s else s) s

/-- WAKE_DONE. -/
def execWakeDone (s : State) : Out := live wakeDone s

/-- AVS_STEP. -/
def execAvsStep (up down ok : Bool) (s : State) : Out := clocked (avsStep up down ok) s

/-- TELEMETRY_READ. -/
def execTelemetryRead (reads : Vector RailIn 8) (s : State) : Out := clocked (telemetry reads.toList) s

/-- ALERT_N. -/
def execAlertN (faults : BitVec 8) (s : State) : Out := clocked (alertRead faults.toNat) s

/-- PMBUS_TRANSACTION_DONE. -/
def execPmbusTransactionDone (fails : Fin 4) (data : Bytes) (s : State) : Out := clocked (pmbusDone fails.val data) s

/-- TJ_READING. -/
def execTjReading (t : Int) (s : State) : Out := clocked (tjReading t) s

/-- PIN_CONTENTION: a driven push-pull pin reads back wrong for more than 1 µs. -/
def execPinContention (pin : Fin 19) (s : State) : Out :=
  clocked (fun s =>
    if drives s pin.val then
      raise 0xF6 (bump 80 (updPwr (fun p => { p with hiZ := setBit p.hiZ pin.val true }) s))
    else s) s

/-- OPEN_DRAIN_STUCK: pin 19 + `pin` reads high for more than 1 µs while driven low. -/
def execOpenDrainStuck (pin : Fin 5) (s : State) : Out :=
  clocked (fun s =>
    let n := 19 + pin.val
    if drivenLow s n && !bit s.pwr.stuck n then
      raise 0xF7 (bump 81 (updPwr (fun p => { p with stuck := setBit p.stuck n true }) s))
    else s) s

/-- PWR_STATUS. -/
def execPwrStatus (p : Packet) (s : State) : Out :=
  runCmd infoPwrStatus p (fun _ => none) (fun s => (.data (pwrStatusBytes s), s)) s

/-- PWR_SET. -/
def execPwrSet (p : Packet) (s : State) : Out :=
  let b := paramBytes p
  let t := byteAt b 0
  let c := byteAt b 1
  let want := if t = 3 then c else if t = 4 then 3 else 0
  runCmd infoPwrSet p
    (fun _ => firstOf [need (1 ≤ t && t ≤ 4) (badParam 0), need (t != 3 || c == 1 || c == 2) (badParam 1),
      need (byteAt b 2 < 2) (badParam 2)])
    (fun s =>
      if s.pwr.move.isSome then (.st stBusy, s)
      else if !movePermitted s t want || (t == 1 && parkBlocked s) then (.st stWrongState, s)
      else if 3 ≤ t ∧ 1150 ≤ s.pwr.tj then (.st 0x1103, s)
      else (.wait, updPwr (fun x => { x with move := some {
        target := t, want := want, source := x.state, had := runMask s, whisper := byteAt b 2 == 1,
        owner := some (packetKey p), started := s.elapsed } }) s)) s

/-- PWR_GATE. -/
def execPwrGate (p : Packet) (s : State) : Out :=
  let b := paramBytes p
  runCmd infoPwrGate p
    (fun _ => firstOf [need (byteAt b 0 ≤ 1) (badParam 0), need (byteAt b 1 == 0) (badParam 1)])
    (fun s =>
      let g := gateAsked p s
      if s.pwr.move.isSome then (.st stBusy, s)
      else
        match gateRefused s g with
        | some st => (.st st, s)
        | none => (.wait, updPwr (fun x => { x with gates := x.gates ++ [g] }) s)) s

/-- PIN_REARM. -/
def execPinRearm (p : Packet) (s : State) : Out :=
  let m := fld (paramBytes p) 0 4
  runCmd infoPinRearm p (fun _ => need (m < 2 ^ 19) (badParam 0))
    (fun s => (.ok, updPwr (fun x => { x with hiZ := x.hiZ - (x.hiZ &&& m) }) s)) s

/-- PMBUS_XFER. -/
def execPmbusXfer (p : Packet) (s : State) : Out :=
  let b := paramBytes p
  let a := byteAt b 0
  runCmd infoPmbusXfer p
    (fun _ => firstOf [need (a ≤ 127) (badParam 0), need (byteAt b 2 ≤ 5) (badParam 2), need (byteAt b 3 ≤ 32) (badParam 3)])
    (fun s =>
      if (railMap s).any fun e => e.2.1 == a && e.2.2 != 8 then (.st 0x1102, s)
      else (.wait, updPwr (fun x => { x with pmb := x.pmb ++ [{
        owner := packetKey p, addr := a, code := byteAt b 1, kind := byteAt b 2,
        data := slice b 4 (byteAt b 3) }] }) s)) s

end Sys2Proof.Machine
end

