-- ==== Sys2Proof/Machine/SpiCmds.lean ====
section
/-! DEFINITION. SpiCmds.lean: the commands and events of Spi.lean, each in the present tick's open commit
window. -/
namespace Sys2Proof.Machine

/-- An SPI transaction: in PARK its data is discarded, ERR is set and the device wakes (R467). -/
def spiAccess (f : State → State) (s : State) : Out :=
  live (fun s => if s.pwr.state = 1 then spiErr (beginWake 2 0 s) else f (beginWake 2 0 s)) s

/-- SPI_WRITE (0x02). -/
def execSpiWrite (addr : BitVec 32) (bytes : Bytes) (s : State) : Out :=
  spiAccess (fun s =>
    if addr.toNat < 2 ^ 31 then spiBusWrite (addr.toNat % 2 ^ 26) bytes s
    else mailboxStore (addr.toNat % 2 ^ 31) bytes s) s

/-- SPI_READ (0x0B). -/
def execSpiRead (addr : BitVec 32) (n : Nat) (s : State) : Out :=
  spiAccess (fun s =>
    if addr.toNat < 2 ^ 31 then withRead .spi (addr.toNat % 2 ^ 26) n s
    else mailboxLoad (addr.toNat % 2 ^ 31) n s) s

/-- SPI_STATUS_READ (0x05): returns the status byte and clears ERR. -/
def execSpiStatusRead (s : State) : Out :=
  spiAccess (fun s =>
    { s with
      sys := { s.sys with readOut := [byteOf (spiStatus s)] },
      cmd := { s.cmd with mb := { s.cmd.mb with err := false } } }) s

/-- MAILBOX_DOORBELL. -/
def execMailboxDoorbell (s : State) : Out := spiAccess mailboxDoorbell s

end Sys2Proof.Machine
end

