-- ==== Sys2Proof/Machine/RegistersCmds.lean ====
section
/-! DEFINITION. RegistersCmds.lean: the commands and events of Registers.lean, each in the present tick's open commit
window. -/
namespace Sys2Proof.Machine

/-- An access over PCIe: none while PERST_N is low; in PARK only a doorbell is decoded (R462, R497). -/
def overPcie (doorbell : Bool) (f : State → State) (s : State) : Out :=
  live (fun s => if s.sys.perst || (s.pwr.state == 1 && !doorbell) then s else f s) s

/-- SQ_TAIL. -/
def execSqTail (q : Fin 8) (v : BitVec 32) (s : State) : Out :=
  overPcie true (queueReady (writeSqTail q.val v.toNat)) s

/-- CQ_HEAD. -/
def execCqHead (q : Fin 8) (v : BitVec 32) (s : State) : Out :=
  overPcie true (queueReady (writeCqHead q.val v.toNat)) s

/-- QUEUE_ENABLE: a write of 1 to Q_CTRL. -/
def execQueueEnable (q : Fin 8) (s : State) : Out := overPcie false (queueReady (enableQueue q.val)) s

/-- QUEUE_DISABLE: a write of 0 to Q_CTRL. -/
def execQueueDisable (q : Fin 8) (s : State) : Out := overPcie false (queueReady (disableQueue q.val)) s

/-- Q_CFG. -/
def execQCfg (q : Fin 8) (v : BitVec 32) (s : State) : Out := overPcie false (queueReady (writeQCfg q.val v.toNat)) s

/-- STAGING_FIELD_WRITE. -/
def execStagingFieldWrite (q : Fin 8) (cq : Bool) (v : BitVec 32) (s : State) : Out :=
  overPcie false (queueReady (writeStaging q.val cq v.toNat)) s

/-- TRIGGER_FIELD_WRITE. -/
def execTriggerFieldWrite (q : Fin 8) (cq : Bool) (v : BitVec 32) (s : State) : Out :=
  overPcie false (queueReady (writeTrigger q.val cq v.toNat)) s

/-- SYS_LOCK. -/
def execSysLock (v : BitVec 32) (s : State) : Out := overPcie false (writeSysLock v.toNat) s

/-- BOOT_LOAD. -/
def execBootLoad (v : BitVec 32) (s : State) : Out := overPcie false (writeBootLoad v.toNat) s

/-- GPIO_OUT. -/
def execGpioOut (v : BitVec 32) (s : State) : Out := overPcie false (writeGpioOut v.toNat) s

/-- HARV_HEAD. -/
def execHarvHead (v : BitVec 32) (s : State) : Out := overPcie false (writeHarvHead v.toNat) s

/-- CNT_LO_READ: a 32-bit read of a counter's low word on a path. -/
def execCntLoRead (path : Path) (n : Fin 2048) (s : State) : Out :=
  match path with
  | .pcie => overPcie false (withRead .pcie (0x10000 + 8 * n.val) 4) s
  | .spi => spiAccess (withRead .spi (0x10000 + 8 * n.val) 4) s

/-- TICK_NOW_LO_READ: a 32-bit read of the tick number's low word on a path. -/
def execTickNowLoRead (path : Path) (s : State) : Out :=
  match path with
  | .pcie => overPcie false (withRead .pcie 0x018 4) s
  | .spi => spiAccess (withRead .spi 0x018 4) s

/-- EVT_MASK. -/
def execEvtMask (k : Fin 8) (v : BitVec 32) (s : State) : Out := overPcie false (writeEvtMask k.val v.toNat) s

/-- EVT_VEC. -/
def execEvtVec (k : Fin 64) (v : BitVec 32) (s : State) : Out := overPcie false (writeEvtVec k.val v.toNat) s

/-- REGISTER_WRITE: a bus write over PCIe anywhere in BAR0; `met` are the bits written to whose setting by the device in the
present tick falls into the write's own CORE cycle (R19). -/
def execRegisterWrite (addr : BitVec 26) (size : AccSize) (v : BusWrite) (s : State) : Out :=
  overPcie (addr.toNat / 4096 == 2) (busWriteMet size addr.toNat v.value.toNat v.met.toNat) s

/-- CQ_COMPLETION_WRITE: the oldest held completion of a queue is written once an entry is free (R71). -/
def execCqCompletionWrite (q : Fin 8) (s : State) : Out := clocked (writeHeld q.val) s

/-- COAL_TIME_EXPIRY. -/
def execCoalTimeExpiry (q : Fin 8) (s : State) : Out :=
  clocked (fun s => if coalDue s q.val then cqSignal q.val s else s) s

end Sys2Proof.Machine
end

