-- ==== Sys2Proof/Machine/RxLineCmds.lean ====
section
/-! DEFINITION. RxLineCmds.lean: the commands and events of RxLine.lean, each in the present tick's open commit
window. -/
namespace Sys2Proof.Machine

/-- SIGNAL_PRESENT. -/
def execSignalPresent (c : Line) (s : State) : Out := clocked (signalPresent c) s

/-- SIGNAL_LOST. -/
def execSignalLost (c : Line) (s : State) : Out := clocked (signalLost c) s

/-- CD_SCAN_DONE with the best coarse value and the three best fine ones: an event of the device where its scores say so. -/
def execCdScanDone (c : Line) (coarse : Int) (best : Vector Int 3) (s : State) : Out :=
  clocked (fun s => if scanFound (getRx s c) = (coarse, best.toList) then cdScanDone c s else s) s

/-- TIMING_LOCKED. -/
def execTimingLocked (c : Line) (s : State) : Out := clocked (timingLocked c) s

/-- EQUALISER_CONVERGED. -/
def execEqualiserConverged (c : Line) (s : State) : Out := clocked (eqConverged c) s

/-- TIMING_TIMEOUT. -/
def execTimingTimeout (c : Line) (s : State) : Out := clocked (timingTimeout c) s

/-- EQUALISE_TIMEOUT. -/
def execEqualiseTimeout (c : Line) (s : State) : Out := clocked (equaliseTimeout c) s

/-- ACQUISITION_TIMEOUT; where another transition of the tick may stop the timer, which goes first, it is left to the tick. -/
def execAcquisitionTimeout (c : Line) (s : State) : Out :=
  clocked (fun s => if mayStopTimer s c then s else acqTimeout c s) s

/-- FAS_LOCK. -/
def execFasLock (c : Line) (s : State) : Out := clocked (fasLock c) s

/-- LOCK_LOSS. -/
def execLockLoss (c : Line) (s : State) : Out := clocked (lockLoss c) s

/-- EQUALISER_CONVERGENCE_LOST. -/
def execEqualiserConvergenceLost (c : Line) (s : State) : Out := clocked (convergenceLost c) s

/-- MODE_REVERT_TIMEOUT. -/
def execModeRevertTimeout (c : Line) (s : State) : Out := clocked (modeRevert c) s

/-- RX_STATUS. -/
def execRxStatus (p : Packet) (s : State) : Out :=
  runCmd infoRxStatus p (fun _ => none) (fun s => (.data (rxStatusBytes s (pktLine p)), s)) s

/-- RX_ACQUIRE: timed, disruptive. -/
def execRxAcquire (p : Packet) (s : State) : Out :=
  runTimed infoRxAcquire p (fun _ => need (byteAt (paramBytes p) 0 ≤ 1) (badParam 0)) (fun _ => .disruptive) s

/-- RX_MEASURE. -/
def execRxMeasure (p : Packet) (s : State) : Out :=
  runCmd infoRxMeasure p (fun _ => none) (fun s => (.data (rxMeasureBytes s (pktLine p)), s)) s

/-- RX_TAP_DUMP. -/
def execRxTapDump (p : Packet) (s : State) : Out :=
  runCmd infoRxTapDump p (fun _ => none) (fun s =>
    let c := pktLine p
    if !lockInd s c then (.st 0x1403, s)
    else
      (.data (tapBytes s c), s)) s

/-- RX_CAPTURE: immediate with at-tick 0, else timed and local; answered once its samples are taken. -/
def execRxCapture (p : Packet) (s : State) : Out :=
  if p.atTick = 0 then runCmd infoRxCapture p (chkRxCapture p) (fun s => (.wait, captureOpen p s)) s
  else runTimed infoRxCapture p (chkRxCapture p) (fun _ => .local_) s

end Sys2Proof.Machine
end

