-- ==== Sys2Proof/Machine/SeqCmds.lean ====
section
/-! DEFINITION. SeqCmds.lean: the commands and events of Seq.lean, each in the present tick's open commit
window. -/
namespace Sys2Proof.Machine

/-- SEQ_END (op 0x00). -/
def execSeqEnd (c : Line) (d : Dir) (s : State) : Out :=
  clocked (seqStep 0x00 c d (seqEnd c d)) s

/-- SEQ_LDI (op 0x01). -/
def execSeqLdi (c : Line) (d : Dir) (s : State) : Out :=
  clocked (seqStep 0x01 c d (seqLdi c d)) s

/-- SEQ_LDH (op 0x02). -/
def execSeqLdh (c : Line) (d : Dir) (s : State) : Out :=
  clocked (seqStep 0x02 c d (seqLdh c d)) s

/-- SEQ_ADD (op 0x03). -/
def execSeqAdd (c : Line) (d : Dir) (s : State) : Out :=
  clocked (seqStep 0x03 c d (seqAdd c d)) s

/-- SEQ_ADDI (op 0x04). -/
def execSeqAddi (c : Line) (d : Dir) (s : State) : Out :=
  clocked (seqStep 0x04 c d (seqAddi c d)) s

/-- SEQ_AND (op 0x05). -/
def execSeqAnd (c : Line) (d : Dir) (s : State) : Out :=
  clocked (seqStep 0x05 c d (seqAnd c d)) s

/-- SEQ_OR (op 0x06). -/
def execSeqOr (c : Line) (d : Dir) (s : State) : Out :=
  clocked (seqStep 0x06 c d (seqOr c d)) s

/-- SEQ_XOR (op 0x07). -/
def execSeqXor (c : Line) (d : Dir) (s : State) : Out :=
  clocked (seqStep 0x07 c d (seqXor c d)) s

/-- SEQ_SHL (op 0x08). -/
def execSeqShl (c : Line) (d : Dir) (s : State) : Out :=
  clocked (seqStep 0x08 c d (seqShl c d)) s

/-- SEQ_SHR (op 0x09). -/
def execSeqShr (c : Line) (d : Dir) (s : State) : Out :=
  clocked (seqStep 0x09 c d (seqShr c d)) s

/-- SEQ_LDT (op 0x0A). -/
def execSeqLdt (c : Line) (d : Dir) (s : State) : Out :=
  clocked (seqStep 0x0A c d (seqLdt c d)) s

/-- SEQ_LDP (op 0x0B). -/
def execSeqLdp (c : Line) (d : Dir) (s : State) : Out :=
  clocked (seqStep 0x0B c d (seqLdp c d)) s

/-- SEQ_LDS (op 0x0C). -/
def execSeqLds (c : Line) (d : Dir) (s : State) : Out :=
  clocked (seqStep 0x0C c d (seqLds c d)) s

/-- SEQ_STS (op 0x0D). -/
def execSeqSts (c : Line) (d : Dir) (s : State) : Out :=
  clocked (seqStep 0x0D c d (seqSts c d)) s

/-- SEQ_RDB (op 0x0E). -/
def execSeqRdb (c : Line) (d : Dir) (s : State) : Out :=
  clocked (seqStep 0x0E c d (seqRdb c d)) s

/-- SEQ_WRB (op 0x0F). -/
def execSeqWrb (c : Line) (d : Dir) (s : State) : Out :=
  clocked (seqStep 0x0F c d (seqWrb c d)) s

/-- SEQ_CRC8 (op 0x10). -/
def execSeqCrc8 (c : Line) (d : Dir) (s : State) : Out :=
  clocked (seqStep 0x10 c d (seqCrc8 c d)) s

/-- SEQ_SKEQ (op 0x11). -/
def execSeqSkeq (c : Line) (d : Dir) (s : State) : Out :=
  clocked (seqStep 0x11 c d (seqSkip c d (· == ·))) s

/-- SEQ_SKNE (op 0x12). -/
def execSeqSkne (c : Line) (d : Dir) (s : State) : Out :=
  clocked (seqStep 0x12 c d (seqSkip c d (· != ·))) s

/-- SEQ_SKLT (op 0x13). -/
def execSeqSklt (c : Line) (d : Dir) (s : State) : Out :=
  clocked (seqStep 0x13 c d (seqSkip c d (fun a b => decide (a < b)))) s

/-- SEQ_CNT (op 0x14). -/
def execSeqCnt (c : Line) (d : Dir) (s : State) : Out :=
  clocked (seqStep 0x14 c d (seqCnt c d)) s

/-- SEQ_EVT (op 0x15). -/
def execSeqEvt (c : Line) (d : Dir) (s : State) : Out :=
  clocked (seqStep 0x15 c d (seqEvt c d)) s

end Sys2Proof.Machine
end

