-- ==== Sys2Proof/Machine/SolsticeCmds.lean ====
section
/-! DEFINITION. SolsticeCmds.lean: the commands and events of Solstice.lean, each in the present tick's open commit
window. -/
namespace Sys2Proof.Machine

/-- SOLSTICE_ARM: PREPARED to ARMED, with an entry of the timed-action table. -/
def execSolsticeArm (p : Packet) (s : State) : Out :=
  let h := byteAt (paramBytes p) 0
  command 0x0014 p
    (fun s => firstOf [checks infoSolsticeArm p (fun s => firstOf [checkHandle h p.q.val s, checkPrepared h s]) s,
      checkTimed (solClass s h) p s])
    (fun s => setSol h .armed (schedule 0x0014 p (.solstice h) (solClass s h) s)) s

end Sys2Proof.Machine
end

