-- ==== Sys2Proof/Machine/StewardCmds.lean ====
section
/-! DEFINITION. StewardCmds.lean: the commands and events of Steward.lean, each in the present tick's open commit
window. -/
namespace Sys2Proof.Machine

/-- PAGE_REQUEST_TIMEOUT. -/
def execPageRequestTimeout (s : State) : Out := clocked pageTimeout s

/-- ENGINE_SELF_TEST. -/
def execEngineSelfTest (e : Fin 256) (pass : Bool) (s : State) : Out :=
  clocked (fun s => if engTestDue s e.val then engTested e.val pass s else s) s

/-- STW_STATUS. -/
def execStwStatus (p : Packet) (s : State) : Out :=
  runCmd infoStwStatus p (fun _ => none) (fun s => (.data (stwStatusBytes s), s)) s

/-- TEN_STATUS. -/
def execTenStatus (p : Packet) (s : State) : Out :=
  let t := byteAt (paramBytes p) 16
  runCmd infoTenStatus p (fun _ => okTen 16 t) (whileOn t fun s => (.data (tenStatusBytes s t), s)) s

/-- ENG_IMAGE_LOAD, with the bytes read from host memory; fewer than the length asked for when a read failed twice
(R82). -/
def execEngImageLoad (p : Packet) (img : Bytes) (s : State) : Out :=
  let b := paramBytes p
  let n := fld b 8 4
  let t := byteAt b 12
  runCmd infoEngImageLoad p
    (fun _ => firstOf [need (76 ≤ n && n ≤ 65696) (badParam 8), okHostTen 12 t, need (rsv b 13 16) (badParam 13)])
    (whileActive t fun s =>
      if img.length ≠ n then (.st stTimeout, s)
      else
        let st := imgStatus s img
        if st ≠ 0 then (.st st, s)
        else (.wait, updStw (fun x => { x with loads := x.loads ++ [(packetKey p, t, img)] }) s)) s

/-- ENG_IMAGE_FREE. -/
def execEngImageFree (p : Packet) (s : State) : Out :=
  let h := fld (paramBytes p) 0 2
  runCmd infoEngImageFree p (fun s => need (imageOf s h).isSome (badParam 0))
    (fun s =>
      match imageOf s h with
      | none => (.ok, s)
      | some im =>
        if fld (s.par 0xD009 (0xC0 + im.tenant)) 0 2 = h then (.st stBusy, s)
        else (.ok, im.pages.foldl leavePg (updStw (fun x => { x with images := x.images.filter (·.handle != h) }) s))) s

/-- STW_PAGE_ALLOC. -/
def execStwPageAlloc (p : Packet) (s : State) : Out :=
  let b := paramBytes p
  let t := byteAt b 16
  let fl := byteAt b 17
  let k := fld b 18 2
  runCmd (infoStwPageAlloc (fl.testBit 0)) p
    (fun _ => firstOf [okHostTen 16 t, need (fl < 4) (badParam 17), need (1 ≤ k && k ≤ 4096) (badParam 18)])
    (whileActive t fun s =>
      if tenN s 0xD005 t < heldCount s t + k then (.st 0x1D02, s)
      else (.wait, updStw (fun x => { x with
        reqs := x.reqs ++ [{ owner := packetKey p, tenant := t, n := k, wait := fl.testBit 0, consec := fl.testBit 1,
                             order := s.cmd.acceptNo, at_ := s.elapsed }] }) s)) s

/-- STW_PAGE_FREE. -/
def execStwPageFree (p : Packet) (s : State) : Out :=
  let b := paramBytes p
  let t := byteAt b 0
  let n := fld b 2 2
  let gs := pagesNamed b
  runCmd infoStwPageFree p
    (fun _ => firstOf [need (b.length == 4 + 2 * n) { step := 8, st := stBadLength, detail := 4 + 2 * n },
      okHostTen 0 t, need (byteAt b 1 == 0) (badParam 1)])
    (whileActive t fun s =>
      if gs.any fun g => (getPg s g).owner != some t then (.st 0x1D05, s)
      else if gs.any fun g => ringPage s t g || (getPg s g).image
          || (List.range 16).any (fun c => (getCh s c).run.isSome && (getCh s c).pages.contains g) then (.st stBusy, s)
      else (.ok, gs.foldl leavePg s)) s

/-- STW_RENEW. -/
def execStwRenew (p : Packet) (s : State) : Out :=
  let t := byteAt (paramBytes p) 0
  runCmd infoStwRenew p (fun _ => okHostTen 0 t) (whileActive t fun s => (.ok, renew t s)) s

/-- STW_DMA_GRANT. -/
def execStwDmaGrant (p : Packet) (s : State) : Out :=
  let t := byteAt (paramBytes p) 0
  runPool infoStwDmaGrant p (fun _ => okHostTen 0 t) (fun s => (freeCh s).isSome)
    (whileActive t fun s =>
      if tenN s 0xD006 t ≤ (heldChs s t).length then (.st 0x1D02, s)
      else
        match freeCh s with
        | none => (.st stNoResource, s)
        | some n => (.ok n, updCh n (fun x => { x with tenant := some t }) s)) s

/-- STW_DMA_RELEASE. -/
def execStwDmaRelease (p : Packet) (s : State) : Out :=
  let n := byteAt (paramBytes p) 0
  runCmd infoStwDmaRelease p (fun _ => need (n ≤ 15) (badParam 0))
    (fun s =>
      if (getCh s n).tenant.isNone then (.st 0x1D05, s)
      else if (getCh s n).run.isSome then (.st stBusy, s)
      else (.ok, updCh n (fun x => { x with tenant := none }) s)) s

/-- TENANT_REVOKE. -/
def execTenantRevoke (p : Packet) (s : State) : Out :=
  let t := byteAt (paramBytes p) 0
  runCmd infoTenantRevoke p (fun _ => okHostTen 0 t)
    (whileOn t fun s =>
      (.wait, updStw (fun x => { x with revokes := x.revokes ++ [(some (packetKey p), t, false)] }) s)) s

/-- STW_QUARANTINE. -/
def execStwQuarantine (p : Packet) (s : State) : Out :=
  let t := byteAt (paramBytes p) 0
  runCmd infoStwQuarantine p (fun _ => okHostTen 0 t)
    (whileOn t fun s =>
      (.wait, updStw (fun x => { x with revokes := x.revokes ++ [(some (packetKey p), t, true)] }) s)) s

/-- STW_RELEASE. -/
def execStwRelease (p : Packet) (s : State) : Out :=
  let t := byteAt (paramBytes p) 0
  runCmd infoStwRelease p (fun _ => okHostTen 0 t)
    (fun s =>
      if (getTen s t).st = .quarantined then (.ok, raise 0xD4 (updTen t (fun x => { x with st := .active }) s))
      else (.st stWrongState, s)) s

/-- ENG_TEST. -/
def execEngTest (p : Packet) (s : State) : Out :=
  let e := byteAt (paramBytes p) 0
  runCmd infoEngTest p (fun _ => none)
    (fun s =>
      if engUsable s e then
        (.wait, updStw (fun x => { x with tests := x.tests ++ [(packetKey p, e)], tested := setBit x.tested e false }) s)
      else (.st stWrongState, s)) s

end Sys2Proof.Machine
end

