-- ==== Sys2Proof/Machine/StoreCmds.lean ====
section
/-! DEFINITION. StoreCmds.lean: the commands and events of Store.lean, each in the present tick's open commit
window. -/
namespace Sys2Proof.Machine

/-- MERGE_FLUSH_TIMEOUT. -/
def execMergeFlushTimeout (s : State) : Out := clocked mergeTimeout s

/-- FALLOW_RECORD_WRITTEN. -/
def execFallowRecordWritten (ok : Bool) (s : State) : Out := clocked (fallowWritten ok) s

/-- ZEROISE_DONE. -/
def execZeroiseDone (page : Fin 32768) (s : State) : Out := clocked (zeroiseDone page.val) s

/-- QUARANTINE_TEST. -/
def execQuarantineTest (page : Fin 32768) (ones zeros : Nat) (s : State) : Out := clocked (quarTest page.val ones zeros) s

/-- PERIODIC_SCRUB. -/
def execPeriodicScrub (s : State) : Out := clocked periodicScrub s

/-- STORE_STATUS. -/
def execStoreStatus (p : Packet) (s : State) : Out :=
  runCmd infoStoreStatus p (fun _ => none) (fun s => (.data (storeStatusBytes s), s)) s

/-- STORE_SCRUB. -/
def execStoreScrub (p : Packet) (s : State) : Out :=
  let b := paramBytes p
  let f := fld b 16 2
  let n := fld b 18 2
  runCmd infoStoreScrub p
    (fun _ => firstOf [need (f ≤ 32767) (badParam 16), need (1 ≤ n && n ≤ 32768 && f + n ≤ 32768) (badParam 18)])
    (fun s => (.wait, updStr (fun x => { x with
      scrubs := x.scrubs ++ [{ owner := some (packetKey p), first := f, count := n, began := s.tick }] }) s)) s

/-- STORE_FALLOW. -/
def execStoreFallow (p : Packet) (s : State) : Out :=
  let b := paramBytes p
  let n := fld b 0 2
  let gs := ((List.range n).map fun i => fld b (2 + 2 * i) 2).eraseDups
  runCmd infoStoreFallow p
    (fun _ => firstOf ([need (1 ≤ n && n ≤ 64) (badParam 0),
        need (b.length == 2 + 2 * n) { step := 8, st := stBadLength, detail := 2 + 2 * n }]
      ++ (List.range n).map fun i => need (fld b (2 + 2 * i) 2 ≤ 32767) (badParam (2 + 2 * i))))
    (fun s =>
      let s := gs.foldl (fun s g =>
        if (getPg s g).owner.isSome then setPg g { getPg s g with marked := true } s
        else if (getPg s g).zero.isSome then setPg g { getPg s g with marked := true } s else s) s
      let now := gs.filter fun g =>
        let q := getPg s g
        q = {} || (q.quar.isSome && !q.fallow && !q.fallowing)
      if now.isEmpty then (.ok, s)
      else
        let (full, s) := startFallow (some (packetKey p)) now s
        if full then (.st 0x1E03, s) else (.wait, s)) s

/-- STORE_FLUSH. -/
def execStoreFlush (p : Packet) (s : State) : Out :=
  runCmd infoStoreFlush p (fun _ => none) (fun s => (.ok, flushAll 2 s)) s

/-- STORE_INJECT. -/
def execStoreInject (p : Packet) (s : State) : Out :=
  let b := paramBytes p
  let g := fld b 0 2
  let n := byteAt b 2
  runCmd infoStoreInject p
    (fun _ => firstOf [need (g ≤ 32767) (badParam 0), need (1 ≤ n && n ≤ 64) (badParam 2), need (byteAt b 3 == 0) (badParam 3)])
    (fun s =>
      let q := getPg s g
      if q = {} || q.owner.isSome then
        (.ok, updStr (fun x => { x with inject := SMap.put 0 x.inject g (SMap.get 0 x.inject g + n) }) s)
      else (.st stWrongState, s)) s

end Sys2Proof.Machine
end

