-- ==== Sys2Proof/Machine/SystemCmds.lean ====
section
/-! DEFINITION. SystemCmds.lean: the commands and events of System.lean, each in the present tick's open commit
window. -/
namespace Sys2Proof.Machine

/-- NOP, timed with a nonzero at-tick; a packet whose opcode no row of the table assigns completes with BAD_OPCODE (R81
step 6). An opcode of another row has no part here. -/
def execNop (op : BitVec 16) (p : Packet) (s : State) : Out :=
  let o := op.toNat
  if o = 0 then
    (if p.atTick = 0 then runCmd infoNop p (fun _ => none) (fun s => (.ok, s)) s
     else runTimed infoNop p (fun _ => none) (fun _ => .local_) s)
  else if assigned.contains o then .fault .illFormed
  else command o p (fun _ => some { step := 6, st := stBadOpcode }) id s

/-- IDENTIFY. -/
def execIdentify (p : Packet) (s : State) : Out :=
  runCmd infoIdentify p (fun _ => none) (fun s => (.data (identifyBytes s), s)) s

/-- STATE_GET. -/
def execStateGet (p : Packet) (s : State) : Out :=
  runCmd infoStateGet p (fun _ => none) (fun s => (.ok (stateWord s p.q.val), s)) s

/-- SESSION_OPEN. -/
def execSessionOpen (p : Packet) (s : State) : Out :=
  let q := p.q.val
  command 0x0003 p
    (fun s => firstOf [need (getSess s q).isNone { step := 7, st := stWrongState },
      checks infoSessionOpen p (fun _ => none) s])
    (runNow infoSessionOpen p fun s => (.ok q, setSess q (some {}) s)) s

/-- SESSION_CLOSE. -/
def execSessionClose (p : Packet) (s : State) : Out :=
  runCmd infoSessionClose p (fun _ => none) (fun s => (.ok, endSession p.q.val s)) s

/-- EXPERT_ENABLE. -/
def execExpertEnable (p : Packet) (s : State) : Out :=
  let q := p.q.val
  let v := byteAt (paramBytes p) 0
  runCmd infoExpertEnable p (fun _ => need (v ≤ 1) (badParam 0)) (fun s =>
    (.ok, setSess q ((getSess s q).map fun x => { x with expert := v == 1 }) s)) s

/-- PARAM_GET. -/
def execParamGet (p : Packet) (s : State) : Out :=
  let b := paramBytes p
  let q := p.q.val
  runCmd infoParamGet p
    (fun s => firstOf ([need (byteAt b 16 ≤ 1) (badParam 16), need (rsv b 17 20) (badParam 17)]
      ++ (entryOffs b).map (checkEntry (expertOf s q) b)))
    (fun s => (.data ((entryOffs b).flatMap fun o =>
      valueRecord (fld b o 2) (byteAt b (o + 2)) (viewValue s q (byteAt b 16) (fld b o 2) (byteAt b (o + 2)))), s)) s

/-- PARAM_SET. -/
def execParamSet (p : Packet) (s : State) : Out :=
  let b := paramBytes p
  let q := p.q.val
  runCmd infoParamSet p (fun s => checkRecords (expertOf s q) s.sys.locked b (b.length / 8 + 1) 0)
    (fun s => (.ok, setSess q ((getSess s q).map fun x => { x with shadow := enterRecords b (b.length / 8) 0 x.shadow }) s)) s

/-- COMMIT: seals the shadow into a set bound to one tick. -/
def execCommit (p : Packet) (s : State) : Out :=
  let q := p.q.val
  command 0x0012 p
    (fun s =>
      let recs := shadowOf s q
      let (t, cls) := placeSet s p recs
      let v := tableApply (viewAt s t fun _ => true) recs
      firstOf [checks infoCommit p (fun s => checkSet s v recs) s, checkTimed cls p s])
    (fun s =>
      let recs := shadowOf s q
      clearShadow q (schedule 0x0012 p (.commit recs) (placeSet s p recs).2 s)) s

/-- SOLSTICE_PREPARE. -/
def execSolsticePrepare (p : Packet) (s : State) : Out :=
  let q := p.q.val
  command 0x0013 p
    (fun s =>
      let recs := shadowOf s q
      firstOf [checks infoSolsticePrepare p (fun s => checkSet s (tableApply s.params recs) recs) s,
        need (s.cmd.sols.length < 8) { step := 12, st := stNoResource }])
    (runNow infoSolsticePrepare p fun s =>
      let recs := shadowOf s q
      let cls := setClass s.params recs
      let h := freeHandle s
      let x : Solstice := { handle := h, owner := some q, recs := recs, cls := cls }
      (.ok (h + 16 * classCode cls + 256 * (earliest cls s.tick % 2 ^ 56)),
        clearShadow q { s with cmd := { s.cmd with sols := s.cmd.sols ++ [x] } })) s

/-- SOLSTICE_CANCEL. -/
def execSolsticeCancel (p : Packet) (s : State) : Out :=
  let h := byteAt (paramBytes p) 0
  runCmd infoSolsticeCancel p (checkHandle h p.q.val) (fun s =>
    match findSol s h with
    | none => (.st stBadParam, s)
    | some x =>
      match x.st, solEntry s h with
      | .prepared, _ => (.ok, freeSol h s)
      | .armed, some e => (.ok, cancelEntry e s)
      | _, _ => (.st stWrongState, s)) s

/-- TIMED_LIST. -/
def execTimedList (p : Packet) (s : State) : Out :=
  let b := paramBytes p
  let key : CmdKey := { q := byteAt b 17, tag := fld b 18 2, seq := fld b 20 2 }
  runCmd infoTimedList p (fun _ => need (byteAt b 16 ≤ 1) (badParam 16)) (fun s =>
    let es := execOrder (s.cmd.entries.filter (·.tabled))
    if byteAt b 16 = 0 then (.data (le 4 es.length ++ (es.drop (fld b 22 2)).flatMap entryRecord), s)
    else
      match es.find? fun e => packetKey e.p == key with
      | none => (.st stBadParam 17, s)
      | some e => if e.frozen then (.st stWrongState, s) else (.ok, cancelEntry e s)) s

/-- FW_UPDATE, with the bytes read from host memory; fewer than the length asked for when a read failed twice (R82). -/
def execFwUpdate (p : Packet) (chunk : Bytes) (s : State) : Out :=
  let b := paramBytes p
  let q := p.q.val
  let off := fld b 8 4
  let n := fld b 12 4
  runCmd infoFwUpdate p
    (fun _ => firstOf [need (off + n ≤ 0x400000) (badParam 8), need (1 ≤ n && n ≤ 262144) (badParam 12),
      need (byteAt b 16 ≤ 1) (badParam 16)])
    (fun s =>
      if (s.flash.updateBy.any (· != q)) then (.st stBusy, s)
      else if off ≠ 0 ∧ (s.flash.updateBy.isNone ∨ s.flash.updateNext ≠ off) then (.st stBadParam 8, s)
      else if chunk.length ≠ n then (.st stTimeout, s)
      else
        let s := chunkTaken q off n s
        (.wait, flashAdd (chunkOp p off (byteAt b 16) chunk s) s)) s

/-- FW_ACTIVATE. -/
def execFwActivate (p : Packet) (s : State) : Out :=
  let w := byteAt (paramBytes p) 0
  runCmd infoFwActivate p (fun _ => need (w ≤ 1) (badParam 0)) (fun s =>
    let i := inactiveSlot s
    if (s.flash.slots.getD i {}).st ≠ .valid then (.st stWrongState, s)
    else (.wait, flashAdd { kind := .bootRecord, owner := some (packetKey p), aux := i, aux2 := w } s)) s

/-- FLASH_STATUS. -/
def execFlashStatus (p : Packet) (s : State) : Out :=
  runCmd infoFlashStatus p (fun _ => none) (fun s => (.data (flashStatusBytes s), s)) s

/-- WATCHDOG_EXPIRY: a core misses its heartbeat for 100 ms. -/
def execWatchdogExpiry (_core : Fin 4) (s : State) : Out :=
  clocked (fun s => if s.sys.fwRunning then restartFirmware none (raise 0x01 s) else s) s

/-- FW_RESTART_DONE. -/
def execFwRestartDone (s : State) : Out := clocked restartDone s

/-- FLASH_OP_DONE: a write of a firmware chunk or a boot record ends, `ok` unless its third attempt failed too. -/
def execFlashOpDone (ok : Bool) (s : State) : Out := clocked (flashDone ok) s

/-- COMMAND_DEADLINE. -/
def execCommandDeadline (q : Fin 9) (tag : BitVec 12) (seq : BitVec 16) (s : State) : Out :=
  clocked (deadlineHit (keyOf q tag seq)) s

/-- LATE_RESULT. -/
def execLateResult (q : Fin 9) (tag : BitVec 12) (seq : BitVec 16) (s : State) : Out :=
  clocked (lateResult (keyOf q tag seq)) s

/-- PCIE_READ_TIMEOUT: of the entry's header, or of the parameter buffer of the packet given with its opcode. -/
def execPcieReadTimeout (q : Fin 8) (hdr : Option (BitVec 16 × Packet)) (again : Bool) (s : State) : Out :=
  clocked (readTimeout q.val hdr again) s

/-- PCIE_LATE_CPL: the first read's completion comes after its retry was issued, and is discarded. -/
def execPcieLateCpl (q : Fin 8) (s : State) : Out :=
  clocked (fun s =>
    let r := (getQ s q.val).retry
    if r = .again ∨ r = .last then
      raise 0x04 (sysErr 6 (bump 25 (updQ q.val (fun u => { u with retry := if r = .again then .late else .none_ }) s)))
    else s) s

end Sys2Proof.Machine
end

