-- ==== Sys2Proof/Machine/RxDsp.lean ====
section
/-! DEFINITION. RxDsp.lean: the receive DSP of a carrier: from the ADC codes of a tick to the frames the demapper takes
(R138, R139, R142 to R150, R162). -/
namespace Sys2Proof.Machine

/-! ## Frame boundaries at the stages (R40, R41, R109, R136, R159) -/

/-- A carrier's symbols per tick. -/
def rxN (s : State) (c : Line) : Nat := s.parN 0x4000 c.inst

/-- Where frames begin, counted modulo N, as far as an alignment is known: the boundary fixed in IF, else the place of the alignment
sequence last found. -/
def rxBase (s : State) (c : Line) : Option Nat :=
  if (getFrm s c).inF then (getFrm s c).pos else (getRx s c).align.at_

/-- The symbol of this tick that begins a frame, were it long enough. -/
def nextStart (s : State) (c : Line) : Option Nat :=
  let n := max 1 (rxN s c)
  (rxBase s c).map fun b => (b + n - (getRx s c).align.symNo % n) % n

/-- Where each stage switches in a tick: the symbol from the equaliser on and at timing recovery, the sample at the matched filter, the
CD filter and the front end. -/
structure Cuts where
  eq : Nat := 0
  tr : Nat := 0
  mf : Nat := 0
  cd : Nat := 0
  fe : Nat := 0

/-- The places of the first symbol of the frame that begins at symbol `k`, each as much before the next as the next delays it: 24
symbols in the equaliser, 2 and 20 samples, half the length of the CD filter. DESIGN CHOICE: with no alignment known a stage
switches at the tick's first sample. -/
def cutsAt (n : Nat) : Option Nat → Cuts
  | none => {}
  | some k =>
    let size := max 1 (samplesOf n)
    let before (d x : Nat) : Nat := (x + size - d % size) % size
    let tr := (k + n - 24) % max 1 n
    let mf := before 2 (samplesOf tr)
    let cd := before 20 mf
    { eq := k, tr := tr, mf := mf, cd := cd, fe := before (cdLength 1 / 2) cd }

/-- Is the frame that begins at sample `x` of a stage the one after the frame that begins at the equaliser? -/
def Cuts.apart (k : Cuts) (x : Nat) : Bool := samplesOf k.eq < x

/-- Some lanes under the old configuration and, from entry `k` on, under the new one. -/
def spliced (k : Nat) (old new : List (List Rat)) : List (List Rat) := (old.zip new).map fun x => x.1.take k ++ x.2.drop k

/-- The tick of the frame that begins at the equaliser next: the stages ahead of frame alignment count on from the last frame whose
overhead was read (R136). -/
def nextFrameTick (s : State) (c : Line) : Nat :=
  let r := getRx s c
  let f := getFec s c
  (getFrm s c).frameTick + f.ready.length + f.prev.frames.length + f.cur.frames.length + r.frames.length + r.starts.length + 1

/-- The accepted announcement for a frame tick, where frames are counted (R136). -/
def annFor (s : State) (c : Line) (ft : Nat) : Option Ann :=
  let f := getFrm s c
  if f.inF && f.counted then f.anns.find? fun a => a.t == ft && a.st == .accepted else none

/-- The receive mode of the frame that begins next, with its source (R136, R137). -/
def modeNext (s : State) (c : Line) : RxMode × Nat :=
  let r := getRx s c
  match annFor s c (nextFrameTick s c) with
  | some a => (annMode a.content, 2)
  | none => r.modeDue.getD (r.mode, r.modeSrc)

/-- The receive mode of the frame after that one. -/
def modeAfter (s : State) (c : Line) : RxMode :=
  match annFor s c (nextFrameTick s c + 1) with
  | some a => annMode a.content
  | none => (modeNext s c).1

/-- The frame that begins next has begun: its receive mode is in force (R136, R137, R179). -/
def modeTaken (c : Line) (s : State) : State :=
  let ft := nextFrameTick s c
  let (m, src) := modeNext s c
  let known := annFor s c ft
  let s := updRx c (fun r => { r with
    mode := m, modeSrc := src, modeDue := none,
    starts := r.starts ++ [{ mode := m, window := s.parN 0x4060 c.inst, slipErase := s.parN 0x4061 c.inst == 1 }] }) s
  match known with
  | none => s
  | some a => updFrm c (fun f => { f with anns := f.anns.map fun x => if x = a then { x with switched := true } else x }) s

/-- The configuration the stages take at the frame boundaries of a tick. -/
def rxCfgNow (s : State) (c : Line) (roll : Nat) : RxCfg :=
  let r := getRx s c
  let i := c.inst
  { fe := r.fe, cd := r.cdFilter, cdFreq := s.parN 0x4026 i, bw := s.parN 0x4040 i, roll := roll, mimo := s.parN 0x4050 i,
    taps := s.parN 0x4051 i, mu := s.parI 0x4052 i, window := s.parN 0x4060 i, slipErase := s.parN 0x4061 i == 1 }

/-! ## Ahead of the equaliser (R135, R138, R139, R142) -/

/-- What filter `n` (0 skew, 1 dispersion, 2 matched filter, 3 timing recovery, 4 equaliser) holds of lane `i`. -/
def Rx.inHeld (r : Rx) (n i : Nat) : List Rat := r.hist.getD (4 * n + i) []

/-- What a filter over `k` samples holds of its lanes after a tick. -/
def Rx.keeps (r : Rx) (n k : Nat) (l : List (List Rat)) : List (List Rat) :=
  l.zipIdx.map fun x => lastN k (List.replicate k 0 ++ r.inHeld n x.2 ++ x.1)

/-- The lanes with their DC removed. DESIGN CHOICE: the DC of a lane is its mean over the tick. -/
def dcFree (adc : List (List Int)) : List (List Rat) :=
  adc.map fun l => let d := ratMean (l.map fun (v : Int) => (v : Rat)); l.map fun (v : Int) => (v : Rat) - d

/-- Lanes delayed, Q corrected against I (R138). -/
def feOut (g : RxCfg) (r : Rx) (c : Line) (n : Nat) (x : List (List Rat)) : List (List Rat) :=
  let fe (pid inst : Nat) : Int := SMap.get 0 g.fe (pkey pid inst)
  let y := (x.zip (lanesOf c)).zipIdx.map fun x => fir (delayTaps n (fe 0x420C x.1.2)) (r.inHeld 0 x.2) x.1.1
  ((polsOf c).zipIdx).flatMap fun p =>
    let (a, b) := iqAdjust (fe 0x420D p.1) (fe 0x420E p.1) (y.getD (2 * p.2) []) (y.getD (2 * p.2 + 1) [])
    [a, b]

/-- The dispersion taken out again: the filter's is the opposite one (R139). -/
def cdOut (g : RxCfg) (r : Rx) (n : Nat) (x : List (List Rat)) : List (List Rat) :=
  let taps := cdTaps 1 (-g.cd) g.cdFreq n
  [0, 2].flatMap fun i =>
    let (a, b) := firC taps (r.inHeld 1 i) (r.inHeld 1 (i + 1)) (x.getD i []) (x.getD (i + 1) [])
    [a, b]

/-- The matched filter of the receive mode's roll-off (R135), over 41 samples. -/
def mfOut (g : RxCfg) (r : Rx) (x : List (List Rat)) : List (List Rat) :=
  let taps := (List.range 41).map fun (k : Nat) => rrc g.roll (((k : Int) - 20 : Int) * 64 / 77)
  x.zipIdx.map fun l => fir taps (r.inHeld 2 l.2) l.1

/-- Timing recovery on its way through a tick: as held between ticks, the values of each symbol and half a symbol on, newest first,
the timing errors. -/
structure TrRun where
  t : RxTr
  out : List (List Rat × List Rat) := []
  err : List Rat := []

/-- The value between samples by the cubic through the four around; `x` counts samples from the list's first. -/
def cubicAt (l : Array Rat) (x : Rat) : Rat :=
  let m := x.floor
  let u := x - m
  let v (k : Int) : Rat := if m + k < 0 then 0 else l.getD (m + k).toNat 0
  (u + 1) * (u - 1) * (u - 2) / 2 * v 0 - u * (u - 1) * (u - 2) / 6 * v (-1) - (u + 1) * u * (u - 2) / 2 * v 1
    + (u + 1) * u * (u - 1) / 6 * v 2

/-- The gains of the timing loop for a bandwidth in 100 kHz at `n` symbols in a tick, and the slope of its error at a roll-off: a
critically damped loop of the second order. DESIGN CHOICE (log entry 171): the specification gives the bandwidth only. -/
def trGain (g : RxCfg) (n : Nat) : Rat × Rat :=
  let th : Rat := (g.bw : Rat) / 5 / (n : Nat) / (5 / 4)
  let b : Rat := (g.roll : Rat) / 100
  let slope := 2 * (cosSin (90 * b)).2 / (1 - b * b / 4)
  (4 * th / (1 + th) ^ 2 / slope, 4 * th ^ 2 / (1 + th) ^ 2 / slope)

/-- A number held within a limit on both sides. -/
def clampR (m x : Rat) : Rat := if x < -m then -m else if m < x then m else x

/-- One symbol of timing recovery (R142): its samples are interpolated; the error, what lies half a symbol before it against the step
from the last symbol, moves phase and rate. The rate stays within ±200 ppm. `lanes` begin 8 samples before the tick. -/
def trStep (gain : Nat → Rat × Rat) (power : Rat) (lanes : List (Array Rat)) (r : TrRun) : TrRun :=
  let t := r.t
  let period : Rat := 77 / 64 * (1 + t.rate)
  let y := lanes.map fun l => cubicAt l (t.pos + 8)
  let m := lanes.map fun l => cubicAt l (t.pos + period / 2 + 8)
  let e := if power = 0 then 0
    else ratSum ((t.mid.zip (y.zip t.sym)).map fun x => x.1 * (x.2.1 - x.2.2)) / power
  let (kp, ki) := gain r.out.length
  let rate := trim96 (clampR (1 / 5000) (t.rate - ki * e))
  { t := { t with pos := trim96 (t.pos + 77 / 64 * (1 + rate - kp * e)), rate := rate, sym := y, mid := m },
    out := (y, m) :: r.out, err := e :: r.err }

/-- The symbols of a tick of `len` samples: as many as its samples reach. -/
def trLoop (gain : Nat → Rat × Rat) (power : Rat) (lanes : List (Array Rat)) (len : Nat) : Nat → TrRun → TrRun
  | 0, r => r
  | k + 1, r =>
    if r.t.pos + 77 / 64 * (1 + r.t.rate) / 2 + 2 < (len : Rat) then
      trLoop gain power lanes len k (trStep gain power lanes r)
    else r

/-- The mean and the variance of a list of numbers. -/
def variance (l : List Rat) : Rat :=
  let m := ratMean l
  ratMean (l.map fun x => (x - m) * (x - m))

/-- A tick of timing recovery on the matched filter's lanes: the two samples per symbol of each lane, and timing recovery after it. -/
def trOut (old new : RxCfg) (cut n : Nat) (r : Rx) (x : List (List Rat)) : List (List Rat) × RxTr :=
  let lanes := x.zipIdx.map fun l => (lastN 8 (List.replicate 8 0 ++ r.inHeld 3 l.2) ++ l.1).toArray
  let power := ratSum (x.map fun l => ratMean (l.map fun v => v * v))
  let len := (x.getD 0 []).length
  let gain (k : Nat) : Rat × Rat := trGain (if k < cut then old else new) n
  let e := trLoop gain power lanes len (2 * len + 8) { t := r.tr }
  let sy := e.out.reverse
  ((List.range x.length).map fun i => sy.flatMap fun v => [v.1.getD i 0, v.2.getD i 0],
    { e.t with pos := e.t.pos - len, good := decide (variance e.err < Config.timingLimit) })

/-! ## The equaliser (R143, R144) -/

/-- A filter at another length: centred, outer taps added as 0 or dropped (R143). -/
def resizeTap (n : Nat) (t : List Rat) : List Rat :=
  if t.length ≤ n then List.replicate ((n - t.length) / 2) 0 ++ t ++ List.replicate ((n - t.length) / 2) 0
  else (t.drop ((t.length - n) / 2)).take n

/-- The complex-linear part of 16 real filters (R143): of each block of two by two, the part that acts as one complex filter. -/
def complexPart (taps : List (List Rat)) : List (List Rat) :=
  let t (f : Nat) : List Rat := taps.getD f []
  (List.range 16).map fun f =>
    let row := f / 4
    let col := f % 4
    let re := ((t (8 * (row / 2) + 2 * (col / 2))).zip (t (8 * (row / 2) + 4 + 2 * (col / 2) + 1))).map fun x => (x.1 + x.2) / 2
    let im := ((t (8 * (row / 2) + 4 + 2 * (col / 2))).zip (t (8 * (row / 2) + 2 * (col / 2) + 1))).map fun x => (x.1 - x.2) / 2
    if row % 2 = col % 2 then re else if row % 2 = 1 then im else im.map fun x => -x

/-- The taps in the form and length that RX_MIMO_MODE and RX_MIMO_TAPS ask for. A complex set is held as the real set that it
is, so the way from mode 0 to mode 1 changes nothing. -/
def shapedTaps (mode n : Nat) (taps : List (List Rat)) : List (List Rat) :=
  let t := taps.map (resizeTap n)
  if mode = 0 then complexPart t else t

/-- The samples a filter of `n` taps weighs for symbol `k`, tap 0 first. `all` begins with the 96 samples before the tick; the
delay is that of 97 taps whatever the length (R143). -/
def tapWindow (n k : Nat) (all : List Rat) : List Rat := ((all.drop (2 * k + 48 - n / 2)).take n).reverse

/-- The equaliser's output for a symbol: XI, XQ, YI, YQ. -/
def eqSymbol (taps wins : List (List Rat)) : List Rat :=
  (List.range 4).map fun i => ratSum ((List.range 4).map fun j =>
    ratSum ((taps.getD (4 * i + j) []).zipWith (· * ·) (wins.getD j [])))

/-- The decision on a real dimension of a constellation. -/
def decideDim (const : Nat) (y : Rat) : Rat :=
  let top : Int := match const with
    | 0 => 1
    | 1 => 3
    | _ => 7
  ((clampI (-top) top (2 * (y / 2).floor + 1) : Int) : Rat)

/-- A polarisation's value of a symbol. -/
def polOf (p : Nat) (y : List Rat) : Cx := (y.getD (2 * p) 0, y.getD (2 * p + 1) 0)

/-- A symbol from its polarisations' values. -/
def symOf (x y : Cx) : List Rat := [x.1, x.2, y.1, y.2]

/-- A complex number brought to magnitude 1; 0 stays 1. -/
def Cx.unit (x : Cx) : Cx :=
  let m := rootOf (Cx.norm x)
  if Cx.norm x = 0 then (1, 0) else (x.1 / m, x.2 / m)

/-- The carrier's turn at symbol `k` of `n` in a tick: the offset is in 0.1 MHz and a tick 2 µs long. -/
def carrierAt (turn freq : Rat) (n k : Nat) : Cx :=
  cosSin (360 * (turn + freq / 5 * (k : Rat) / (n : Nat)))

/-- What a tick's equalisation needs: the configurations before and from symbol `cut` on, the constellations decided on, the tracking
step's extra doublings, blind or not, whether it adapts, the pilots of the symbols (none where the symbol is no pilot), the
carrier's turn at each symbol, what is taken out of the taps at the cut (R141). -/
structure EqJob where
  old : RxCfg
  new : RxCfg
  cut : Nat
  constOld : Nat
  constNew : Nat
  boost : Nat
  blind : Bool
  adapt : Bool
  pilot : Nat → Option (List Rat)
  turn : Nat → Cx
  less : Int

/-- The configuration of a symbol. -/
def EqJob.cfg (j : EqJob) (k : Nat) : RxCfg := if k < j.cut then j.old else j.new

/-- The constellation decided on at a symbol. -/
def EqJob.const (j : EqJob) (k : Nat) : Nat := if k < j.cut then j.constOld else j.constNew

/-- The equaliser on its way through a tick: taps, the pilots' phasors by polarisation, outputs newest first, the polarisation's
speed so far, the symbols since the last update and their gradient. -/
structure EqRun where
  taps : List (List Rat)
  phase : List (List Rat)
  out : List (List Rat)
  sop : Nat
  count : Nat
  grad : List (List Rat)

/-- The phasor of a polarisation, 1 before any pilot. -/
def EqRun.ph (e : EqRun) (p : Nat) : Cx := match e.phase[p]? with
  | some [a, b] => (a, b)
  | _ => (1, 0)

/-- The error of a polarisation at a symbol (R144): blind, y (R − |y|²); else from the pilot or the decision, turned back to the
equaliser's output. DESIGN CHOICE: a pilot's magnitude, whose boost the receive mode does not name, is taken as it came. DESIGN
CHOICE (log entry 172): in PILOT, before a receive mode is set, decisions are on the constellation of the last receive mode. -/
def eqError (j : EqJob) (e : EqRun) (k p : Nat) (y : Cx) : Cx :=
  if j.blind then Cx.scale (Config.cmaModulus - Cx.norm y) y
  else
    let rot := Cx.times (j.turn k) (e.ph p)
    let z := Cx.times y (Cx.conj rot)
    let want : Cx := match j.pilot k with
      | some v => Cx.scale (rootOf (Cx.norm z / 2)) (polOf p v)
      | none => (decideDim (j.const k) z.1, decideDim (j.const k) z.2)
    Cx.times (Cx.plus want (-z.1, -z.2)) rot

/-- The phasors after a symbol: a pilot shows its polarisation's. -/
def eqPhase (j : EqJob) (e : EqRun) (k : Nat) (y : List Rat) : List (List Rat) :=
  match j.pilot k with
  | none => e.phase
  | some v => [0, 1].map fun p =>
    let u := Cx.unit (Cx.times (Cx.times (polOf p y) (Cx.conj (j.turn k))) (Cx.conj (polOf p v)))
    [u.1, u.2]

/-- 2 to a power that may be negative. -/
def twoPow (e : Int) : Rat := if 0 ≤ e then (2 : Rat) ^ e.toNat else 1 / (2 : Rat) ^ (-e).toNat

/-- The taps brought to the new configuration's form and length, with the CD filter's move taken out of them (R141, R143). -/
def eqSwitch (j : EqJob) (e : EqRun) : EqRun :=
  let shape (t : List (List Rat)) : List (List Rat) := shapedTaps j.new.mimo j.new.taps t
  { e with taps := shape (if j.less = 0 then e.taps else Config.tapsLess j.less e.taps), grad := shape e.grad }

/-- The update after 64 symbols (R144). DESIGN CHOICE: its gradient is the mean over these symbols. -/
def eqUpdate (g : RxCfg) (boost : Nat) (e : EqRun) : EqRun :=
  let mu := twoPow (g.mu + (boost : Int))
  let taps := (e.taps.zip e.grad).map fun t => (t.1.zip t.2).map fun x => trim96 (x.1 + mu * x.2 / 64)
  let taps := if g.mimo = 0 then complexPart taps else taps
  { e with taps := taps, sop := max e.sop (Config.sopSpeed e.taps taps), count := 0, grad := taps.map (·.map fun _ => 0) }

/-- A symbol of the equaliser; `all` begins with the 96 samples before the tick. -/
def eqStep (j : EqJob) (all : List (List Rat)) (e : EqRun) (k : Nat) : EqRun :=
  let e := if k = j.cut then eqSwitch j e else e
  let g := j.cfg k
  let wins := all.map (tapWindow g.taps k)
  let y := eqSymbol e.taps wins
  let err := [0, 1].flatMap fun p => let x := eqError j e k p (polOf p y); [x.1, x.2]
  let grad := if j.adapt then
      e.grad.zipIdx.map fun t => (t.1.zip (wins.getD (t.2 % 4) [])).map fun x => x.1 + err.getD (t.2 / 4) 0 * x.2
    else e.grad
  let e : EqRun := { e with phase := eqPhase j e k y, out := y :: e.out, grad := grad, count := e.count + 1 }
  if e.count < 64 then e else if j.adapt then eqUpdate g j.boost e else { e with count := 0 }

/-- The ideal pilots of a frame at amplitude 1, by pilot index (R109, R110). -/
def idealPilots (n : Nat) : List (List Rat) := pilotSymbols n 1

/-- The pilot at symbol `k` of the tick, by the alignment known. -/
def pilotAt (s : State) (c : Line) (k : Nat) : Option (List Rat) :=
  let n := max 1 (rxN s c)
  match nextStart s c with
  | none => none
  | some b => if (k + n - b) % n % 64 = 0 then (idealPilots n)[(k + n - b) % n / 64]? else none

/-- A tick of the equaliser on two samples per symbol of each lane; `const` is the constellation from the cut on. DESIGN CHOICE: in
PILOT it adapts once the alignment sequence has shown where the pilots are. -/
def rxEqualise (s : State) (c : Line) (new : RxCfg) (cut const : Nat) (less : Int) (x : List (List Rat)) : EqRun :=
  let r := getRx s c
  let all := x.zipIdx.map fun l => lastN 96 (List.replicate 96 0 ++ r.inHeld 4 l.2) ++ l.1
  let j : EqJob := {
    old := r.cfg, new := new, cut := cut, constOld := r.mode.const, constNew := const,
    boost := if r.st = .tracking then r.muShift else 0,
    blind := r.st == .equalise, adapt := r.st == .equalise || (rxBase s c).isSome,
    pilot := pilotAt s c, turn := carrierAt r.turn r.freq (rxN s c), less := less }
  let shape (t : List (List Rat)) : List (List Rat) := shapedTaps r.cfg.mimo r.cfg.taps t
  let taps := shape r.taps
  let e : EqRun := {
    taps := taps, phase := r.phase, out := [], sop := 0, count := r.eqCount,
    grad := if r.eqGrad.length = 16 then shape r.eqGrad else taps.map (·.map fun _ => 0) }
  let m := (x.getD 0 []).length / 2
  let e := (List.range m).foldl (eqStep j all) e
  if m ≤ cut then eqSwitch j e else e

/-! ## The alignment sequence (R110, R146, R155, R198) -/

/-- How well the alignment sequence fits at place `k` of some symbols with a carrier offset in 0.1 MHz: the squared correlation in
each polarisation, against its largest value. -/
def fasFit (n : Nat) (y : Array (List Rat)) (freq : Rat) (k : Nat) : Rat :=
  let ideal := (idealPilots n).take 64
  let one (p : Nat) : Rat × Rat :=
    let t := ideal.zipIdx.map fun v =>
      let z := polOf p (y.getD (k + 64 * v.2) [])
      (Cx.times (Cx.times z (Cx.conj (carrierAt 0 freq n (64 * v.2)))) (Cx.conj (polOf p v.1)), Cx.norm z)
    (Cx.norm (Cx.sum (t.map (·.1))), 128 * ratSum (t.map (·.2)))
  let (a, b) := ((one 0).1 + (one 1).1, (one 0).2 + (one 1).2)
  if b = 0 then 0 else a / b

/-- The carrier offsets tried: in PILOT ±6 GHz in steps of 0.1 MHz, in TRACKING the one tracked (R146). -/
def fasFreqs (r : Rx) : List Rat :=
  if r.st = .pilot then (List.range 120001).map fun (k : Nat) => ((k : Int) - 60000 : Int) else [r.freq]

/-- The best fit among the places where a sequence that ends in this tick may have begun: its place in the symbols, its offset; none
where no fit reaches the internal limit. -/
def fasSearch (n m : Nat) (y : Array (List Rat)) (freqs : List Rat) : Option (Nat × Rat) :=
  let best := (List.range m).foldl (fun (b : Rat × Option (Nat × Rat)) k =>
    freqs.foldl (fun b f => let q := fasFit n y f k; if b.1 < q then (q, some (k, f)) else b) b) (0, none)
  if best.1 < Config.fasLimit then none else best.2

/-- A tick of the search: `y` are the equaliser's outputs of the tick. A sequence takes 4,033 symbols, so the last 4,032 outputs before
are searched with them. -/
def fasTickOf (c : Line) (y : List (List Rat)) (s : State) : State :=
  let n := max 1 (rxN s c)
  let r := getRx s c
  let all := lastN 4032 (List.replicate 4032 [] ++ r.align.tail) ++ y
  let res (k : Nat) : Nat := (r.align.symNo + k + n - 4032 % n) % n
  let hit := if r.st = .pilot ∨ r.st = .tracking then fasSearch n y.length all.toArray (fasFreqs r) else none
  let found := hit.map fun x => res x.1
  let due : Bool := match rxBase s c with
    | none => true
    | some b => (List.range y.length).any fun k => res k == b
  updRx c (fun r => { r with
    freq := match r.st, hit with
      | .pilot, some x => x.2
      | _, _ => r.freq,
    align := { r.align with
      symNo := (r.align.symNo + y.length) % n, tail := lastN 4032 all, found := found, due := due,
      at_ := found.orElse fun _ => r.align.at_ } }) s

/-! ## Carrier recovery (R146, R147) -/

/-- A pilot's phasor in each polarisation, as four numbers. -/
def pilotPhasor (ideal y : List Rat) : List Rat :=
  let g (p : Nat) : Cx := Cx.times (polOf p y) (Cx.conj (polOf p ideal))
  symOf (g 0) (g 1)

/-- The sum of pilots' phasors in a polarisation. -/
def phasorSum (p : Nat) (l : List (List Rat)) : Cx := Cx.sum (l.map (polOf p))

/-- The multiple of a right angle nearest to an angle: k of R147. -/
def quadrant (x : Cx) : Nat :=
  let a := if x.1 < 0 then -x.1 else x.1
  let b := if x.2 < 0 then -x.2 else x.2
  if b ≤ a then (if x.1 < 0 then 2 else 0) else if x.2 < 0 then 3 else 1

/-- Carrier recovery on its way through a tick: quarter turns, the last pilots after correction, symbols newest first, the pilots
that showed slips. -/
structure CrRun where
  rot : Nat
  refs : List (List Rat)
  out : List (List Rat)
  slips : List Nat

/-- A symbol turned back by the carrier and the quarter turns so far; a pilot whose phase error against the last ones, both
polarisations together, lies nearest to another right angle declares a slip, and the phase is turned from it on (R147). DESIGN
CHOICE: "after correction" is against the mean of the last RX_CR_WINDOW pilots. -/
def crStep (window : Nat → Nat) (pilot : Nat → Option (List Rat)) (turn : Nat → Cx) (e : CrRun) (x : List Rat × Nat) : CrRun :=
  let back (q p : Nat) : Cx := Cx.turn q (Cx.times (polOf p x.1) (Cx.conj (turn x.2)))
  let z := symOf (back e.rot 0) (back e.rot 1)
  match pilot x.2 with
  | none => { e with out := z :: e.out }
  | some v =>
    let g := pilotPhasor v z
    let ref := lastN (window x.2) e.refs
    let k := quadrant (Cx.sum ([0, 1].map fun p => Cx.times (polOf p g) (Cx.conj (phasorSum p ref))))
    if k = 0 then { e with out := z :: e.out, refs := lastN 16 (e.refs ++ [g]) }
    else
      let q := (e.rot + 4 - k) % 4
      let z := symOf (back q 0) (back q 1)
      { rot := q, refs := lastN 16 (e.refs ++ [pilotPhasor v z]), out := z :: e.out, slips := e.slips ++ [x.2] }

/-- The carrier offset as the advance of the pilots' phasors from pilot to pilot shows it, in 0.1 MHz beyond the one applied. -/
def pilotDrift (n : Nat) (g : List (List Rat)) : Rat :=
  let d := Cx.sum ((g.zip (g.drop 1)).map fun x =>
    Cx.sum ([0, 1].map fun p => Cx.times (polOf p x.2) (Cx.conj (polOf p x.1))))
  if Cx.norm d = 0 then 0 else 5 * ((n : Nat) : Rat) / 64 * angleOf d

/-- The pilots' phasors averaged over `w` pilots on each side, in a polarisation; `off` pilots precede the first (R146). -/
def averaged (w off m p : Nat) (g : List (List Rat)) : List Cx :=
  (List.range m).map fun k => phasorSum p ((g.drop (off + k - w)).take (off + k + w + 1 - (off + k - w)))

/-- A frame through the phase estimate (R146): `past` are the pilots' phasors before it, `syms` its symbols and those after it as far
as its averages reach. Between pilots the phase is led from one average to the next, and the decisions on the symbols around
correct it. DESIGN CHOICE (log entry 173): how decisions enter is not given; here it is their mean phase over eight symbols on
each side. -/
def phaseFrame (w n const : Nat) (past syms : List (List Rat)) : List (List Rat) :=
  let ideal := idealPilots n
  let pilots := (syms.zipIdx.filter fun x => x.2 % 64 == 0).map fun x =>
    pilotPhasor (ideal.getD (x.2 / 64 % (n / 64)) []) x.1
  let a := [0, 1].map fun p => (averaged w past.length (n / 64 + 1) p (past ++ pilots)).map Cx.unit
  let led (p i : Nat) : Cx :=
    let l := a.getD p []
    let f : Rat := ((i % 64 : Nat) : Rat) / 64
    Cx.unit (Cx.plus (Cx.scale (1 - f) (l.getD (i / 64) (1, 0))) (Cx.scale f (l.getD (i / 64 + 1) (1, 0))))
  let first (p : Nat) : List Cx := (syms.take n).zipIdx.map fun x => Cx.times (polOf p x.1) (Cx.conj (led p x.2))
  let shown (p : Nat) : List Cx := (first p).zipIdx.map fun x =>
    if x.2 % 64 = 0 then Cx.times x.1 (Cx.conj (polOf p (ideal.getD (x.2 / 64) [])))
    else Cx.times x.1 (decideDim const x.1.1, -decideDim const x.1.2)
  let last (p : Nat) : List Cx := (first p).zipIdx.map fun x =>
    Cx.times x.1 (Cx.conj (Cx.unit (Cx.sum (((shown p).drop (x.2 - 8)).take (x.2 + 9 - (x.2 - 8))))))
  ((last 0).zip (last 1)).map fun x => symOf x.1 x.2

/-- The noise variance of a real dimension, from a frame's pilots (R151): their spread around the pilots of their mean amplitude.
DESIGN CHOICE (log entry 174): the specification gives no estimator; this one takes all four dimensions of a frame together, before
nonlinear compensation. -/
def pilotNoise (n : Nat) (syms : List (List Rat)) : Rat :=
  let ps := ((idealPilots n).zip ((syms.zipIdx.filter fun x => x.2 % 64 == 0).map (·.1))).flatMap fun x => x.1.zip x.2
  let a := ratMean (ps.map fun x => x.1 * x.2)
  ratMean (ps.map fun x => (x.2 - a * x.1) * (x.2 - a * x.1))

/-! ## Frames and captures (R109, R162, R198) -/

/-- The symbols of a tick join those of the frames coming in, from the first boundary after the alignment was known on; the places of
erasing pilots with them. -/
def framesJoin (c : Line) (z : List (List Rat)) (slips : List Nat) (s : State) : State :=
  let r := getRx s c
  let n := max 1 (rxN s c)
  match nextStart s c with
  | none => updRx c (fun r => { r with buf := [], starts := [], erase := [], past := [], lost := 0 }) s
  | some k =>
    let runs : Bool := !r.starts.isEmpty && (r.buf.length + k) % n == 0
    let s := updRx c (fun r => if runs then r else { r with buf := [], starts := [], erase := [], past := [] }) s
    let s := if k < z.length then modeTaken c s else s
    let s := if k + n < z.length then modeTaken c s else s
    let r := getRx s c
    let z' := if runs then z else z.drop k
    let at_ (x : Nat) : Nat := r.buf.length + x - (if runs then 0 else k)
    let marks := (slips.filter fun x => (runs || k ≤ x) && 0 < at_ x
      && ((r.starts[(at_ x - 1) / n]?).map (·.slipErase)).getD false).map at_
    updRx c (fun r => { r with buf := r.buf ++ z', erase := r.erase ++ marks, lost := 63 * marks.length }) s

/-- The frames that are complete, with the symbols after them that their averages need (R146). -/
def framesDone : Nat → Nat → Rx → List RxFrame → List RxFrame × Rx
  | 0, _, r, fs => (fs, r)
  | k + 1, n, r, fs =>
    match r.starts with
    | [] => (fs, r)
    | st :: rest =>
      if r.buf.length < n + 64 * st.window + 1 then (fs, r)
      else
        let syms := phaseFrame st.window n st.mode.const r.past (r.buf.take (n + 64 * st.window + 1))
        let f : RxFrame := {
          syms := syms, s2 := pilotNoise n syms, mode := st.mode,
          erase := (r.erase.filter fun e => 0 < e && e ≤ n).map (· / 64) }
        let own := ((r.buf.take n).zipIdx.filter fun x => x.2 % 64 == 0).map (·.1)
        let past := lastN 16 ((idealPilots n).zip own |>.map fun x => pilotPhasor x.1 x.2)
        framesDone k n { r with
          buf := r.buf.drop n, starts := rest, past := past,
          erase := (r.erase.filter (n < ·)).map (· - n) } (fs ++ [f])

/-- A tick of carrier recovery on the equaliser's outputs (R146, R147). -/
def rxCarrier (c : Line) (old new : RxCfg) (cut : Nat) (y : List (List Rat)) (s : State) : State :=
  let r := getRx s c
  let n := max 1 (rxN s c)
  let known : Bool := (rxBase s c).isSome
  let pilot := pilotAt s c
  let e := (y.zipIdx).foldl (crStep (fun k => (if k < cut then old else new).window) pilot (carrierAt r.turn r.freq n))
    { rot := r.rot, refs := r.refs, out := [], slips := [] }
  let z := e.out.reverse
  let g := z.zipIdx.filterMap fun x => (pilot x.2).map fun v => pilotPhasor v x.1
  let t := r.turn + r.freq / 5 * ((y.length : Nat) : Rat) / (n : Nat)
  let f := if r.st = .tracking then r.freq + pilotDrift n g else r.freq
  let s := framesJoin c z e.slips (updRx c (fun r => { r with
    rot := e.rot, refs := if known then e.refs else [], turn := trim96 (t - t.floor), slips := e.slips.length }) s)
  let (fs, q) := framesDone 3 n (getRx s c) []
  updRx c (fun _ => { q with
    freq := trim96 f, crOut := fs.flatMap (·.syms), frames := if q.st = .tracking then q.frames ++ fs else [] }) s

/-- What the filters up to the CD filter, and those after it, leave in a tick. -/
def rxSamples (s : State) (c : Line) (new : RxCfg) (k : Cuts) : List (List Rat) × List (List Rat) :=
  let r := getRx s c
  let n := rxN s c
  let x0 := dcFree r.adc
  let x1 := spliced k.fe (feOut r.cfg r c n x0) (feOut new r c n x0)
  let x2 := spliced k.cd (cdOut r.cfg r n x1) (cdOut new r n x1)
  (x2, r.keeps 0 32 x0 ++ r.keeps 1 (cdLength 1 - 1) x1)

/-- Does a receiver's timing recovery run in this state? -/
def trRuns (st : RxSt) : Bool := st == .timing || st == .equalise || st == .pilot || st == .tracking

/-- The receive DSP's signal path in a tick (R138 to R147): the front end and the CD filter in every state but OFF, the matched
filter and timing recovery from TIMING on, the equaliser from EQUALISE on, carrier recovery from PILOT on. Each stage goes over
to the configuration in force, and to the next frame's receive mode, at its frame boundary (R40, R41, R136). -/
def rxSignal (c : Line) (i : RxIn) (s : State) : State :=
  let st := (getRx s c).st
  if st = .off then s
  else
    let start := nextStart s c
    let s := updRx c (fun r => { r with
      adc := i.adc, eqOut := [], crOut := [], sop := 0, slips := 0, lost := 0,
      align := { r.align with start := start, found := none, due := false } }) s
    let r := getRx s c
    let n := rxN s c
    let k := cutsAt n start
    let new := rxCfgNow s c (if k.apart k.mf then modeAfter s c else (modeNext s c).1).roll
    let (x, hist) := rxSamples s c new k
    let moved := if st = .tracking then new.cd - r.cfg.cd else 0
    let s := updRx c (fun r => { r with cfg := new, less := if k.apart k.cd then moved else 0 }) s
    if !trRuns st then updRx c (fun r => { r with hist := hist }) s
    else
      let x3 := spliced k.mf (mfOut r.cfg r x) (mfOut new r x)
      let (h, tr) := trOut r.cfg new k.tr n r x3
      let hist := hist ++ r.keeps 2 40 x ++ r.keeps 3 8 x3
      if st = .timing then updRx c (fun r => { r with hist := hist, tr := tr }) s
      else
        let was := r.cfg
        let e := rxEqualise (updRx c (fun r => { r with cfg := was }) s) c new k.eq (modeNext s c).1.const
          (r.less + if k.apart k.cd then 0 else moved) h
        let y := e.out.reverse
        let s := updRx c (fun r => { r with
          taps := e.taps, phase := e.phase, hist := hist ++ r.keeps 4 96 h, tr := tr, eqOut := y, sop := e.sop,
          eqCount := e.count, eqGrad := e.grad }) s
        if st = .equalise then fasTickOf c y s
        else fasTickOf c y (rxCarrier c was new k.eq y s)

/-- A captured value as 16 bits; what unit they count in, the specification does not say. -/
def capWord (x : Rat) : Int := clampI (-32768) 32767 (roundUpHalf (Config.captureScale * x))

/-- The rows a capture point gives in a tick, from its frame boundary on when the capture has not begun (R162). DESIGN CHOICE:
with no alignment known the tick's first sample is taken for the boundary. -/
def capRows (r : Rx) (k : RxCap) : List (List Int) :=
  let p := r.align.start.getD 0
  let cut {α : Type} (n : Nat) (l : List α) : List α := if k.begun then l else l.drop n
  match k.point with
  | 0 => (cut (samplesOf p) (List.range (r.adc.getD 0 []).length)).map fun n => r.adc.map (·.getD n 0)
  | 1 => (cut p r.eqOut).map (·.map capWord)
  | _ => r.crOut.map (·.map capWord)

/-- The bytes of a capture. -/
def capBytes (k : RxCap) : Bytes :=
  k.data.flatMap fun row => row.flatMap fun v => if k.point = 0 then [byteOf (ux 8 v)] else le 2 (ux 16 v)

/-- A tick of the captures: each takes its rows; one that has all of them is answered (R162). -/
def rxCaptures (c : Line) (s : State) : State :=
  let r := getRx s c
  let caps := r.caps.map fun k =>
    let rows := capRows r k
    { k with begun := k.begun || !rows.isEmpty, data := (k.data ++ rows).take k.n }
  let s := updRx c (fun r => { r with caps := caps.filter fun k => k.data.length < k.n }) s
  (caps.filter fun k => k.n ≤ k.data.length).foldl (fun s k => finish k.owner (.data (capBytes k)) s) s

/-! ## Nonlinear compensation (R148 to R150) -/

/-- A signed field of a byte string. -/
def sfld (b : Bytes) (o w : Nat) : Int := sx (8 * w) (fld b o w)

/-- The spans of the table that count: of the first RX_NLC_SPANS those with a length (R148, R150). -/
def nlcSpans (s : State) (c : Line) : List (List Int) :=
  let t := s.par 0x4100 c.inst
  ((List.range (s.parN 0x4072 c.inst)).map fun k =>
    [(fld t (16 * k) 4 : Int), sfld t (16 * k + 4) 2, (fld t (16 * k + 6) 2 : Int), sfld t (16 * k + 8) 2,
     (fld t (16 * k + 10) 2 : Int)]).filter fun x => x.headD 0 != 0

/-- The perturbation terms: offsets m and n within ±RX_NLC_WINDOW and their coefficient, from the spans or from RX_NLC_COEF
(R148, R150). -/
def nlcTerms (s : State) (c : Line) : List (Int × Int × Cx) :=
  let w : Int := s.parN 0x4073 c.inst
  let inside (x : Int) : Bool := -w ≤ x && x ≤ w
  if s.parN 0x4070 c.inst = 2 then
    let t := s.par 0x4101 c.inst
    ((List.range 510).map fun k =>
      (sfld t (8 * k) 2, sfld t (8 * k + 2) 2, ((sfld t (8 * k + 4) 2 : Rat) / 32768, (sfld t (8 * k + 6) 2 : Rat) / 32768))).filter
        fun x => inside x.1 && inside x.2.1
  else
    let l := (List.range (2 * w.toNat + 1)).map fun (k : Nat) => (k : Int) - w
    l.flatMap fun m => l.map fun n => (m, n, Config.spanCoef (nlcSpans s c) m n)

/-- The symbol at a place of a frame. DESIGN CHOICE: beyond its ends 0 stands for the symbols of the frames beside it (R148; log
entry 191). -/
def symAt (a : Array (List Rat)) (i : Int) (p : Nat) : Cx := if i < 0 then (0, 0) else polOf p (a.getD i.toNat [])

/-- The correction of a symbol in a polarisation: the sum of the terms, each a product of three neighbouring symbols.
PRESUMED: the specification does not say which three; these are those of the perturbation model of two polarisations. -/
def nlcShift (terms : List (Int × Int × Cx)) (a : Array (List Rat)) (i p : Nat) : Cx :=
  Cx.sum (terms.map fun t =>
    let (m, n, k) := t
    let pair (q : Nat) : Cx := Cx.times (symAt a (i + m) q) (Cx.conj (symAt a (i + m + n) q))
    Cx.times k (Cx.times (Cx.plus (pair 0) (pair 1)) (symAt a (i + n) p)))

/-- A frame with its correction, scaled by RX_NLC_WEIGHT, added (R148). -/
def nlcFrame (s : State) (c : Line) (f : RxFrame) : RxFrame :=
  let terms := nlcTerms s c
  let a := f.syms.toArray
  let w : Rat := (s.parN 0x4074 c.inst : Rat) / 100
  { f with syms := f.syms.zipIdx.map fun x =>
      let add (p : Nat) : Cx := Cx.plus (polOf p x.1) (Cx.scale w (nlcShift terms a x.2 p))
      symOf (add 0) (add 1) }

/-- The nonlinear compensation of a tick, once its engines have ended (R148, R149): the tick's frames are corrected whole, with the
whole grant and no overrun, or not at all. -/
def rxNlc (c : Line) (s : State) : State :=
  let r := getRx s c
  let late := r.nlcOverrun
  let s := updRx c (fun r => { r with nlcOverrun := false }) s
  if s.parN 0x4070 c.inst = 0 ∨ r.st ≠ .tracking then s
  else if r.engines < s.parN 0x4071 c.inst ∨ late then nlcSkip c s
  else updRx c (fun r => { r with frames := r.frames.map (nlcFrame s c) }) s

end Sys2Proof.Machine
end

