-- ==== Sys2Proof/Machine/Tick.lean ====
section
/-! DEFINITION. Tick.lean: what a tick does whatever is commanded (R39, R40): its commit window, the work of its blocks,
and what becomes due by time. -/
namespace Sys2Proof.Machine

/-- Both carriers in turn. -/
def eachLine (f : Line → State → State) (s : State) : State := f .b (f .a s)

/-- The keys installed in this tick's commit window are the next keys of their receive halves (R269). -/
def incomingNext (c : Line) (s : State) : State := (List.range 26).foldl (fun s i => takeIncoming c i s) s

/-! ## References and time -/

/-- The presence of references 4 to 7 (R344): the receivers track, the lane's clock is recovered, the mate link is up. -/
def presences (s : State) : State :=
  let lane := s.parN 0x2002 0
  let owned := (View.cliOn s.params).any fun i => (View.laneSet s.params i).contains lane
  let clk (c : Line) : Bool := (getRx s c).st == .tracking && 64 ≤ (getRx s c).timingGood
  notePresent 4 (clk .a) (notePresent 5 (clk .b)
    (notePresent 6 (owned && bit s.cli.laneOk lane) (notePresent 7 s.mate.link s)))

/-- One PPS output's tick (R357, R358). -/
def ppsTick (o : Nat) (s : State) : State := ppsEdge o (if ppsWithheld s o then bump 148 s else s)

/-- References, loop, outputs of time. -/
def timeWork (i : TmIn) (s : State) : State :=
  let s := (List.range 9).foldl (fun s r => wtrIfDone r (qualifyIfDue r (disqualifyIfLost r s))) (tmWork i (presences s))
  todSend (ppsTick 1 (ppsTick 0 (lockIfDue s)))

/-! ## The line -/

/-- The frames that have left the pool and that no row has taken; a tick without a frame. -/
def frameLeft (c : Line) (s : State) : State :=
  let s := (List.range (getFec s c).ready.length).foldl (fun s _ => lineNext c none s) s
  if (getFec s c).taken then s else noFrame c s

/-- A carrier's receiver: estimators, signal path, the state machine, alignment; what follows from them is reported in the same
tick (R155, R205), and a fault of the line reaches its clients. -/
def rxWork (c : Line) (i : RxIn) (s : State) : State :=
  let raw := i.adc
  let i := { i with adc := adcFilled s c raw }
  let s := adcPassed c raw i.adc s
  let s := rxAfter c (rxSop c (rxSignal c i (rxTick c i s)))
  let s := fasLock c (fasTick c (rxDue c s))
  let was := lineFault s c
  let s := frmReport c (frmAlign c (rxCaptures c s))
  if lineFault s c && !was then clientsFault c s else s

/-- The line's part of the tick: what is received, what the clients give and take, what leaves. -/
def lineWork (i : TickIn) (s : State) : State :=
  let inp (k : Nat) : CliIn := i.cli.getD k {}
  let s := eachLine frameLeft s
  let s := rxWork .b i.rxB (rxWork .a i.rxA s)
  let s := dacFill .b (dacFill .a (lineTx .b i.txB inp (lineTx .a i.txA inp s)))
  let s := (List.range 12).foldl (fun s k => egressTick k (inp k).href s) s
  whTick .b i.whB (whTick .a i.whA s)

/-! ## Messages -/

/-- Pass on every complete message of a carrier's general channel. -/
def gccAll (c : Line) (s : State) : State := (List.range (getFrm s c).gcc.done.length).foldl (fun s _ => gccPass c s) s

/-- Handle every key-engine message of a carrier. -/
def keAll (c : Line) (s : State) : State := (List.range (getCry s c).msgs.length).foldl (fun s _ => keReceive c s) s

/-- Handle the domain message at the head of the inbox, whatever its type; one of no known type is discarded (R320). -/
def dmOne (s : State) : State :=
  match s.dm.inbox with
  | [] => s
  | (_, b) :: _ =>
    let ty := byteAt b 0
    match ty with
    | 1 => dmTake ty onCfgReq s
    | 2 => dmTake ty onCfgPart s
    | 3 => dmTake ty onCall s
    | 4 => dmTake ty (forwarded fun _ => dmDeliver 1) s
    | 5 => dmTake ty (forwarded (onProbe true)) s
    | 6 => dmTake ty (forwarded (onProbe false)) s
    | 7 => dmTake ty onBeacon s
    | _ => dmTake ty (fun _ _ => dmDiscard) s

/-- Handle every domain message received. -/
def dmAll (s : State) : State := (List.range s.dm.inbox.length).foldl (fun s _ => dmOne s) s

/-- Key agreement, and the public-key queue. -/
def keyWork (s : State) : State :=
  let s := eachLine (fun c s => recordExpiry c (keNoPeer c (keResend c (keAll c (gccAll c s))))) s
  gcmTestDone (pkDone false (pkKick s))

/-- The domain's paths, messages, timers and beacons. -/
def domainWork (s : State) : State :=
  let s := fetchTimeout (missingReq (conflictExpiry (updPaths (dmAll s))))
  let s := (List.range 3).foldl (fun s n => cfgSkew n s) s
  eachLine (fun c s => whBeacon c (epochGrace c.ix s)) s

/-! ## Self-tests -/

/-- Is a core's test made in this tick: on request, before it joins the pool, or at the latest in the epoch's last tick
(R181)? -/
def coreTestNow (s : State) (core : Nat) : Bool :=
  coreTestDue s core && (s.tick % 500 == 499 || bit s.fec.untested core
    || s.fec.tests.any fun t => t.2.1 == core && t.2.2 < s.elapsed)

/-- The cores' tests of this tick. -/
def coreTests (fails : List Nat) (s : State) : State :=
  (List.range 48).foldl (fun s k => if coreTestNow s k then coreTested k (!fails.contains k) s else s) (testsOrphaned s)

/-- The engines' tests of this tick (R416). -/
def engTests (fails : List Nat) (s : State) : State :=
  (List.range 256).foldl (fun s e => if engTestDue s e then engTested e (!fails.contains e) s else s) s

/-! ## The end of the tick -/

/-- At the end of an epoch its estimates are made. -/
def epochEnd (s : State) : State :=
  if s.tick % 500 = 499 then
    let s := (List.range 12).foldl (fun s k => cliEpoch s k) (eachLine fecEpoch s)
    updFec (fun x => { x with tested := 0 }) s
  else s

/-- What ends by itself after a disruptive change: the transmitter's squelch once no retune is under way (R67, R122), a client's
lanes 5 ms on (R247). DESIGN CHOICE: without a retune the transmitter runs in the new configuration, and its squelch ends, at
the end of the tick after T; the specification gives no time. -/
def disruptsEnd (s : State) : State :=
  let s := eachLine (fun c s =>
    let t := s.tx.get c
    if t.disrupt && !t.retune && t.disruptTick < s.elapsed then endDisrupt c s else s) s
  (List.range 12).foldl (fun s k =>
    let x := getCli s k
    setSquelch (if x.disrupt && 2500 ≤ s.elapsed - x.disruptAt then laneRetuned k s else s) k) s

/-- Deadlines of commands, page requests and coalesced completions; completions held. -/
def hostWork (s : State) : State :=
  let s := pageTimeout (deadlinesDue s)
  let s := (List.range 8).foldl (fun s q => if coalDue s q then cqSignal q s else s) s
  writeAllHeld s

/-- The next tick begins: what is noted once per tick is forgotten. -/
def nextTick (s : State) : State :=
  let once (x : CryC) : CryC := { x with once := [] }
  { s with
    tick := s.tick + 1, elapsed := s.elapsed + 1, windowDone := false, harvestDone := false, leaseDone := false,
    satTick := false, obs := { s.obs with cnt0 := s.obs.cnt, cntH := s.obs.cnt, satH := s.obs.sat, raised := [] },
    ev := { s.ev with tickSet := 0 }, sys := { s.sys with errSet := 0 }, cry := { s.cry with a := once s.cry.a, b := once s.cry.b }, cli := { s.cli with once := [] },
    str := { s.str with once := [] },
    fec := { s.fec with a := { s.fec.a with taken := false }, b := { s.fec.b with taken := false } } }

/-- The work span of a tick. -/
def workSpan (i : TickIn) (s : State) : State :=
  let s := keyWork (eachLine (fun c => seqFinish c .rx 64) (eachLine incomingNext (lineWork i (timeWork i.tm s))))
  let s := calWork (mateWork (domainWork s))
  let s := eachLine rxNlc (engTests i.engFails (dmaWork (enginesClose i.overruns (dmaWork (storeWork i.storeErrs s)))))
  let s := stwClose (coreTests i.coreFails s)
  hostWork (disruptsEnd (epochEnd (lanesDown .b (lanesDown .a (fecClose s)))))

/-- A whole tick: what is left of its commit window, its work, its end. -/
def tickWork (i : TickIn) (s : State) : State :=
  let s := openWindow s
  if stopped s then s else nextTick (workSpan i s)

/-- TICK: the rest of the present tick runs its course, and the next one begins. -/
def execTick (i : TickIn) (s : State) : Out := within (tickWork i) s

/-- EPOCH_BOUNDARY: at a tick number that is a multiple of 500 the leases are checked (R408). -/
def execEpochBoundary (s : State) : Out := within leasesDue s

end Sys2Proof.Machine
end

