-- ==== Sys2Proof/Machine/TimingCmds.lean ====
section
/-! DEFINITION. TimingCmds.lean: the commands and events of Timing.lean, each in the present tick's open commit
window. -/
namespace Sys2Proof.Machine

/-- REF_QUALIFY. -/
def execRefQualify (r : Fin 9) (s : State) : Out := clocked (qualifyIfDue r.val) s

/-- REF_DISQUALIFY. -/
def execRefDisqualify (r : Fin 9) (s : State) : Out := clocked (disqualifyIfLost r.val) s

/-- WTR_EXPIRY. -/
def execWtrExpiry (r : Fin 9) (s : State) : Out := clocked (wtrIfDone r.val) s

/-- PLL_LOCKED. -/
def execPllLocked (s : State) : Out := clocked lockIfDue s

/-- PHASE_ADJ_COMPLETE. -/
def execPhaseAdjComplete (s : State) : Out := clocked adjIfDone s

/-- PPS_EDGE. -/
def execPpsEdge (o : Fin 2) (s : State) : Out := clocked (ppsEdge o.val) s

/-- TOD_TX_MESSAGE. -/
def execTodTxMessage (s : State) : Out := clocked todSend s

/-- TOD_RX_MESSAGE: a received message is kept when good; it never sets the timescale (R360). -/
def execTodRxMessage (bytes : Bytes) (s : State) : Out :=
  clocked (fun s =>
    if !bit (s.parN 0x2013 0) 1 then s
    else if bytes.length == 16 && slice bytes 0 3 == [0xA5, 0x5A, 0x01]
        && unbe (slice bytes 14 2) == todCrc (bytes.take 14) then
      raise 0x2A (bump 146 (updTm (fun t => { t with todTick := s.tick, todMsg := bytes }) s))
    else raise 0x2B (bump 147 s)) s

/-- TM_STATUS. -/
def execTmStatus (p : Packet) (s : State) : Out :=
  runCmd infoTmStatus p (fun _ => none) (fun s => (.data (tmStatusBytes s), s)) s

/-- TM_SELECT: in effect in the commit window of the tick after acceptance (R346). Of two in one tick the later stands, and the waits
end if either has the clear flag (R347). -/
def execTmSelect (p : Packet) (s : State) : Out :=
  let b := paramBytes p
  let m := byteAt b 0
  let id := byteAt b 1
  runCmd infoTmSelect p
    (fun _ => firstOf [need (m ≤ 1) (badParam 0), need (id ≤ 8) (badParam 1), need (byteAt b 2 ≤ 1) (badParam 2)])
    (fun s =>
      if m = 0 ∧ id < 4 ∧ s.parN 0x2000 (0x10 + id) = 0 then (.st 0x1201, s)
      else (.ok, updTm (fun t => { t with selWait := some (s.elapsed + 1, m == 1, id,
        byteAt b 2 == 1 || t.selWait.any fun x => x.2.2.2) }) s)) s

/-- TM_PRIORITY: in effect in the commit window of the tick after acceptance (R346). -/
def execTmPriority (p : Packet) (s : State) : Out :=
  let b := paramBytes p
  runCmd infoTmPriority p
    (fun _ => firstOf ((List.range 9).map fun i => need (byteAt b i ≤ 15) (badParam i)))
    (fun s => (.ok, updTm (fun t => { t with prioWait := some (s.elapsed + 1, b.map (·.toNat)) }) s)) s

/-- TM_STEP: timed; local forward, disruptive backward (R354). -/
def execTmStep (p : Packet) (s : State) : Out :=
  runTimed infoTmStep p (fun _ => need (stepDelta p != 0) (badParam 0)) (fun _ => stepClass p) s

/-- TM_PHASE_ADJ (R355). -/
def execTmPhaseAdj (p : Packet) (s : State) : Out :=
  let a := sx 32 (fld (paramBytes p) 0 4)
  runCmd infoTmPhaseAdj p (fun _ => need (a.natAbs ≤ 1000000) (badParam 0)) (fun s =>
    if (match s.tm.sel with
      | some r => isPhaseRef s r
      | none => false) then (.st stWrongState, s)
    else
      let total := s.tm.adjFs + 1000 * a
      if 2000000000 < total.natAbs then (.st 0x1203, s)
      else (.ok, updTm (fun t => { t with adjFs := total, adjActive := true }) s)) s

/-- An accepted measurement of the host's: two of them give the rate of its clock (R356). -/
def steerTaken (m : Nat) (off : Int) (s : State) : State :=
  let rate : Option Int := if s.tm.steerAt.isSome && s.tm.steerTick < m then
      some (meanSecond s - ((off - s.tm.steerOffset) * tps).tdiv ((m - s.tm.steerTick : Nat) : Int))
    else (getRef s 8).rate
  updRef 8 (fun x => { x with rate := rate }) (updTm (fun t => { t with
    lastSteer := s.tick, steerAt := some s.elapsed, steerOffset := off, steerTick := m }) s)

/-- TM_STEER (R356). -/
def execTmSteer (p : Packet) (s : State) : Out :=
  let b := paramBytes p
  let m := fld b 0 8
  runCmd infoTmSteer p (fun _ => none) (fun s =>
    if tps < s.tick - m || s.tick < m || m < s.tm.lastStep then (.st 0x1202, raise 0x29 (bump 143 s))
    else (.ok, bump 142 (steerTaken m (sx 64 (fld b 8 8)) s))) s

/-- PPS_ALIGN: timed, local (R358). -/
def execPpsAlign (p : Packet) (s : State) : Out :=
  runTimed infoPpsAlign p (fun _ => need (byteAt (paramBytes p) 0 ≤ 3) (badParam 0)) (fun _ => .local_) s

/-- TM_TOD_READ (R363). -/
def execTmTodRead (p : Packet) (s : State) : Out :=
  runCmd infoTmTodRead p (fun _ => none) (fun s => (.data (le 8 s.tm.todTick ++ s.tm.todMsg ++ zeros 8), s)) s

/-- TM_FORCE_HOLDOVER: at the next commit window; on while FREERUN is WRONG_STATE (R350, R363). -/
def execTmForceHoldover (p : Packet) (s : State) : Out :=
  let v := byteAt (paramBytes p) 0
  runCmd infoTmForceHoldover p (fun _ => need (v ≤ 1) (badParam 0)) (fun s =>
    if v = 1 ∧ s.tm.pll = .freerun then (.st stWrongState, s)
    else (.ok, updTm (fun t => { t with forceWait := some (v == 1) }) s)) s

end Sys2Proof.Machine
end

