-- ==== Sys2Proof/Machine/TxLineCmds.lean ====
section
/-! DEFINITION. TxLineCmds.lean: the commands and events of TxLine.lean, each in the present tick's open commit
window. -/
namespace Sys2Proof.Machine

/-- CONVERTER_RETUNE_DONE: RETUNED, and the squelch is released (R67, R132). -/
def execConverterRetuneDone (c : Line) (s : State) : Out :=
  clocked (fun s =>
    if (s.tx.get c).retune && (s.cal.left >>> (8 + 4 * c.ix)) % 16 == 0 then
      endDisrupt c (raise (lineEvt 0x30 c 4) (updTx c (fun t => { t with retune := false }) s))
    else s) s

/-- TX_STATUS. -/
def execTxStatus (p : Packet) (s : State) : Out :=
  runCmd infoTxStatus p (fun _ => none) (fun s => (.data (txStatusBytes s (pktLine p)), s)) s

/-- TX_MODE_PRESET. -/
def execTxModePreset (p : Packet) (s : State) : Out :=
  let i := byteAt (paramBytes p) 0
  runCmd infoTxModePreset p (fun _ => need (i ≤ 11) (badParam 0)) (fun s =>
    (.ok, (pktLines p).foldl (fun s c => presetPut p.q.val (presets.getD i (0, 0, 0, 0)) c s) s)) s

/-- TX_CAPACITY: changes nothing. -/
def execTxCapacity (p : Packet) (s : State) : Out :=
  let m := capacityMode p
  let b := paramBytes p
  runCmd infoTxCapacity p
    (fun _ => firstOf [
      need (120832 ≤ m.n && m.n ≤ 579584 && m.n % 256 == 0) (badParam 16),
      need (m.const ≤ 2) (badParam 20), need (byteAt b 21 == 0) (badParam 21),
      need (m.const != 2 || (192 ≤ m.k && m.k ≤ 368)) (badParam 22),
      need (m.rate ≤ 2) (badParam 24), need (1 ≤ m.roll && m.roll ≤ 20) (badParam 25),
      need (fld b 26 2 == 0) (badParam 26)])
    (fun s => (.data (capacityBytes m), s)) s

end Sys2Proof.Machine
end

