-- ==== Sys2Proof/Machine/WhisperCmds.lean ====
section
/-! DEFINITION. WhisperCmds.lean: the commands and events of Whisper.lean, each in the present tick's open commit
window. -/
namespace Sys2Proof.Machine

/-- PILOT_LOCK. -/
def execPilotLock (c : Line) (locked : Bool) (s : State) : Out := clocked (pilotLock c locked) s

/-- WH_LIGHT_CHANGE. -/
def execWhLightChange (c : Line) (present : Bool) (s : State) : Out := clocked (lightChange c present) s

/-- WH_SYNC_DETECT: the differences from the sync word found in each mode. -/
def execWhSyncDetect (c : Line) (diffs : Vector Nat 4) (s : State) : Out := clocked (syncDetect c diffs.toList) s

/-- WH_HEADER. -/
def execWhHeader (c : Line) (raw : BitVec 32) (s : State) : Out := clocked (whOnHeader c raw.toNat) s

/-- WH_FRAME_RX. -/
def execWhFrameRx (c : Line) (raw : Bytes) (s : State) : Out := clocked (whOnFrame c raw) s

/-- WH_STATUS. -/
def execWhStatus (p : Packet) (s : State) : Out :=
  runCmd infoWhStatus p (fun _ => none) (fun s => (.data (whStatusBytes s (pktLine p)), s)) s

/-- WH_SEND. -/
def execWhSend (p : Packet) (s : State) : Out :=
  let b := paramBytes p
  let m := byteAt b 0
  let c := pktLine p
  runPool infoWhSend p (fun _ => firstOf [need (m ≤ 3 || m == 0xFF) (badParam 0), need (rsv b 1 4) (badParam 1)])
    (fun s => (getWh s c).host.length < 8)
    (fun s =>
      let x := getWh s c
      if s.parN 0xA000 c.inst < 2 then (.st stWrongState, s)
      else (.ok x.seq, updWh c (fun x => { x with
        seq := (x.seq + 1) % 256,
        host := x.host ++ [{ chan := 0, seq := x.seq, mode := if m = 0xFF then none else some m,
                             payload := b.drop 4, at_ := s.elapsed }] }) s)) s

/-- WH_RECV. -/
def execWhRecv (p : Packet) (s : State) : Out :=
  let c := pktLine p
  runCmd infoWhRecv p (fun _ => none) (fun s =>
    match (getWh s c).queue with
    | [] => (.data (zeros 24), s)
    | m :: rest =>
      takeData p (whRecord m) s (updWh c (fun x => { x with queue := rest }) s)) s

/-- WH_CONFIG. -/
def execWhConfig (p : Packet) (s : State) : Out :=
  let b := paramBytes p
  let m := byteAt b 0
  let d := byteAt b 1
  runCmd infoWhConfig p (fun _ => firstOf [need (m ≤ 3) (badParam 0), need (10 ≤ d && d ≤ 40) (badParam 1)])
    (fun s => (.ok, (pktLines p).foldl (fun s c =>
      updWh c (fun x => { x with pendMode := some m, pendDepth := some d }) s) s)) s

/-- WH_BANK_SWAP. -/
def execWhBankSwap (p : Packet) (s : State) : Out :=
  let b := paramBytes p
  let n := byteAt b 0
  runCmd infoWhBankSwap p (fun _ => firstOf [need (n ≤ 3) (badParam 0), need (byteAt b 1 ≤ 1) (badParam 1)])
    (fun s =>
      if (getChain s n).swap.isSome || coefFrozen s n then (.st stBusy, s)
      else (.ok, updChain n (fun x => { x with swap := some (byteAt b 1 == 1) }) s)) s

/-- WH_CAPTURE: answered once its entries are taken. -/
def execWhCapture (p : Packet) (s : State) : Out :=
  let b := paramBytes p
  let n := byteAt b 16
  let pt := byteAt b 17
  let l := fld b 20 4
  runCmd infoWhCapture p
    (fun _ => firstOf [need (n ≤ 3) (badParam 16), need (pt ≤ 2 && (pt == 0 || n < 2)) (badParam 17),
      need (rsv b 18 20) (badParam 18), need (1 ≤ l && l ≤ 16384) (badParam 20)])
    (fun s => (.wait, { s with wh := { s.wh with
      caps := s.wh.caps ++ [{ owner := packetKey p, chain := n, point := pt, left := l }] } })) s

end Sys2Proof.Machine
end

