-- ==== Sys2Proof/Machine/Dispatch.lean ====
section
/-! DEFINITION. Dispatch.lean: one arm per command, each a direct call of its meaning. -/
namespace Sys2Proof.Machine

/-- The effect of one command on everything but the queue of waiting commands. -/
def exec (i : Instr) (s : State) : Host.Outcome State Fault Refusal :=
  match i with
  | .nop op p => Sys2Proof.Machine.execNop op p s
  | .identify p => Sys2Proof.Machine.execIdentify p s
  | .stateGet p => Sys2Proof.Machine.execStateGet p s
  | .sessionOpen p => Sys2Proof.Machine.execSessionOpen p s
  | .sessionClose p => Sys2Proof.Machine.execSessionClose p s
  | .expertEnable p => Sys2Proof.Machine.execExpertEnable p s
  | .paramGet p => Sys2Proof.Machine.execParamGet p s
  | .paramSet p => Sys2Proof.Machine.execParamSet p s
  | .commit p => Sys2Proof.Machine.execCommit p s
  | .solsticePrepare p => Sys2Proof.Machine.execSolsticePrepare p s
  | .solsticeArm p => Sys2Proof.Machine.execSolsticeArm p s
  | .solsticeCancel p => Sys2Proof.Machine.execSolsticeCancel p s
  | .timedList p => Sys2Proof.Machine.execTimedList p s
  | .fwUpdate p chunk => Sys2Proof.Machine.execFwUpdate p chunk s
  | .fwActivate p => Sys2Proof.Machine.execFwActivate p s
  | .flashStatus p => Sys2Proof.Machine.execFlashStatus p s
  | .entryFreeze => Sys2Proof.Machine.execEntryFreeze s
  | .timedActionExecute => Sys2Proof.Machine.execTimedActionExecute s
  | .commandDeadline q tag seq => Sys2Proof.Machine.execCommandDeadline q tag seq s
  | .lateResult q tag seq => Sys2Proof.Machine.execLateResult q tag seq s
  | .pcieReadTimeout q hdr again => Sys2Proof.Machine.execPcieReadTimeout q hdr again s
  | .pcieLateCpl q => Sys2Proof.Machine.execPcieLateCpl q s
  | .cqCompletionWrite q => Sys2Proof.Machine.execCqCompletionWrite q s
  | .coalTimeExpiry q => Sys2Proof.Machine.execCoalTimeExpiry q s
  | .watchdogExpiry core => Sys2Proof.Machine.execWatchdogExpiry core s
  | .fwRestartDone => Sys2Proof.Machine.execFwRestartDone s
  | .flashOpDone ok => Sys2Proof.Machine.execFlashOpDone ok s
  | .sqTail q v => Sys2Proof.Machine.execSqTail q v s
  | .cqHead q v => Sys2Proof.Machine.execCqHead q v s
  | .queueEnable q => Sys2Proof.Machine.execQueueEnable q s
  | .queueDisable q => Sys2Proof.Machine.execQueueDisable q s
  | .qCfg q v => Sys2Proof.Machine.execQCfg q v s
  | .stagingFieldWrite q cq v => Sys2Proof.Machine.execStagingFieldWrite q cq v s
  | .triggerFieldWrite q cq v => Sys2Proof.Machine.execTriggerFieldWrite q cq v s
  | .sysLock v => Sys2Proof.Machine.execSysLock v s
  | .bootLoad v => Sys2Proof.Machine.execBootLoad v s
  | .gpioOut v => Sys2Proof.Machine.execGpioOut v s
  | .shadowApply => Sys2Proof.Machine.execShadowApply s
  | .harvHead v => Sys2Proof.Machine.execHarvHead v s
  | .cntLoRead path n => Sys2Proof.Machine.execCntLoRead path n s
  | .tickNowLoRead path => Sys2Proof.Machine.execTickNowLoRead path s
  | .evtMask k v => Sys2Proof.Machine.execEvtMask k v s
  | .evtVec k v => Sys2Proof.Machine.execEvtVec k v s
  | .registerWrite addr size v => Sys2Proof.Machine.execRegisterWrite addr size v s
  | .spiWrite addr bytes => Sys2Proof.Machine.execSpiWrite addr bytes s
  | .spiRead addr n => Sys2Proof.Machine.execSpiRead addr n s
  | .spiStatusRead => Sys2Proof.Machine.execSpiStatusRead s
  | .mailboxDoorbell => Sys2Proof.Machine.execMailboxDoorbell s
  | .reset => Sys2Proof.Machine.execReset s
  | .resetRelease strap => Sys2Proof.Machine.execResetRelease strap s
  | .xoFound => Sys2Proof.Machine.execXoFound s
  | .xoAbsent => Sys2Proof.Machine.execXoAbsent s
  | .pllLock => Sys2Proof.Machine.execPllLock s
  | .imageReadDone ok => Sys2Proof.Machine.execImageReadDone ok s
  | .imageCheckDone => Sys2Proof.Machine.execImageCheckDone s
  | .standbyReady engFail coreFail => Sys2Proof.Machine.execStandbyReady engFail coreFail s
  | .perstN => Sys2Proof.Machine.execPerstN s
  | .perstNDeassert => Sys2Proof.Machine.execPerstNDeassert s
  | .pcieFunctionReset => Sys2Proof.Machine.execPcieFunctionReset s
  | .powerLoss => Sys2Proof.Machine.execPowerLoss s
  | .xoInLoss => Sys2Proof.Machine.execXoInLoss s
  | .thermtrip => Sys2Proof.Machine.execThermtrip s
  | .tjReading t => Sys2Proof.Machine.execTjReading t s
  | .alertN faults => Sys2Proof.Machine.execAlertN faults s
  | .gpioWakeEdge gpio falling => Sys2Proof.Machine.execGpioWakeEdge gpio falling s
  | .wakeDone => Sys2Proof.Machine.execWakeDone s
  | .pinContention pin => Sys2Proof.Machine.execPinContention pin s
  | .openDrainStuck pin => Sys2Proof.Machine.execOpenDrainStuck pin s
  | .tick x => Sys2Proof.Machine.execTick x s
  | .epochBoundary => Sys2Proof.Machine.execEpochBoundary s
  | .pwrStatus p => Sys2Proof.Machine.execPwrStatus p s
  | .pwrSet p => Sys2Proof.Machine.execPwrSet p s
  | .pwrTransitionDone failed => Sys2Proof.Machine.execPwrTransitionDone failed s
  | .pwrGate p => Sys2Proof.Machine.execPwrGate p s
  | .gatingApply => Sys2Proof.Machine.execGatingApply s
  | .pinRearm p => Sys2Proof.Machine.execPinRearm p s
  | .pmbusXfer p => Sys2Proof.Machine.execPmbusXfer p s
  | .pmbusTransactionDone fails data => Sys2Proof.Machine.execPmbusTransactionDone fails data s
  | .telemetryRead reads => Sys2Proof.Machine.execTelemetryRead reads s
  | .avsStep up down ok => Sys2Proof.Machine.execAvsStep up down ok s
  | .tmStatus p => Sys2Proof.Machine.execTmStatus p s
  | .tmSelect p => Sys2Proof.Machine.execTmSelect p s
  | .tmPriority p => Sys2Proof.Machine.execTmPriority p s
  | .tmStep p => Sys2Proof.Machine.execTmStep p s
  | .tmPhaseAdj p => Sys2Proof.Machine.execTmPhaseAdj p s
  | .tmSteer p => Sys2Proof.Machine.execTmSteer p s
  | .ppsAlign p => Sys2Proof.Machine.execPpsAlign p s
  | .tmTodRead p => Sys2Proof.Machine.execTmTodRead p s
  | .tmForceHoldover p => Sys2Proof.Machine.execTmForceHoldover p s
  | .refQualify r => Sys2Proof.Machine.execRefQualify r s
  | .refDisqualify r => Sys2Proof.Machine.execRefDisqualify r s
  | .wtrExpiry r => Sys2Proof.Machine.execWtrExpiry r s
  | .pllLocked => Sys2Proof.Machine.execPllLocked s
  | .phaseAdjComplete => Sys2Proof.Machine.execPhaseAdjComplete s
  | .ppsEdge o => Sys2Proof.Machine.execPpsEdge o s
  | .todTxMessage => Sys2Proof.Machine.execTodTxMessage s
  | .todRxMessage bytes => Sys2Proof.Machine.execTodRxMessage bytes s
  | .txStatus p => Sys2Proof.Machine.execTxStatus p s
  | .txModePreset p => Sys2Proof.Machine.execTxModePreset p s
  | .txCapacity p => Sys2Proof.Machine.execTxCapacity p s
  | .converterRetuneDone c => Sys2Proof.Machine.execConverterRetuneDone c s
  | .automaticSwitch c => Sys2Proof.Machine.execAutomaticSwitch c s
  | .rxStatus p => Sys2Proof.Machine.execRxStatus p s
  | .rxAcquire p => Sys2Proof.Machine.execRxAcquire p s
  | .rxMeasure p => Sys2Proof.Machine.execRxMeasure p s
  | .rxTapDump p => Sys2Proof.Machine.execRxTapDump p s
  | .rxCapture p => Sys2Proof.Machine.execRxCapture p s
  | .signalPresent c => Sys2Proof.Machine.execSignalPresent c s
  | .signalLost c => Sys2Proof.Machine.execSignalLost c s
  | .cdScanDone c coarse best => Sys2Proof.Machine.execCdScanDone c coarse best s
  | .timingLocked c => Sys2Proof.Machine.execTimingLocked c s
  | .equaliserConverged c => Sys2Proof.Machine.execEqualiserConverged c s
  | .timingTimeout c => Sys2Proof.Machine.execTimingTimeout c s
  | .equaliseTimeout c => Sys2Proof.Machine.execEqualiseTimeout c s
  | .acquisitionTimeout c => Sys2Proof.Machine.execAcquisitionTimeout c s
  | .fasLock c => Sys2Proof.Machine.execFasLock c s
  | .lockLoss c => Sys2Proof.Machine.execLockLoss c s
  | .modeRevertTimeout c => Sys2Proof.Machine.execModeRevertTimeout c s
  | .fecStatus p => Sys2Proof.Machine.execFecStatus p s
  | .fecPool p => Sys2Proof.Machine.execFecPool p s
  | .fecCoreTest p => Sys2Proof.Machine.execFecCoreTest p s
  | .decodeEnd c frame cw => Sys2Proof.Machine.execDecodeEnd c frame cw s
  | .redecodeStart c cw => Sys2Proof.Machine.execRedecodeStart c cw s
  | .codewordRelease c cw => Sys2Proof.Machine.execCodewordRelease c cw s
  | .coreSelfTest core pass => Sys2Proof.Machine.execCoreSelfTest core pass s
  | .frmStatus p => Sys2Proof.Machine.execFrmStatus p s
  | .frmGccSend p => Sys2Proof.Machine.execFrmGccSend p s
  | .frmGccRecv p => Sys2Proof.Machine.execFrmGccRecv p s
  | .frmApsSet p => Sys2Proof.Machine.execFrmApsSet p s
  | .frmOhCapture p => Sys2Proof.Machine.execFrmOhCapture p s
  | .lineFrameRx c lag => Sys2Proof.Machine.execLineFrameRx c lag s
  | .frameAlignmentGain c => Sys2Proof.Machine.execFrameAlignmentGain c s
  | .frameAlignmentLoss c => Sys2Proof.Machine.execFrameAlignmentLoss c s
  | .lofTimer c => Sys2Proof.Machine.execLofTimer c s
  | .lomTimer c => Sys2Proof.Machine.execLomTimer c s
  | .gccMessageRx c => Sys2Proof.Machine.execGccMessageRx c s
  | .seqEnd c d => Sys2Proof.Machine.execSeqEnd c d s
  | .seqLdi c d => Sys2Proof.Machine.execSeqLdi c d s
  | .seqLdh c d => Sys2Proof.Machine.execSeqLdh c d s
  | .seqAdd c d => Sys2Proof.Machine.execSeqAdd c d s
  | .seqAddi c d => Sys2Proof.Machine.execSeqAddi c d s
  | .seqAnd c d => Sys2Proof.Machine.execSeqAnd c d s
  | .seqOr c d => Sys2Proof.Machine.execSeqOr c d s
  | .seqXor c d => Sys2Proof.Machine.execSeqXor c d s
  | .seqShl c d => Sys2Proof.Machine.execSeqShl c d s
  | .seqShr c d => Sys2Proof.Machine.execSeqShr c d s
  | .seqLdt c d => Sys2Proof.Machine.execSeqLdt c d s
  | .seqLdp c d => Sys2Proof.Machine.execSeqLdp c d s
  | .seqLds c d => Sys2Proof.Machine.execSeqLds c d s
  | .seqSts c d => Sys2Proof.Machine.execSeqSts c d s
  | .seqRdb c d => Sys2Proof.Machine.execSeqRdb c d s
  | .seqWrb c d => Sys2Proof.Machine.execSeqWrb c d s
  | .seqCrc8 c d => Sys2Proof.Machine.execSeqCrc8 c d s
  | .seqSkeq c d => Sys2Proof.Machine.execSeqSkeq c d s
  | .seqSkne c d => Sys2Proof.Machine.execSeqSkne c d s
  | .seqSklt c d => Sys2Proof.Machine.execSeqSklt c d s
  | .seqCnt c d => Sys2Proof.Machine.execSeqCnt c d s
  | .seqEvt c d => Sys2Proof.Machine.execSeqEvt c d s
  | .cliStatus p => Sys2Proof.Machine.execCliStatus p s
  | .cliTsRead p => Sys2Proof.Machine.execCliTsRead p s
  | .clientBitslip p => Sys2Proof.Machine.execClientBitslip p s
  | .ingressAlignment cl aligned => Sys2Proof.Machine.execIngressAlignment cl aligned s
  | .laneClockChange lane ok => Sys2Proof.Machine.execLaneClockChange lane ok s
  | .laneRetuneDone cl => Sys2Proof.Machine.execLaneRetuneDone cl s
  | .squelchDelayExpiry cl => Sys2Proof.Machine.execSquelchDelayExpiry cl s
  | .tsPacket cl d ns frac pkt => Sys2Proof.Machine.execTsPacket cl d ns frac pkt s
  | .cryStatus p => Sys2Proof.Machine.execCryStatus p s
  | .keyInstall p => Sys2Proof.Machine.execKeyInstall p s
  | .keyInstallApply => Sys2Proof.Machine.execKeyInstallApply s
  | .keySwitch p => Sys2Proof.Machine.execKeySwitch p s
  | .keyZeroise p => Sys2Proof.Machine.execKeyZeroise p s
  | .cryGcmTest p src => Sys2Proof.Machine.execCryGcmTest p src s
  | .keStart p => Sys2Proof.Machine.execKeStart p s
  | .keStatus p => Sys2Proof.Machine.execKeStatus p s
  | .keAbort p => Sys2Proof.Machine.execKeAbort p s
  | .keSecretSet p => Sys2Proof.Machine.execKeSecretSet p s
  | .pkVerify p => Sys2Proof.Machine.execPkVerify p s
  | .pkEcdh p => Sys2Proof.Machine.execPkEcdh p s
  | .keEpochFloor p => Sys2Proof.Machine.execKeEpochFloor p s
  | .epochRecordWritten ok => Sys2Proof.Machine.execEpochRecordWritten ok s
  | .keyUseLimit c sa => Sys2Proof.Machine.execKeyUseLimit c sa s
  | .retiredKeyZeroise c sa => Sys2Proof.Machine.execRetiredKeyZeroise c sa s
  | .rxKeyCheckLimit c sa => Sys2Proof.Machine.execRxKeyCheckLimit c sa s
  | .offer c => Sys2Proof.Machine.execOffer c s
  | .answer c => Sys2Proof.Machine.execAnswer c s
  | .confirm c => Sys2Proof.Machine.execConfirm c s
  | .done c => Sys2Proof.Machine.execDone c s
  | .abort c => Sys2Proof.Machine.execAbort c s
  | .keResendExpiry c => Sys2Proof.Machine.execKeResendExpiry c s
  | .noPeerTimeout c => Sys2Proof.Machine.execNoPeerTimeout c s
  | .pkOpDone => Sys2Proof.Machine.execPkOpDone s
  | .drbgReseed ok => Sys2Proof.Machine.execDrbgReseed ok s
  | .whStatus p => Sys2Proof.Machine.execWhStatus p s
  | .whSend p => Sys2Proof.Machine.execWhSend p s
  | .whRecv p => Sys2Proof.Machine.execWhRecv p s
  | .whConfig p => Sys2Proof.Machine.execWhConfig p s
  | .whBankSwap p => Sys2Proof.Machine.execWhBankSwap p s
  | .whBankSwapApply chain => Sys2Proof.Machine.execWhBankSwapApply chain s
  | .whCapture p => Sys2Proof.Machine.execWhCapture p s
  | .whFrameStart c => Sys2Proof.Machine.execWhFrameStart c s
  | .whFrameSent c => Sys2Proof.Machine.execWhFrameSent c s
  | .whSyncDetect c diffs => Sys2Proof.Machine.execWhSyncDetect c diffs s
  | .whHeader c raw => Sys2Proof.Machine.execWhHeader c raw s
  | .whFrameRx c raw => Sys2Proof.Machine.execWhFrameRx c raw s
  | .whLightChange c present => Sys2Proof.Machine.execWhLightChange c present s
  | .pilotLock c locked => Sys2Proof.Machine.execPilotLock c locked s
  | .dmStatus p => Sys2Proof.Machine.execDmStatus p s
  | .dmJoin p => Sys2Proof.Machine.execDmJoin p s
  | .dmLeave p => Sys2Proof.Machine.execDmLeave p s
  | .dmPublish p => Sys2Proof.Machine.execDmPublish p s
  | .dmCfgRead p => Sys2Proof.Machine.execDmCfgRead p s
  | .dmSend p => Sys2Proof.Machine.execDmSend p s
  | .dmRecv p => Sys2Proof.Machine.execDmRecv p s
  | .dmCall p => Sys2Proof.Machine.execDmCall p s
  | .dmCallBind p => Sys2Proof.Machine.execDmCallBind p s
  | .callWaitLimit => Sys2Proof.Machine.execCallWaitLimit s
  | .cfgReq => Sys2Proof.Machine.execCfgReq s
  | .cfgPart => Sys2Proof.Machine.execCfgPart s
  | .call => Sys2Proof.Machine.execCall s
  | .host => Sys2Proof.Machine.execHost s
  | .probe => Sys2Proof.Machine.execProbe s
  | .probeReply => Sys2Proof.Machine.execProbeReply s
  | .beacon => Sys2Proof.Machine.execBeacon s
  | .domainRecordWritten ok => Sys2Proof.Machine.execDomainRecordWritten ok s
  | .cfgAdopt => Sys2Proof.Machine.execCfgAdopt s
  | .fetchTimeout => Sys2Proof.Machine.execFetchTimeout s
  | .cfgSkewTimeout nb => Sys2Proof.Machine.execCfgSkewTimeout nb s
  | .epochGraceExpiry c => Sys2Proof.Machine.execEpochGraceExpiry c s
  | .pathTimeout path => Sys2Proof.Machine.execPathTimeout path s
  | .whisperBeaconSend c => Sys2Proof.Machine.execWhisperBeaconSend c s
  | .mateStatus p => Sys2Proof.Machine.execMateStatus p s
  | .mateSwitch p => Sys2Proof.Machine.execMateSwitch p s
  | .mateFrameRx lane frame lag => Sys2Proof.Machine.execMateFrameRx lane frame lag s
  | .mateLaneDown lane => Sys2Proof.Machine.execMateLaneDown lane s
  | .mateActivate => Sys2Proof.Machine.execMateActivate s
  | .mateSwitchTick => Sys2Proof.Machine.execMateSwitchTick s
  | .mateAutoSwitch => Sys2Proof.Machine.execMateAutoSwitch s
  | .mateHoldoffExpiry => Sys2Proof.Machine.execMateHoldoffExpiry s
  | .probeTimer => Sys2Proof.Machine.execProbeTimer s
  | .juniorLeaseExpiry => Sys2Proof.Machine.execJuniorLeaseExpiry s
  | .seniorTakeover => Sys2Proof.Machine.execSeniorTakeover s
  | .peerLostTimeout => Sys2Proof.Machine.execPeerLostTimeout s
  | .calStatus p => Sys2Proof.Machine.execCalStatus p s
  | .calRun p => Sys2Proof.Machine.execCalRun p s
  | .calStore p => Sys2Proof.Machine.execCalStore p s
  | .calTest p => Sys2Proof.Machine.execCalTest p s
  | .calTrimSet p => Sys2Proof.Machine.execCalTrimSet p s
  | .calSpareSet p => Sys2Proof.Machine.execCalSpareSet p s
  | .calDump p => Sys2Proof.Machine.execCalDump p s
  | .foregroundCalDone cv res => Sys2Proof.Machine.execForegroundCalDone cv res s
  | .calMeasurementDone cv res => Sys2Proof.Machine.execCalMeasurementDone cv res s
  | .spareCalDone cv res => Sys2Proof.Machine.execSpareCalDone cv res s
  | .spareSwap cv => Sys2Proof.Machine.execSpareSwap cv s
  | .calStoreWritten ok => Sys2Proof.Machine.execCalStoreWritten ok s
  | .tempSensorRead cv t => Sys2Proof.Machine.execTempSensorRead cv t s
  | .stwStatus p => Sys2Proof.Machine.execStwStatus p s
  | .tenStatus p => Sys2Proof.Machine.execTenStatus p s
  | .engImageLoad p img => Sys2Proof.Machine.execEngImageLoad p img s
  | .engImageFree p => Sys2Proof.Machine.execEngImageFree p s
  | .stwPageAlloc p => Sys2Proof.Machine.execStwPageAlloc p s
  | .pageRequestTimeout => Sys2Proof.Machine.execPageRequestTimeout s
  | .stwPageFree p => Sys2Proof.Machine.execStwPageFree p s
  | .stwRenew p => Sys2Proof.Machine.execStwRenew p s
  | .stwDmaGrant p => Sys2Proof.Machine.execStwDmaGrant p s
  | .stwDmaRelease p => Sys2Proof.Machine.execStwDmaRelease p s
  | .tenantRevoke p => Sys2Proof.Machine.execTenantRevoke p s
  | .stwQuarantine p => Sys2Proof.Machine.execStwQuarantine p s
  | .stwRelease p => Sys2Proof.Machine.execStwRelease p s
  | .engTest p => Sys2Proof.Machine.execEngTest p s
  | .runBudgetExpiry e => Sys2Proof.Machine.execRunBudgetExpiry e s
  | .engineSelfTest e pass => Sys2Proof.Machine.execEngineSelfTest e pass s
  | .zeroiseDone page => Sys2Proof.Machine.execZeroiseDone page s
  | .engEnd e => Sys2Proof.Machine.execEngEnd e s
  | .engNop e => Sys2Proof.Machine.execEngNop e s
  | .engBr e => Sys2Proof.Machine.execEngBr e s
  | .engEvt e => Sys2Proof.Machine.execEngEvt e s
  | .engSys e => Sys2Proof.Machine.execEngSys e s
  | .engAdd e => Sys2Proof.Machine.execEngAdd e s
  | .engSub e => Sys2Proof.Machine.execEngSub e s
  | .engAnd e => Sys2Proof.Machine.execEngAnd e s
  | .engOr e => Sys2Proof.Machine.execEngOr e s
  | .engXor e => Sys2Proof.Machine.execEngXor e s
  | .engShl e => Sys2Proof.Machine.execEngShl e s
  | .engShr e => Sys2Proof.Machine.execEngShr e s
  | .engSar e => Sys2Proof.Machine.execEngSar e s
  | .engMovi e => Sys2Proof.Machine.execEngMovi e s
  | .engAddi e => Sys2Proof.Machine.execEngAddi e s
  | .engCmpeq e => Sys2Proof.Machine.execEngCmpeq e s
  | .engCmplt e => Sys2Proof.Machine.execEngCmplt e s
  | .engCmpltu e => Sys2Proof.Machine.execEngCmpltu e s
  | .engMul e => Sys2Proof.Machine.execEngMul e s
  | .engMulh e => Sys2Proof.Machine.execEngMulh e s
  | .engMulhu e => Sys2Proof.Machine.execEngMulhu e s
  | .engVadd e => Sys2Proof.Machine.execEngVadd e s
  | .engVsub e => Sys2Proof.Machine.execEngVsub e s
  | .engVadds e => Sys2Proof.Machine.execEngVadds e s
  | .engVsubs e => Sys2Proof.Machine.execEngVsubs e s
  | .engVmin e => Sys2Proof.Machine.execEngVmin e s
  | .engVmax e => Sys2Proof.Machine.execEngVmax e s
  | .engVand e => Sys2Proof.Machine.execEngVand e s
  | .engVor e => Sys2Proof.Machine.execEngVor e s
  | .engVxor e => Sys2Proof.Machine.execEngVxor e s
  | .engVshl e => Sys2Proof.Machine.execEngVshl e s
  | .engVshr e => Sys2Proof.Machine.execEngVshr e s
  | .engVsar e => Sys2Proof.Machine.execEngVsar e s
  | .engVcmpeq e => Sys2Proof.Machine.execEngVcmpeq e s
  | .engVcmplt e => Sys2Proof.Machine.execEngVcmplt e s
  | .engVmul e => Sys2Proof.Machine.execEngVmul e s
  | .engMac e => Sys2Proof.Machine.execEngMac e s
  | .engCmul e => Sys2Proof.Machine.execEngCmul e s
  | .engCmac e => Sys2Proof.Machine.execEngCmac e s
  | .engCmacc e => Sys2Proof.Machine.execEngCmacc e s
  | .engBcast e => Sys2Proof.Machine.execEngBcast e s
  | .engShuf e => Sys2Proof.Machine.execEngShuf e s
  | .engRot e => Sys2Proof.Machine.execEngRot e s
  | .engRedadd e => Sys2Proof.Machine.execEngRedadd e s
  | .engIns e => Sys2Proof.Machine.execEngIns e s
  | .engExt e => Sys2Proof.Machine.execEngExt e s
  | .engPand e => Sys2Proof.Machine.execEngPand e s
  | .engPor e => Sys2Proof.Machine.execEngPor e s
  | .engPnot e => Sys2Proof.Machine.execEngPnot e s
  | .engPmov e => Sys2Proof.Machine.execEngPmov e s
  | .engLd e => Sys2Proof.Machine.execEngLd e s
  | .engSt e => Sys2Proof.Machine.execEngSt e s
  | .engVld e => Sys2Proof.Machine.execEngVld e s
  | .engVst e => Sys2Proof.Machine.execEngVst e s
  | .engVin e => Sys2Proof.Machine.execEngVin e s
  | .engVout e => Sys2Proof.Machine.execEngVout e s
  | .engSin e => Sys2Proof.Machine.execEngSin e s
  | .engSout e => Sys2Proof.Machine.execEngSout e s
  | .engSld e => Sys2Proof.Machine.execEngSld e s
  | .engSst e => Sys2Proof.Machine.execEngSst e s
  | .engSwait e => Sys2Proof.Machine.execEngSwait e s
  | .storeStatus p => Sys2Proof.Machine.execStoreStatus p s
  | .storeScrub p => Sys2Proof.Machine.execStoreScrub p s
  | .storeFallow p => Sys2Proof.Machine.execStoreFallow p s
  | .storeFlush p => Sys2Proof.Machine.execStoreFlush p s
  | .dmaStart p => Sys2Proof.Machine.execDmaStart p s
  | .dmaStatus p => Sys2Proof.Machine.execDmaStatus p s
  | .dmaAbort p => Sys2Proof.Machine.execDmaAbort p s
  | .crcUnit p => Sys2Proof.Machine.execCrcUnit p s
  | .storeInject p => Sys2Proof.Machine.execStoreInject p s
  | .dmaDescriptor ch desc data => Sys2Proof.Machine.execDmaDescriptor ch desc data s
  | .descriptorComplete ch => Sys2Proof.Machine.execDescriptorComplete ch s
  | .mergeFlushTimeout => Sys2Proof.Machine.execMergeFlushTimeout s
  | .quarantineTest page ones zeros => Sys2Proof.Machine.execQuarantineTest page ones zeros s
  | .fallowRecordWritten ok => Sys2Proof.Machine.execFallowRecordWritten ok s
  | .periodicScrub => Sys2Proof.Machine.execPeriodicScrub s
  | .obsClear p => Sys2Proof.Machine.execObsClear p s
  | .obsHarvestNow p => Sys2Proof.Machine.execObsHarvestNow p s
  | .obsSampleRead p => Sys2Proof.Machine.execObsSampleRead p s
  | .harvest => Sys2Proof.Machine.execHarvest s
  | .harvestRecordWritten => Sys2Proof.Machine.execHarvestRecordWritten s
  | .equaliserConvergenceLost c => Sys2Proof.Machine.execEqualiserConvergenceLost c s
  | .exchangeRecordExpiry c => Sys2Proof.Machine.execExchangeRecordExpiry c s
  | .missingOffsetRequest => Sys2Proof.Machine.execMissingOffsetRequest s
  | .conflictFlagExpiry => Sys2Proof.Machine.execConflictFlagExpiry s

end Sys2Proof.Machine
end

