-- ==== Sys2Proof/Safety.lean ====
section
/-! DEFINITION. Safety.lean: the terms claims are stated in: when a command or event finds the device able to act, when
a host command passes everything that R81 asks of every command alike, and the invariants. -/
namespace Sys2Proof.Machine

/-- The clocks run, and `s1` is `s` with the commit window of its tick opened (R39). -/
structure Running (s s1 : State) : Prop where
  window : openWindow s = s1
  clocks : stopped s1 = false

/-- The device is out of reset and no thermal trip holds it; `s1` is `s` with the commit window of its tick opened. -/
structure Awake (s s1 : State) : Prop where
  window : openWindow s = s1
  untripped : s1.pwr.tripped = false
  released : s1.boot.inReset = false

/-- The device takes packet `p` of opcode `op` now and finds nothing amiss in steps 1 to 5 of R81; `t` is the state after
them. -/
structure Taken (op : Nat) (p : Packet) (s t : State) : Prop where
  formed : packetWf p = true
  clocks : stopped (openWindow s) = false
  fetched : ∃ u, fetch op p (openWindow s) = some u ∧ dupOf u (packetKey p) (packetCrc op p) = .fresh
    ∧ u.sys.deviceFault = false ∧ t = noted p u
  length : checkLen op p = none
  check : p.crcPresent = true → packetCrc op p = p.crc.toNat

/-- The device takes packet `p` now and finds nothing amiss in what R81 asks of every command of its row alike: steps 1
to 5, the session, the header, the parameter length, the result descriptor and the domain config version. -/
structure Ready (i : CmdInfo) (p : Packet) (s t : State) : Prop where
  taken : Taken i.op p s t
  session : checkSession i p t = none
  header : firstOf (checkHeader i p) = none
  params : firstOf (checkParams i p) = none
  version : checkVersion p t = none

/-- Steps 10 to 12 of R81 for a timed command of class `cls`: it is placed at tick `x`, later than asked when `late`. -/
structure Placed (cls : ChangeClass) (p : Packet) (t : State) (x : Nat) (late : Bool) : Prop where
  place : placeAt cls p t.tick = .ok (x, late)
  allowed : cls = .disruptive → p.allowHit = true
  room : timedUsed t < 1024

/-- The timed-action table with the entry of an accepted command. -/
def scheduled (op : Nat) (p : Packet) (a : Action) (cls : ChangeClass) (x : Nat) (late : Bool) (t : State) : State :=
  enter (entryOf op p a cls x late (accept p t)) (accept p t)

/-- The pins say what the registers they depend on say (R456, R475, R476). -/
def PinsKept (s : State) : Prop := s.pins = pinsOf s

/-- The byte memories hold their canonical form: host memory as the device writes it, the Store, flash, boot staging and the
areas of the SPI mailbox. -/
def Memory.wf (s : State) : Bool :=
  SMap.wf (0 : Byte) s.hostMem && SMap.wf (0 : Byte) s.str.mem && SMap.wf (0xFF : Byte) s.flash.mem
    && SMap.wf (0 : Byte) s.boot.staging && SMap.wf (0 : Byte) s.cmd.mb.req && SMap.wf (0 : Byte) s.cmd.mb.res

/-- Is the command one of the commit window itself, so that it acts before the rest of the window? -/
def ofWindow : Instr → Bool
  | .entryFreeze | .timedActionExecute | .shadowApply | .tick _ | .epochBoundary | .harvest | .pwrTransitionDone _
  | .gatingApply | .automaticSwitch _ | .keyInstallApply | .whBankSwapApply _ | .whFrameStart _ | .whFrameSent _
  | .callWaitLimit | .cfgAdopt | .mateActivate | .mateSwitchTick | .juniorLeaseExpiry | .seniorTakeover => true
  | _ => false

/-- Does the command act on reset, power or pins whatever holds the device? -/
def ofPins : Instr → Bool
  | .reset | .resetRelease _ | .powerLoss | .perstN | .perstNDeassert | .thermtrip => true
  | _ => false

/-- The row constants and the packet of a host command (R76); a NOP packet of an unassigned opcode has no row. -/
def hostCommand : Instr → Option (CmdInfo × Packet)
  | .nop op p => if op = 0 then some (infoNop, p) else none
  | .identify p => some (infoIdentify, p)
  | .stateGet p => some (infoStateGet, p)
  | .sessionOpen p => some (infoSessionOpen, p)
  | .sessionClose p => some (infoSessionClose, p)
  | .expertEnable p => some (infoExpertEnable, p)
  | .paramGet p => some (infoParamGet, p)
  | .paramSet p => some (infoParamSet, p)
  | .commit p => some (infoCommit, p)
  | .solsticePrepare p => some (infoSolsticePrepare, p)
  | .solsticeArm p => some (infoSolsticeArm, p)
  | .solsticeCancel p => some (infoSolsticeCancel, p)
  | .timedList p => some (infoTimedList, p)
  | .fwUpdate p _ => some (infoFwUpdate, p)
  | .fwActivate p => some (infoFwActivate, p)
  | .flashStatus p => some (infoFlashStatus, p)
  | .pwrStatus p => some (infoPwrStatus, p)
  | .pwrSet p => some (infoPwrSet, p)
  | .pwrGate p => some (infoPwrGate, p)
  | .pinRearm p => some (infoPinRearm, p)
  | .pmbusXfer p => some (infoPmbusXfer, p)
  | .tmStatus p => some (infoTmStatus, p)
  | .tmSelect p => some (infoTmSelect, p)
  | .tmPriority p => some (infoTmPriority, p)
  | .tmStep p => some (infoTmStep, p)
  | .tmPhaseAdj p => some (infoTmPhaseAdj, p)
  | .tmSteer p => some (infoTmSteer, p)
  | .ppsAlign p => some (infoPpsAlign, p)
  | .tmTodRead p => some (infoTmTodRead, p)
  | .tmForceHoldover p => some (infoTmForceHoldover, p)
  | .txStatus p => some (infoTxStatus, p)
  | .txModePreset p => some (infoTxModePreset, p)
  | .txCapacity p => some (infoTxCapacity, p)
  | .rxStatus p => some (infoRxStatus, p)
  | .rxAcquire p => some (infoRxAcquire, p)
  | .rxMeasure p => some (infoRxMeasure, p)
  | .rxTapDump p => some (infoRxTapDump, p)
  | .rxCapture p => some (infoRxCapture, p)
  | .fecStatus p => some (infoFecStatus, p)
  | .fecPool p => some (infoFecPool, p)
  | .fecCoreTest p => some (infoFecCoreTest, p)
  | .frmStatus p => some (infoFrmStatus, p)
  | .frmGccSend p => some (infoFrmGccSend, p)
  | .frmGccRecv p => some (infoFrmGccRecv, p)
  | .frmApsSet p => some (infoFrmApsSet, p)
  | .frmOhCapture p => some (infoFrmOhCapture, p)
  | .cliStatus p => some (infoCliStatus, p)
  | .cliTsRead p => some (infoCliTsRead, p)
  | .clientBitslip p => some (infoClientBitslip, p)
  | .cryStatus p => some (infoCryStatus, p)
  | .keyInstall p => some (infoKeyInstall, p)
  | .keySwitch p => some (infoKeySwitch, p)
  | .keyZeroise p => some (infoKeyZeroise, p)
  | .cryGcmTest p _ => some (infoCryGcmTest, p)
  | .keStart p => some (infoKeStart, p)
  | .keStatus p => some (infoKeStatus, p)
  | .keAbort p => some (infoKeAbort, p)
  | .keSecretSet p => some (infoKeSecretSet, p)
  | .pkVerify p => some (infoPkVerify, p)
  | .pkEcdh p => some (infoPkEcdh, p)
  | .keEpochFloor p => some (infoKeEpochFloor, p)
  | .whStatus p => some (infoWhStatus, p)
  | .whSend p => some (infoWhSend, p)
  | .whRecv p => some (infoWhRecv, p)
  | .whConfig p => some (infoWhConfig, p)
  | .whBankSwap p => some (infoWhBankSwap, p)
  | .whCapture p => some (infoWhCapture, p)
  | .dmStatus p => some (infoDmStatus, p)
  | .dmJoin p => some (infoDmJoin, p)
  | .dmLeave p => some (infoDmLeave, p)
  | .dmPublish p => some (infoDmPublish, p)
  | .dmCfgRead p => some (infoDmCfgRead, p)
  | .dmSend p => some (infoDmSend, p)
  | .dmRecv p => some (infoDmRecv, p)
  | .dmCall p => some (infoDmCall, p)
  | .dmCallBind p => some (infoDmCallBind, p)
  | .mateStatus p => some (infoMateStatus, p)
  | .mateSwitch p => some (infoMateSwitch, p)
  | .calStatus p => some (infoCalStatus, p)
  | .calRun p => some (infoCalRun, p)
  | .calStore p => some (infoCalStore, p)
  | .calTest p => some (infoCalTest, p)
  | .calTrimSet p => some (infoCalTrimSet, p)
  | .calSpareSet p => some (infoCalSpareSet, p)
  | .calDump p => some (infoCalDump, p)
  | .stwStatus p => some (infoStwStatus, p)
  | .tenStatus p => some (infoTenStatus, p)
  | .engImageLoad p _ => some (infoEngImageLoad, p)
  | .engImageFree p => some (infoEngImageFree, p)
  | .stwPageAlloc p => some (infoStwPageAlloc ((byteAt (paramBytes p) 17).testBit 0), p)
  | .stwPageFree p => some (infoStwPageFree, p)
  | .stwRenew p => some (infoStwRenew, p)
  | .stwDmaGrant p => some (infoStwDmaGrant, p)
  | .stwDmaRelease p => some (infoStwDmaRelease, p)
  | .tenantRevoke p => some (infoTenantRevoke, p)
  | .stwQuarantine p => some (infoStwQuarantine, p)
  | .stwRelease p => some (infoStwRelease, p)
  | .engTest p => some (infoEngTest, p)
  | .storeStatus p => some (infoStoreStatus, p)
  | .storeScrub p => some (infoStoreScrub, p)
  | .storeFallow p => some (infoStoreFallow, p)
  | .storeFlush p => some (infoStoreFlush, p)
  | .dmaStart p => some (infoDmaStart, p)
  | .dmaStatus p => some (infoDmaStatus, p)
  | .dmaAbort p => some (infoDmaAbort, p)
  | .crcUnit p => some (infoCrcUnit, p)
  | .storeInject p => some (infoStoreInject, p)
  | .obsClear p => some (infoObsClear, p)
  | .obsHarvestNow p => some (infoObsHarvestNow, p)
  | .obsSampleRead p => some (infoObsSampleRead, p)
  | _ => none

end Sys2Proof.Machine
end

