-- ==== Sys2Proof/Certificates/Slice0/Obligations.lean ====
section
/-! DEFINITION. Obligations.lean: the statements for the provers. `Running s t` says that `t` is `s` with its tick's
window opened and its clocks running, `Awake` that it also answers its bus, `Ready i p s t` that the packet `p` of a
command described by `i` has passed the common checks in `t`, `Taken` that it passed step 5 as new, `Placed` that its
at-tick was placed; they are defined in Sys2Proof/Safety.lean. -/
open Sys2Proof Sys2Proof.Machine

/-- A step runs the command at the front of the queue. For every command c and state s whose queue is c followed by
rest, step s is exec c on s with the queue's rest; on an empty queue the block idles (the model's choice, log entry
2). -/
def Obligations.StepRunsFrontCommand : Prop :=
  ∀ s : State, (s.pending = [] → step s = .next s) ∧
    ∀ (c : Instr) (rest : List Instr), s.pending = c :: rest → step s = exec c { s with pending := rest }

/-- What reset leaves in registers, sessions, tables and pins. Events disabled, clear and masked; counters 0; queues
disabled; no session; timed-action table, completion cache and Solstices empty; output pins released; SVC_REQ 0;
DEVICE_FAULT clear. That a Store byte reads as 0 is the model's choice (log entry 9). -/
def Obligations.ResetRegisterValues : Prop :=
  let r := State.reset
  (∀ e : Nat, r.ev.en.getLsbD e = false) ∧ (∀ e : Nat, r.ev.stat.getLsbD e = false) ∧
  (∀ e : Nat, e < 256 → r.ev.mask.getLsbD e = true) ∧ (∀ n : Nat, r.count n = 0) ∧
  (∀ q : Nat, (getQ r q).enabled = false) ∧ (∀ q : Nat, getSess r q = none) ∧
  r.cmd.entries = [] ∧ r.cmd.cache = [] ∧ r.cmd.sols = [] ∧ r.sys.deviceFault = false ∧
  r.sys.gpioOut = 0 ∧ r.pwr.svcReq = 0 ∧ r.pins = { intN := false, svcReqN := false, thermtripN := false } ∧
  r.boot.inReset = true ∧ (∀ a : Nat, storeByte r a = 0)

/-- The invariant of the pins holds at reset. State.reset meets PinsKept. -/
def Obligations.ResetMeetsPinInvariant : Prop := PinsKept State.reset

/-- Every step keeps INT_N, SVC_REQ_N and THERMTRIP_N what their registers make them. For every state that meets
PinsKept, a step that answers a next state answers one that meets it: INT_N low exactly while an enabled, unmasked
status bit is set, SVC_REQ_N low exactly while SVC_REQ has a bit, THERMTRIP_N low exactly while the trip is latched.
-/
def Obligations.StepKeepsPins : Prop := ∀ s t : State, PinsKept s → step s = .next t → PinsKept t

/-- Every well-formed command completes in every state; ill-formed ones fault. For every command and every state: if
the command is well formed, exec answers a next state; if not, exec answers the fault illFormed (the model's choice,
log entry 4). -/
def Obligations.WellFormedCommandsComplete : Prop :=
  ∀ (c : Instr) (s : State),
    (c.wf = true → ∃ t, exec c s = .next t) ∧ (c.wf = false → exec c s = .fault .illFormed)

/-- The commit window of a tick comes once, before every command of the tick. For every command that is no pin row
and no window row, exec on a state and exec on the same state with its window opened answer the same. The order
within the window is the model's (log entries 11 and 12). -/
def Obligations.WindowPrecedesCommands : Prop :=
  ∀ (c : Instr) (s : State), ofPins c = false → ofWindow c = false → exec c (openWindow s) = exec c s

/-- After a thermal trip and in reset no command has an effect. For every well-formed command that is no reset, power
or pin row: while the trip is latched or RESET_N is low, exec answers the state unchanged. -/
def Obligations.HeldDeviceChangesNothing : Prop :=
  ∀ (c : Instr) (s : State), (s.pwr.tripped = true ∨ s.boot.inReset = true) → ofPins c = false → c.wf = true →
    exec c s = .next s

/-- A packet the device does not fetch changes nothing. For every host command: while the firmware is not running,
4,096 commands are in flight, the device is parked, the queue is not the one visited next, or the mailbox is idle,
exec only opens the tick's window. That the packet then waits with the sender is the model's choice (log entry 6). -/
def Obligations.UnfetchedPacketsWait : Prop :=
  ∀ (c : Instr) (i : CmdInfo) (p : Packet) (s t : State), hostCommand c = some (i, p) → packetWf p = true →
    Running s t →
    (t.sys.fwRunning = false ∨ 4096 ≤ inFlight t ∨ t.pwr.state = 1 ∨ (p.q.val < 8 ∧ nextVisit t ≠ some p.q.val) ∨
      (p.q.val = 8 ∧ t.cmd.mb.busy = false)) →
    exec c s = .next (settle t)

/-- Wrong lengths, wrong check values and resends are answered in this order. For every host command whose packet is
fetched: a length fault completes with its status; else a wrong check value completes with BAD_CRC and raises event
0x0E; else a cached key is replayed with DUP and counted; else the other rows of the duplicate table refuse. -/
def Obligations.PacketFaultsAnswered : Prop :=
  ∀ (c : Instr) (i : CmdInfo) (p : Packet) (s t u : State), hostCommand c = some (i, p) → packetWf p = true →
    Running s t → fetch i.op p t = some u →
    (∀ r, checkLen i.op p = some r → exec c s = .next (settle (refuse i.op p r u))) ∧
    (checkLen i.op p = none → p.crcPresent = true → packetCrc i.op p ≠ p.crc.toNat →
      exec c s = .next (settle (raise 0x0E (refuse i.op p { step := 4, st := 0x13 } u)))) ∧
    (checkLen i.op p = none → (p.crcPresent = true → packetCrc i.op p = p.crc.toNat) →
      (∀ k, dupOf u (packetKey p) (packetCrc i.op p) = .replay k →
        exec c s = .next (settle (post p.q.val { k with dup := true } false (bump 21 u)))) ∧
      (∀ st, dupOf u (packetKey p) (packetCrc i.op p) = .refuse st →
        exec c s = .next (settle (refuse i.op p { step := 5, st := st } u))))

/-- The rows of the duplicate table decide in their order. For every state, key and check value: cached with equal or
different check value; undecided with equal or different check value; tag held under another sequence; ahead of the
newest sequence, or none yet; at most 32,767 behind it. Each gives its result when no earlier row matches. -/
def Obligations.DuplicateTable : Prop :=
  ∀ (s : State) (k : CmdKey) (crc : Nat),
    (∀ e, s.cmd.cache.find? (·.key == k) = some e →
      (e.crc = crc → dupOf s k crc = .replay e.cpl) ∧ (e.crc ≠ crc → dupOf s k crc = .refuse 0x40)) ∧
    (s.cmd.cache.find? (·.key == k) = none →
      (∀ x, (undecided s).find? (·.1 == k) = some x →
        (x.2 = crc → dupOf s k crc = .refuse 0x32) ∧ (x.2 ≠ crc → dupOf s k crc = .refuse 0x40)) ∧
      ((undecided s).find? (·.1 == k) = none →
        ((∃ x ∈ undecided s, x.1.q = k.q ∧ x.1.tag = k.tag) → dupOf s k crc = .refuse 0x40) ∧
        ((∀ x ∈ undecided s, ¬(x.1.q = k.q ∧ x.1.tag = k.tag)) →
          (s.cmd.newest.getD k.q none = none → dupOf s k crc = .fresh) ∧
          ∀ n, s.cmd.newest.getD k.q none = some n →
            (32768 ≤ (n + 65536 - k.seq) % 65536 → dupOf s k crc = .fresh) ∧
            ((n + 65536 - k.seq) % 65536 ≤ 32767 → dupOf s k crc = .refuse 0x41))))

/-- The first failing check of session, header, length and descriptor refuses any host command. For every host
command taken as new, if the first failing check among session, header fields, parameter length and result descriptor
is r, exec answers the refusal r. -/
def Obligations.CommonChecksRefuse : Prop :=
  ∀ (c : Instr) (i : CmdInfo) (p : Packet) (s t : State) (r : Refuse), hostCommand c = some (i, p) →
    Taken i.op p s t → (i.op = 0x0003 → getSess t p.q.val = none) →
    firstOf (checkSession i p t :: checkHeader i p ++ checkParams i p) = some r →
    exec c s = .next (settle (refuse i.op p r t))

/-- Commands without a session, expert opcodes without access and a second SESSION_OPEN get WRONG_STATE. For every
host command taken as new: without a session every opcode but NOP, IDENTIFY, STATE_GET, SESSION_OPEN and
FLASH_STATUS; with one, SESSION_OPEN, and an expert opcode without expert access, are refused with WRONG_STATE. -/
def Obligations.NoSessionMeansWrongState : Prop :=
  ∀ (c : Instr) (i : CmdInfo) (p : Packet) (s t : State), hostCommand c = some (i, p) → Taken i.op p s t →
    (getSess t p.q.val = none → i.op ∉ [0x0000, 0x0001, 0x0002, 0x0003, 0x0030] →
      exec c s = .next (settle (refuse i.op p { step := 7, st := 0x31 } t))) ∧
    (∀ x, getSess t p.q.val = some x → (i.op = 0x0003 ∨ x.expert = false ∧ i.op.testBit 14 = true) →
      exec c s = .next (settle (refuse i.op p { step := 7, st := 0x31 } t)))

/-- An unassigned opcode completes with BAD_OPCODE. For every opcode other than 0 that no row assigns and every
packet taken as new, exec answers the refusal BAD_OPCODE of step 6. -/
def Obligations.UnassignedOpcodesRefused : Prop :=
  ∀ (op : BitVec 16) (p : Packet) (s t : State), op ≠ 0 → assigned.contains op.toNat = false → Taken op.toNat p s t →
    exec (.nop op p) s = .next (settle (refuse op.toNat p { step := 6, st := 0x10 } t))

/-- While DEVICE_FAULT is set a new command completes with DEVICE_FAULT and is counted and cached. For every host
command that is fetched and passes steps 2 and 4 while DEVICE_FAULT is set: a new one completes with DEVICE_FAULT,
its sequence becomes the newest, its completion is decided and so cached, and counter 31 counts; a resend of a cached
one is replayed. -/
def Obligations.DeviceFaultAnswersCommands : Prop :=
  ∀ (c : Instr) (i : CmdInfo) (p : Packet) (s t u : State), hostCommand c = some (i, p) → packetWf p = true →
    Running s t → fetch i.op p t = some u → checkLen i.op p = none →
    (p.crcPresent = true → packetCrc i.op p = p.crc.toNat) → u.sys.deviceFault = true →
    (dupOf u (packetKey p) (packetCrc i.op p) = .fresh →
      exec c s = .next (settle (decide_ i.op (packetCrc i.op p) p (cplOf u i.op p 0xF0 0 0) false
        (bump 31 { u with cmd := { u.cmd with
          newest := u.cmd.newest.set p.q.val (some p.seq.toNat) } })))) ∧
    ∀ k, dupOf u (packetKey p) (packetCrc i.op p) = .replay k →
      exec c s = .next (settle (post p.q.val { k with dup := true } false (bump 21 u)))

/-- An answer writes the completion, its result and what reports them, and nothing else. For every reply: outside the
command protocol's state, events and counters, only host memory changes, and only in the bytes of a result that fits
its capacity, each byte as given, and in the one entry of the completion queue. -/
def Obligations.AnswerFrame : Prop :=
  ∀ (i : CmdInfo) (p : Packet) (r : Reply) (s : State), SMap.wf (0 : Byte) s.hostMem = true →
    let t := answer i p r s
    let ent := (getQ s p.q.val).cqBase + 32 * (getQ s p.q.val).cqTail
    s = { t with cmd := s.cmd, ev := s.ev, obs := s.obs, satTick := s.satTick, hostMem := s.hostMem } ∧
    (p.q.val = 8 → t.hostMem = s.hostMem) ∧
    (∀ a : Nat, a < ent ∨ ent + 32 ≤ a → (∀ bs, r = .data bs → fld (paramBytes p) 8 4 < bs.length) →
      SMap.get 0 t.hostMem a = SMap.get 0 s.hostMem a) ∧
    ∀ bs (a : Nat), r = .data bs → p.q.val < 8 → bs.length ≤ fld (paramBytes p) 8 4 → a < ent ∨ ent + 32 ≤ a →
      SMap.get 0 t.hostMem a = if fld (paramBytes p) 0 8 ≤ a ∧ a < fld (paramBytes p) 0 8 + bs.length then
        bs.getD (a - fld (paramBytes p) 0 8) 0 else SMap.get 0 s.hostMem a

/-- Refusals, replays, events and counts leave registers, sessions, timed actions and all memory but one CQ entry as
they were. For every refusal, posted completion, raised event and count: all of the state outside queues, cache,
events and counters is unchanged, host memory but for the 32 bytes of the CQ entry written, and so are sessions,
timed entries, Solstices, open commands, newest sequences, event enables, masks and vectors. -/
def Obligations.RefusalFrame : Prop :=
  ∀ (op : Nat) (p : Packet) (r : Refuse) (q : Nat) (c : Cpl) (timed : Bool) (e n k : Nat) (s : State),
    SMap.wf (0 : Byte) s.hostMem = true →
    (raise e s).hostMem = s.hostMem ∧ (bumpBy n k s).hostMem = s.hostMem ∧
    ∀ x ∈ [(refuse op p r s, p.q.val), (post q c timed s, q), (raise e s, q), (bumpBy n k s, q)],
      let t := x.1
      let ent := (getQ s x.2).cqBase + 32 * (getQ s x.2).cqTail
      s = { t with cmd := s.cmd, ev := s.ev, obs := s.obs, satTick := s.satTick, hostMem := s.hostMem } ∧
      (∀ a : Nat, a < ent ∨ ent + 32 ≤ a → SMap.get 0 t.hostMem a = SMap.get 0 s.hostMem a) ∧
      t.cmd.sess = s.cmd.sess ∧ t.cmd.entries = s.cmd.entries ∧ t.cmd.sols = s.cmd.sols ∧ t.cmd.opens = s.cmd.opens ∧
      t.cmd.newest = s.cmd.newest ∧ t.ev.en = s.ev.en ∧ t.ev.mask = s.ev.mask ∧ t.ev.vec = s.ev.vec

/-- Every timed command that is placed takes its entry of the timed-action table. For COMMIT, SOLSTICE_ARM and each
timed command: when its checks pass and its at-tick is placed, exec schedules an entry of its class at that tick and
answers nothing yet; DM_CALL_BIND waits for the call it names or arms its Solstice at once. -/
def Obligations.TimedCommandsSchedule : Prop :=
  ∀ (p : Packet) (s t : State) (b : Bytes) (q x : Nat) (late : Bool), b = paramBytes p → q = p.q.val →
    (∀ recs T cls, Ready infoCommit p s t → recs = shadowOf t q → placeSet t p recs = (T, cls) →
      checkSet t (tableApply (viewAt t T fun _ => true) recs) recs = none → Placed cls p t x late →
      exec (.commit p) s = .next (settle (clearShadow q (scheduled 0x0012 p (.commit recs) cls x late t)))) ∧
    (∀ y, Ready infoSolsticeArm p s t → findSol t (byteAt b 0) = some y → y.owner = some q → y.st = .prepared →
      Placed y.cls p t x late →
      exec (.solsticeArm p) s =
        .next (settle (setSol (byteAt b 0) .armed (scheduled 0x0014 p (.solstice (byteAt b 0)) y.cls x late t)))) ∧
    (Ready infoTmStep p s t → sx 64 (fld b 0 8) < 0 → Placed .disruptive p t x late →
      exec (.tmStep p) s = .next (settle (scheduled 0x0203 p .cmd .disruptive x late t))) ∧
    (Ready infoTmStep p s t → 0 < sx 64 (fld b 0 8) → Placed .local_ p t x late →
      exec (.tmStep p) s = .next (settle (scheduled 0x0203 p .cmd .local_ x late t))) ∧
    (Ready infoPpsAlign p s t → byteAt b 0 ≤ 3 → Placed .local_ p t x late →
      exec (.ppsAlign p) s = .next (settle (scheduled 0x0206 p .cmd .local_ x late t))) ∧
    (Ready infoRxAcquire p s t → byteAt b 0 ≤ 1 → Placed .disruptive p t x late →
      exec (.rxAcquire p) s = .next (settle (scheduled 0x0401 p .cmd .disruptive x late t))) ∧
    (Ready infoRxCapture p s t → p.atTick ≠ 0 → byteAt b 16 ≤ 2 → rsv b 17 20 = true → 1 ≤ fld b 20 4 →
      fld b 20 4 ≤ 65536 → Placed .local_ p t x late →
      exec (.rxCapture p) s = .next (settle (scheduled 0x4401 p .cmd .local_ x late t))) ∧
    (Ready infoKeySwitch p s t → fld b 0 4 < 2 ^ 26 → Placed .line p t x late →
      exec (.keySwitch p) s = .next (settle (scheduled 0x0802 p .cmd .line x late t))) ∧
    (Ready infoKeyZeroise p s t → fld b 0 4 < 2 ^ 26 → byteAt b 4 ≤ 3 → Placed .local_ p t x late →
      exec (.keyZeroise p) s = .next (settle (scheduled 0x0803 p .cmd .local_ x late t))) ∧
    (Ready infoObsClear p s t → fld b 0 2 ≤ 2047 → 1 ≤ fld b 2 2 → fld b 0 2 + fld b 2 2 ≤ 2048 →
      Placed .local_ p t x late →
      exec (.obsClear p) s = .next (settle (scheduled 0x0F00 p .cmd .local_ x late t))) ∧
    (Ready infoObsHarvestNow p s t → Placed .local_ p t x late →
      exec (.obsHarvestNow p) s = .next (settle (scheduled 0x0F01 p .cmd .local_ x late t))) ∧
    (Ready infoNop p s t → p.atTick ≠ 0 → Placed .local_ p t x late →
      exec (.nop 0 p) s = .next (settle (scheduled 0x0000 p .cmd .local_ x late t))) ∧
    (∀ y, Ready infoDmCallBind p s t → findSol t (byteAt b 0) = some y → y.owner = some q → y.st = .prepared →
      byteAt b 1 = 0 → t.tick + 8 ≤ fld b 8 8 → fld b 8 8 - t.tick ≤ 2 ^ 32 → t.dm.member = true →
      ∀ k, k = ({ p := p, crc := packetCrc 0x0B08 p, handle := byteAt b 0, origin := fld b 2 2, number := fld b 4 4,
                  limit := fld b 8 8 } : Bind) →
      (t.dm.calls.find? (bindMatches k) = none →
        exec (.dmCallBind p) s =
          .next (settle (checkInFlight (updDm (fun d => { d with binds := d.binds ++ [k] }) (accept p t))))) ∧
      ∀ c, t.dm.calls.find? (bindMatches k) = some c →
        exec (.dmCallBind p) s =
          .next (settle (armBind k c (updDm (fun d => { d with binds := d.binds ++ [k] }) (accept p t)))))

/-- How an at-tick is judged: multiple of 256, 2^32 limit, lead and class, LATE_POLICY. For every class, packet and
acceptance tick: BAD_PARAM for a line-coordinated at-tick off a multiple of 256, then TOO_FAR beyond 2^32 ticks, then
the tick asked for, the earliest tick of the class, or LATE. -/
def Obligations.AtTickPlacement : Prop :=
  ∀ (cls : ChangeClass) (p : Packet) (now a e : Nat), a = p.atTick.toNat →
    e = (if cls = .line then (now + 264 + 255) / 256 * 256 else now + 8) →
    (cls = .line → a % 256 ≠ 0 → placeAt cls p now = .error { step := 10, st := 0x11, detail := 0x80000008 }) ∧
    ((cls = .line → a % 256 = 0) →
      (2 ^ 32 < a - now → placeAt cls p now = .error { step := 10, st := 0x21 }) ∧
      (a = 0 → placeAt cls p now = .ok (e, false)) ∧
      (a ≠ 0 → a - now ≤ 2 ^ 32 → e ≤ a → placeAt cls p now = .ok (a, false)) ∧
      (a ≠ 0 → a < e → p.latePolicy = true → placeAt cls p now = .ok (e, true)) ∧
      (a ≠ 0 → a < e → p.latePolicy = false → placeAt cls p now = .error { step := 10, st := 0x20 }))

/-- Line-coordinated actions execute only at a multiframe boundary with a lead of 256 + 8 ticks. A line-coordinated
placement is a multiple of 256 whose tick 256 earlier lies at least 8 ticks after acceptance; a nonzero at-tick that
is no multiple of 256 completes KEY_SWITCH, a line-coordinated COMMIT and SOLSTICE_ARM with BAD_PARAM, whatever
LATE_POLICY says. -/
def Obligations.LineActionsAtMultiframes : Prop :=
  ∀ (p : Packet) (s t : State),
    (∀ now x late, placeAt .line p now = .ok (x, late) → x % 256 = 0 ∧ now + 8 ≤ x - 256 ∧ 256 ≤ x) ∧
    (p.atTick.toNat % 256 ≠ 0 →
      (∀ x late, ¬Placed .line p t x late) ∧
      (Ready infoKeySwitch p s t → fld (paramBytes p) 0 4 < 2 ^ 26 →
        exec (.keySwitch p) s =
          .next (settle (refuse 0x0802 p { step := 10, st := 0x11, detail := 0x80000008 } t))) ∧
      (∀ recs T, Ready infoCommit p s t → recs = shadowOf t p.q.val → placeSet t p recs = (T, .line) →
        checkSet t (tableApply (viewAt t T fun _ => true) recs) recs = none →
        exec (.commit p) s = .next (settle (refuse 0x0012 p { step := 10, st := 0x11, detail := 0x80000008 } t))) ∧
      ∀ y, Ready infoSolsticeArm p s t → findSol t (byteAt (paramBytes p) 0) = some y → y.owner = some p.q.val →
        y.st = .prepared → y.cls = .line →
        exec (.solsticeArm p) s = .next (settle (refuse 0x0014 p { step := 10, st := 0x11, detail := 0x80000008 } t)))

/-- A disruptive COMMIT, timed command or SOLSTICE_ARM without ALLOW_HIT completes with DISRUPTIVE_REQUIRED. With
ALLOW_HIT clear, a disruptive COMMIT, SOLSTICE_ARM, backward TM_STEP and RX_ACQUIRE are refused with
DISRUPTIVE_REQUIRED; table, sessions, Solstices, parameters, tick and receivers are as they were. -/
def Obligations.DisruptiveNeedsAllowHit : Prop :=
  ∀ (p : Packet) (s t : State) (x : Nat) (late : Bool) (r : Refuse), p.allowHit = false →
    placeAt .disruptive p t.tick = .ok (x, late) → r = { step := 11, st := 0x82 } →
    (∀ recs T, Ready infoCommit p s t → recs = shadowOf t p.q.val → placeSet t p recs = (T, .disruptive) →
      checkSet t (tableApply (viewAt t T fun _ => true) recs) recs = none →
      exec (.commit p) s = .next (settle (refuse 0x0012 p r t))) ∧
    (∀ y, Ready infoSolsticeArm p s t → findSol t (byteAt (paramBytes p) 0) = some y → y.owner = some p.q.val →
      y.st = .prepared → y.cls = .disruptive → exec (.solsticeArm p) s = .next (settle (refuse 0x0014 p r t))) ∧
    (Ready infoTmStep p s t → sx 64 (fld (paramBytes p) 0 8) < 0 →
      exec (.tmStep p) s = .next (settle (refuse 0x0203 p r t))) ∧
    (Ready infoRxAcquire p s t → byteAt (paramBytes p) 0 ≤ 1 →
      exec (.rxAcquire p) s = .next (settle (refuse 0x0401 p r t))) ∧
    ∀ op, (refuse op p r t).cmd.entries = t.cmd.entries ∧ (refuse op p r t).cmd.sess = t.cmd.sess ∧
      (refuse op p r t).cmd.sols = t.cmd.sols ∧ (refuse op p r t).params = t.params ∧
      (refuse op p r t).tick = t.tick ∧ (refuse op p r t).rx = t.rx

/-- Each path has one counter latch, taken by CNT_LO and read by the upper words. For every state, path and counters
n, m: a read of CNT_LO of n captures its upper bits and SAT into the path's latch and leaves the other path's; a read
of the upper word of m returns the path's latch and changes none; a 64-bit read is the count with SAT in bit 48. -/
def Obligations.CounterLatchesPerPath : Prop :=
  ∀ (s : State) (path : Path) (n m : Fin 2048) (latch : Path → State → CntLatch),
    (latch = fun q x => match q with | .pcie => x.sys.cntLatch | .spi => x.sys.cntLatchSpi) →
    let t := withRead path (0x10000 + 8 * n.val) 4 s
    let u := withRead path (0x10000 + 8 * m.val + 4) 4 s
    t.sys.readOut = le 4 (s.count n.val % 2 ^ 32) ∧
    latch path t = { hi := s.count n.val / 2 ^ 32, sat := SMap.get false s.obs.sat n.val } ∧
    (∀ q, q ≠ path → latch q t = latch q s) ∧ (∀ q, latch q u = latch q s) ∧
    u.sys.readOut = le 4 ((latch path s).hi + 65536 * b2n (latch path s).sat) ∧
    (s.count n.val < 2 ^ 48 →
      (withRead path (0x10000 + 8 * n.val) 8 s).sys.readOut =
        le 8 (s.count n.val + 2 ^ 48 * b2n (SMap.get false s.obs.sat n.val)))

/-- Every command that reads status completes with what its layout says and changes nothing else. IDENTIFY,
STATE_GET, FLASH_STATUS, the STATUS commands of every chapter, RX_MEASURE, FEC_POOL, FRM_OH_CAPTURE, TM_TOD_READ,
CAL_DUMP, DM_CFG_READ, KE_STATUS. Each completes for every packet that passes the common checks and the conditions
written in its clause: exec answers the state with exactly this effect and this completion. Clauses with another
status than OK say when a command answers it and what changes then. The byte order of the die ID is log entry 30. -/
def Obligations.StatusCommandsAnswer : Prop :=
  ∀ (p : Packet) (s t u : State) (b : Bytes) (q : Nat) (c : Line), u = accept p t → b = paramBytes p → q = p.q.val → c
    = pktLine p →
    (Ready infoIdentify p s t →
      exec (.identify p) s = .next (settle (answer infoIdentify p (.data (identifyBytes u)) u))) ∧
    (Ready infoStateGet p s t →
      exec (.stateGet p) s = .next (settle (answer infoStateGet p (.ok (stateWord u q)) u))) ∧
    (Ready infoFlashStatus p s t →
      exec (.flashStatus p) s = .next (settle (answer infoFlashStatus p (.data (flashStatusBytes u)) u))) ∧
    (Ready infoTmStatus p s t →
      exec (.tmStatus p) s = .next (settle (answer infoTmStatus p (.data (tmStatusBytes u)) u))) ∧
    (Ready infoTmTodRead p s t →
      exec (.tmTodRead p) s = .next (settle (answer infoTmTodRead p (.data (le 8 u.tm.todTick ++ u.tm.todMsg ++ zeros
      8)) u))) ∧
    (Ready infoTxStatus p s t →
      exec (.txStatus p) s = .next (settle (answer infoTxStatus p (.data (txStatusBytes u c)) u))) ∧
    (Ready infoRxStatus p s t →
      exec (.rxStatus p) s = .next (settle (answer infoRxStatus p (.data (rxStatusBytes u c)) u))) ∧
    (Ready infoRxMeasure p s t →
      exec (.rxMeasure p) s = .next (settle (answer infoRxMeasure p (.data (rxMeasureBytes u c)) u))) ∧
    (Ready infoFecStatus p s t →
      exec (.fecStatus p) s = .next (settle (answer infoFecStatus p (.data (fecStatusBytes u c)) u))) ∧
    (Ready infoFecPool p s t →
      exec (.fecPool p) s = .next (settle (answer infoFecPool p (.data (fecPoolBytes u)) u))) ∧
    (Ready infoFrmStatus p s t →
      exec (.frmStatus p) s = .next (settle (answer infoFrmStatus p (.data (frmStatusBytes u c)) u))) ∧
    (Ready infoFrmOhCapture p s t →
      exec (.frmOhCapture p) s = .next (settle (answer infoFrmOhCapture p (.data (le 8 (getFrm u c).ohTick ++ [byteOf
      (b2n (getFrm u c).ohValid)] ++ zeros 7 ++ padTo 256 (getFrm u c).oh)) u))) ∧
    (Ready infoCryStatus p s t →
      exec (.cryStatus p) s = .next (settle (answer infoCryStatus p (.data (cryStatusBytes u c)) u))) ∧
    (Ready infoWhStatus p s t →
      exec (.whStatus p) s = .next (settle (answer infoWhStatus p (.data (whStatusBytes u c)) u))) ∧
    (Ready infoDmStatus p s t →
      exec (.dmStatus p) s = .next (settle (answer infoDmStatus p (.data (dmStatusBytes u)) u))) ∧
    (Ready infoMateStatus p s t →
      exec (.mateStatus p) s = .next (settle (answer infoMateStatus p (.data (mateStatusBytes u)) u))) ∧
    (Ready infoPwrStatus p s t →
      exec (.pwrStatus p) s = .next (settle (answer infoPwrStatus p (.data (pwrStatusBytes u)) u))) ∧
    (Ready infoStwStatus p s t →
      exec (.stwStatus p) s = .next (settle (answer infoStwStatus p (.data (stwStatusBytes u)) u))) ∧
    (Ready infoStoreStatus p s t →
      exec (.storeStatus p) s = .next (settle (answer infoStoreStatus p (.data (storeStatusBytes u)) u))) ∧
    (Ready infoCliStatus p s t → byteAt b 16 ≤ 11 → cliOn t (byteAt b 16) = true →
      exec (.cliStatus p) s = .next (settle (answer infoCliStatus p (.data (cliStatusBytes u (byteAt b 16))) u))) ∧
    (Ready infoTenStatus p s t → byteAt b 16 ≤ 63 → (getTen u (byteAt b 16)).st ≠ .off →
      exec (.tenStatus p) s = .next (settle (answer infoTenStatus p (.data (tenStatusBytes u (byteAt b 16))) u))) ∧
    (Ready infoCalStatus p s t → byteAt b 16 ≤ 15 →
      exec (.calStatus p) s = .next (settle (answer infoCalStatus p (.data (calStatusBytes u (byteAt b 16))) u))) ∧
    (Ready infoCalDump p s t → byteAt b 16 ≤ 15 →
      exec (.calDump p) s = .next (settle (answer infoCalDump p (.data (convRecord (fun k i => ((getConv u (byteAt b
      16)).trim k).getD i 0) (getConv u (byteAt b 16)))) u))) ∧
    (Ready infoDmaStatus p s t → byteAt b 16 ≤ 15 →
      exec (.dmaStatus p) s = .next (settle (answer infoDmaStatus p (.data (dmaStatusBytes u (byteAt b 16))) u))) ∧
    (Ready infoDmCfgRead p s t → u.dm.member = true → u.dm.doc ≠ [] →
      exec (.dmCfgRead p) s = .next (settle (answer infoDmCfgRead p (.data (u.dm.doc)) u))) ∧
    (Ready infoKeStatus p s t → (getCry u c).exch = none →
      exec (.keStatus p) s = .next (settle (answer infoKeStatus p (.ok (256 * ((getCry u c).lastResends % 256) + 2 ^
      16 * (getCry u c).lastStatus + 2 ^ 32 * (getCry u c).lastEpoch)) u))) ∧
    (∀ (x : Exch), Ready infoKeStatus p s t → (getCry u c).exch = some x →
      exec (.keStatus p) s = .next (settle (answer infoKeStatus p (.ok (x.code + 256 * (x.resends % 256) + 2 ^ 16 *
      (getCry u c).lastStatus + 2 ^ 32 * x.epoch)) u))) ∧
    (Ready infoTenStatus p s t → byteAt b 16 ≤ 63 → (getTen u (byteAt b 16)).st = .off →
      exec (.tenStatus p) s = .next (settle (answer infoTenStatus p (.st stWrongState) u)))

/-- Commands of sessions, parameters, Solstices, the timed list, firmware and presets: effect and completion. NOP,
SESSION_OPEN, SESSION_CLOSE, EXPERT_ENABLE, PARAM_GET, PARAM_SET, SOLSTICE_PREPARE, SOLSTICE_CANCEL, TIMED_LIST,
FW_UPDATE, FW_ACTIVATE, TX_MODE_PRESET, OBS_SAMPLE_READ. Each completes for every packet that passes the common
checks and the conditions written in its clause: exec answers the state with exactly this effect and this completion.
Clauses with another status than OK say when a command answers it and what changes then. The order of lists and
handles is log entry 29; firmware update rests on log entry 31. -/
def Obligations.SessionCommandsRun : Prop :=
  ∀ (p : Packet) (s t u : State) (b : Bytes) (q : Nat), u = accept p t → b = paramBytes p → q = p.q.val →
    (Ready infoNop p s t → p.atTick = 0 →
      exec (.nop 0 p) s = .next (settle (answer infoNop p .ok u))) ∧
    (Ready infoSessionOpen p s t → getSess t q = none →
      exec (.sessionOpen p) s = .next (settle (answer infoSessionOpen p (.ok q) (setSess q (some {}) u)))) ∧
    (Ready infoSessionClose p s t →
      exec (.sessionClose p) s = .next (settle (answer infoSessionClose p .ok (endSession q u)))) ∧
    (Ready infoExpertEnable p s t → byteAt b 0 ≤ 1 →
      exec (.expertEnable p) s = .next (settle (answer infoExpertEnable p .ok (setSess q ((getSess u q).map fun x => {
          x with expert := byteAt b 0 == 1 }) u)))) ∧
    (Ready infoParamGet p s t → byteAt b 16 ≤ 1 → rsv b 17 20 = true → (∀ o ∈ entryOffs b, checkEntry (expertOf t q) b
      o = none) →
      exec (.paramGet p) s = .next (settle (answer infoParamGet p (.data ((entryOffs b).flatMap fun o => valueRecord
      (fld b o 2) (byteAt b (o + 2)) (viewValue u q (byteAt b 16) (fld b o 2) (byteAt b (o + 2))))) u))) ∧
    (Ready infoParamSet p s t → checkRecords (expertOf t q) t.sys.locked b (b.length / 8 + 1) 0 = none →
      exec (.paramSet p) s = .next (settle (answer infoParamSet p .ok (setSess q ((getSess u q).map fun x => { x with
        shadow := enterRecords b (b.length / 8) 0 x.shadow }) u)))) ∧
    (Ready infoSolsticePrepare p s t → checkSet t (tableApply t.params (shadowOf t q)) (shadowOf t q) = none →
      t.cmd.sols.length < 8 →
      exec (.solsticePrepare p) s = .next (settle (answer infoSolsticePrepare p (.ok (freeHandle u + 16 * classCode
      (setClass u.params (shadowOf u q)) + 256 * (earliest (setClass u.params (shadowOf u q)) u.tick % 2 ^ 56)))
      (clearShadow q { u with
        cmd := { u.cmd with
          sols := u.cmd.sols ++ [{
            handle := freeHandle u, owner := some q, recs := shadowOf u q, cls := setClass u.params (shadowOf u q) }]
            } })))) ∧
    (∀ (y : Solstice), Ready infoSolsticeCancel p s t → checkHandle (byteAt b 0) q t = none → findSol u (byteAt b 0) =
      some y → y.st = .prepared →
      exec (.solsticeCancel p) s = .next (settle (answer infoSolsticeCancel p .ok (freeSol (byteAt b 0) u)))) ∧
    (∀ (y : Solstice) (e : Entry), Ready infoSolsticeCancel p s t → checkHandle (byteAt b 0) q t = none → findSol u
      (byteAt b 0) = some y → y.st = .armed → solEntry u (byteAt b 0) = some e →
      exec (.solsticeCancel p) s = .next (settle (answer infoSolsticeCancel p .ok (cancelEntry e u)))) ∧
    (Ready infoTimedList p s t → byteAt b 16 = 0 →
      exec (.timedList p) s = .next (settle (answer infoTimedList p (.data (le 4 (execOrder (u.cmd.entries.filter
      (·.tabled))).length ++ ((execOrder (u.cmd.entries.filter (·.tabled))).drop (fld b 22 2)).flatMap entryRecord))
      u))) ∧
    (∀ (e : Entry), Ready infoTimedList p s t → byteAt b 16 = 1 → (execOrder (u.cmd.entries.filter (·.tabled))).find?
      (fun e => packetKey e.p == ({ q := byteAt b 17, tag := fld b 18 2, seq := fld b 20 2 } : CmdKey)) = some e →
      e.frozen = false →
      exec (.timedList p) s = .next (settle (answer infoTimedList p .ok (cancelEntry e u)))) ∧
    (∀ (chunk : Bytes) (v : State), Ready infoFwUpdate p s t → fld b 8 4 + fld b 12 4 ≤ 0x400000 → 1 ≤ fld b 12 4 →
      fld b 12 4 ≤ 262144 → byteAt b 16 ≤ 1 → chunk.length = fld b 12 4 → (u.flash.updateBy = none ∨ u.flash.updateBy
      = some q) → (fld b 8 4 = 0 ∨ u.flash.updateBy = some q ∧ u.flash.updateNext = fld b 8 4) → v = chunkTaken q (fld
      b 8 4) (fld b 12 4) u →
      exec (.fwUpdate p chunk) s = .next (settle (answer infoFwUpdate p .wait (flashAdd {
        kind := .fwChunk, owner := some (packetKey p), addr := slotAddr (inactiveSlot v) + fld b 8 4, data := chunk,
        aux := byteAt b 16, aux2 := v.flash.updateSeq } v)))) ∧
    (Ready infoFwActivate p s t → byteAt b 0 ≤ 1 → (u.flash.slots.getD (inactiveSlot u) {}).st = .valid →
      exec (.fwActivate p) s = .next (settle (answer infoFwActivate p .wait (flashAdd {
        kind := .bootRecord, owner := some (packetKey p), aux := inactiveSlot u, aux2 := byteAt b 0 } u)))) ∧
    (Ready infoTxModePreset p s t → byteAt b 0 ≤ 11 →
      exec (.txModePreset p) s = .next (settle (answer infoTxModePreset p .ok ((pktLines p).foldl (fun s c =>
      presetPut q (presets.getD (byteAt b 0) (0, 0, 0, 0)) c s) u)))) ∧
    (Ready infoObsSampleRead p s t → 1 ≤ fld b 16 2 → fld b 16 2 ≤ 4096 → (samplesOut (fld b 16 2) u).length ≤ fld b 8
      4 →
      exec (.obsSampleRead p) s = .next (settle (answer infoObsSampleRead p (.data (samplesOut (fld b 16 2) u)) { u
          with obs := { u.obs with samples := u.obs.samples.drop (fld b 16 2) } }))) ∧
    (∀ (y : Solstice), Ready infoSolsticeCancel p s t → checkHandle (byteAt b 0) q t = none → findSol u (byteAt b 0) =
      some y → y.st ≠ .prepared → (y.st = .armed → solEntry u (byteAt b 0) = none) →
      exec (.solsticeCancel p) s = .next (settle (answer infoSolsticeCancel p (.st stWrongState) u))) ∧
    (Ready infoTimedList p s t → byteAt b 16 = 1 → (execOrder (u.cmd.entries.filter (·.tabled))).find? (fun e =>
      packetKey e.p == ({ q := byteAt b 17, tag := fld b 18 2, seq := fld b 20 2 } : CmdKey)) = none →
      exec (.timedList p) s = .next (settle (answer infoTimedList p (.st stBadParam 17) u))) ∧
    (∀ (e : Entry), Ready infoTimedList p s t → byteAt b 16 = 1 → (execOrder (u.cmd.entries.filter (·.tabled))).find?
      (fun e => packetKey e.p == ({ q := byteAt b 17, tag := fld b 18 2, seq := fld b 20 2 } : CmdKey)) = some e →
      e.frozen = true →
      exec (.timedList p) s = .next (settle (answer infoTimedList p (.st stWrongState) u))) ∧
    (∀ (chunk : Bytes), Ready infoFwUpdate p s t → fld b 8 4 + fld b 12 4 ≤ 0x400000 → 1 ≤ fld b 12 4 → fld b 12 4 ≤
      262144 → byteAt b 16 ≤ 1 → u.flash.updateBy.any (· != q) = true →
      exec (.fwUpdate p chunk) s = .next (settle (answer infoFwUpdate p (.st stBusy) u))) ∧
    (∀ (chunk : Bytes), Ready infoFwUpdate p s t → fld b 8 4 + fld b 12 4 ≤ 0x400000 → 1 ≤ fld b 12 4 → fld b 12 4 ≤
      262144 → byteAt b 16 ≤ 1 → u.flash.updateBy.any (· != q) = false → fld b 8 4 ≠ 0 → (u.flash.updateBy = none ∨
      u.flash.updateNext ≠ fld b 8 4) →
      exec (.fwUpdate p chunk) s = .next (settle (answer infoFwUpdate p (.st stBadParam 8) u))) ∧
    (∀ (chunk : Bytes), Ready infoFwUpdate p s t → fld b 8 4 + fld b 12 4 ≤ 0x400000 → 1 ≤ fld b 12 4 → fld b 12 4 ≤
      262144 → byteAt b 16 ≤ 1 → u.flash.updateBy.any (· != q) = false → (fld b 8 4 = 0 ∨ u.flash.updateBy ≠ none ∧
      u.flash.updateNext = fld b 8 4) → chunk.length ≠ fld b 12 4 →
      exec (.fwUpdate p chunk) s = .next (settle (answer infoFwUpdate p (.st stTimeout) u))) ∧
    (Ready infoFwActivate p s t → byteAt b 0 ≤ 1 → (u.flash.slots.getD (inactiveSlot u) {}).st ≠ .valid →
      exec (.fwActivate p) s = .next (settle (answer infoFwActivate p (.st stWrongState) u))) ∧
    (Ready infoObsSampleRead p s t → 1 ≤ fld b 16 2 → fld b 16 2 ≤ 4096 → fld b 8 4 < (samplesOut (fld b 16 2)
      u).length →
      exec (.obsSampleRead p) s = .next (settle (answer infoObsSampleRead p (.data (samplesOut (fld b 16 2) u)) u)))

/-- Selection, priorities, phase adjustment, steering and forced holdover: effect and completion. TM_SELECT,
TM_PRIORITY, TM_PHASE_ADJ, TM_STEER, TM_FORCE_HOLDOVER. Each completes for every packet that passes the common checks
and the conditions written in its clause: exec answers the state with exactly this effect and this completion.
Clauses with another status than OK say when a command answers it and what changes then. The waiting of the first two
until the next window is log entry 88. -/
def Obligations.TimingCommandsRun : Prop :=
  ∀ (p : Packet) (s t u : State) (b : Bytes), u = accept p t → b = paramBytes p →
    (Ready infoTmSelect p s t → byteAt b 0 ≤ 1 → byteAt b 1 ≤ 8 → byteAt b 2 ≤ 1 → (byteAt b 0 = 0 → byteAt b 1 < 4 →
      u.parN 0x2000 (0x10 + byteAt b 1) ≠ 0) →
      exec (.tmSelect p) s = .next (settle (answer infoTmSelect p .ok { u with
        tm := { u.tm with
          selWait := some (u.elapsed + 1, byteAt b 0 == 1, byteAt b 1, byteAt b 2 == 1 || u.tm.selWait.any fun x =>
            x.2.2.2) } }))) ∧
    (Ready infoTmPriority p s t → (∀ i, i < 9 → byteAt b i ≤ 15) →
      exec (.tmPriority p) s = .next (settle (answer infoTmPriority p .ok { u with
        tm := { u.tm with prioWait := some (u.elapsed + 1, b.map (·.toNat)) } }))) ∧
    (Ready infoTmPhaseAdj p s t → (sx 32 (fld b 0 4)).natAbs ≤ 1000000 → (∀ r, u.tm.sel = some r → isPhaseRef u r =
      false) → (u.tm.adjFs + 1000 * sx 32 (fld b 0 4)).natAbs ≤ 2000000000 →
      exec (.tmPhaseAdj p) s = .next (settle (answer infoTmPhaseAdj p .ok { u with
        tm := { u.tm with adjFs := u.tm.adjFs + 1000 * sx 32 (fld b 0 4), adjActive := true } }))) ∧
    (Ready infoTmSteer p s t → fld b 0 8 ≤ u.tick → u.tick - fld b 0 8 ≤ tps → u.tm.lastStep ≤ fld b 0 8 →
      exec (.tmSteer p) s = .next (settle (answer infoTmSteer p .ok (bump 142 (steerTaken (fld b 0 8) (sx 64 (fld b 8
      8)) u))))) ∧
    (Ready infoTmForceHoldover p s t → byteAt b 0 ≤ 1 → (byteAt b 0 = 1 → u.tm.pll ≠ .freerun) →
      exec (.tmForceHoldover p) s = .next (settle (answer infoTmForceHoldover p .ok { u with
        tm := { u.tm with forceWait := some (byteAt b 0 == 1) } }))) ∧
    (Ready infoTmSelect p s t → byteAt b 0 = 0 → byteAt b 1 < 4 → byteAt b 2 ≤ 1 → u.parN 0x2000 (0x10 + byteAt b 1) =
      0 →
      exec (.tmSelect p) s = .next (settle (answer infoTmSelect p (.st 0x1201) u))) ∧
    (∀ (n : Nat), Ready infoTmPhaseAdj p s t → (sx 32 (fld b 0 4)).natAbs ≤ 1000000 → u.tm.sel = some n → isPhaseRef u
      n = true →
      exec (.tmPhaseAdj p) s = .next (settle (answer infoTmPhaseAdj p (.st stWrongState) u))) ∧
    (Ready infoTmPhaseAdj p s t → (sx 32 (fld b 0 4)).natAbs ≤ 1000000 → (∀ r, u.tm.sel = some r → isPhaseRef u r =
      false) → 2000000000 < (u.tm.adjFs + 1000 * sx 32 (fld b 0 4)).natAbs →
      exec (.tmPhaseAdj p) s = .next (settle (answer infoTmPhaseAdj p (.st 0x1203) u))) ∧
    (Ready infoTmSteer p s t → (u.tick < fld b 0 8 ∨ tps < u.tick - fld b 0 8 ∨ fld b 0 8 < u.tm.lastStep) →
      exec (.tmSteer p) s = .next (settle (answer infoTmSteer p (.st 0x1202) (raise 0x29 (bump 143 u))))) ∧
    (Ready infoTmForceHoldover p s t → byteAt b 0 = 1 → u.tm.pll = .freerun →
      exec (.tmForceHoldover p) s = .next (settle (answer infoTmForceHoldover p (.st stWrongState) u)))

/-- Capacity, tap dump, capture, core test, GCC, APS, timestamps and bit slip: effect and completion. TX_CAPACITY,
RX_TAP_DUMP, RX_CAPTURE, FEC_CORE_TEST, FRM_GCC_SEND, FRM_GCC_RECV, FRM_APS_SET, CLI_TS_READ, CLIENT_BITSLIP. Each
completes for every packet that passes the common checks and the conditions written in its clause: exec answers the
state with exactly this effect and this completion. Clauses with another status than OK say when a command answers it
and what changes then. RX_CAPTURE is entered as a timed command and answered when its data have come (log entry 44).
-/
def Obligations.LineCommandsRun : Prop :=
  ∀ (p : Packet) (s t u : State) (b : Bytes) (c : Line), u = accept p t → b = paramBytes p → c = pktLine p →
    (Ready infoTxCapacity p s t → 120832 ≤ fld b 16 4 → fld b 16 4 ≤ 579584 → fld b 16 4 % 256 = 0 → byteAt b 20 ≤ 2 →
      byteAt b 21 = 0 → (byteAt b 20 = 2 → 192 ≤ fld b 22 2 ∧ fld b 22 2 ≤ 368) → byteAt b 24 ≤ 2 → 1 ≤ byteAt b 25 →
      byteAt b 25 ≤ 20 → fld b 26 2 = 0 →
      exec (.txCapacity p) s = .next (settle (answer infoTxCapacity p (.data (capacityBytes {
        n := fld b 16 4, const := byteAt b 20, k := fld b 22 2, rate := byteAt b 24, roll := byteAt b 25 })) u))) ∧
    (Ready infoRxTapDump p s t → lockInd u c = true → (tapBytes u c).length ≤ fld b 8 4 →
      exec (.rxTapDump p) s = .next (settle (answer infoRxTapDump p (.data (tapBytes u c)) u))) ∧
    (Ready infoRxCapture p s t → p.atTick = 0 → byteAt b 16 ≤ 2 → rsv b 17 20 = true → 1 ≤ fld b 20 4 → fld b 20 4 ≤
      65536 →
      exec (.rxCapture p) s = .next (settle (answer infoRxCapture p .wait (updRx c (fun r => { r with
        caps := r.caps ++ [{ owner := packetKey p, point := byteAt b 16, n := fld b 20 4 }] }) u)))) ∧
    (Ready infoFecCoreTest p s t → byteAt b 0 ≤ 47 → bit (u.fec.disabled ||| u.fec.leaving ||| u.pwr.gatedCores)
      (byteAt b 0) = false →
      exec (.fecCoreTest p) s = .next (settle (answer infoFecCoreTest p .wait { u with
        fec := { u.fec with tests := u.fec.tests ++ [(packetKey p, byteAt b 0, u.elapsed)] } }))) ∧
    (Ready infoFrmGccSend p s t → u.parN 0x6002 c.inst ≠ 0 → (getFrm t c).gcc.host.length < 8 →
      exec (.frmGccSend p) s = .next (settle (answer infoFrmGccSend p .ok (updFrm c (fun f => { f with
        gcc := { f.gcc with host := f.gcc.host ++ [b] } }) u)))) ∧
    (Ready infoFrmGccRecv p s t → (getFrm u c).gcc.queue = [] →
      exec (.frmGccRecv p) s = .next (settle (answer infoFrmGccRecv p (.data (zeros 16)) u))) ∧
    (∀ (m : GccMsg) (rest : List GccMsg), Ready infoFrmGccRecv p s t → (getFrm u c).gcc.queue = m :: rest → 16 +
      m.bytes.length ≤ fld b 8 4 →
      exec (.frmGccRecv p) s = .next (settle (answer infoFrmGccRecv p (.data (le 2 m.bytes.length ++ zeros 6 ++ le 8
      m.tick ++ m.bytes)) (updFrm c (fun f => { f with gcc := { f.gcc with queue := rest } }) u)))) ∧
    (Ready infoFrmApsSet p s t →
      exec (.frmApsSet p) s = .next (settle (answer infoFrmApsSet p .ok (updFrm c (fun f => { f with
        apsTx := fld b 0 4 }) u)))) ∧
    (Ready infoCliTsRead p s t → byteAt b 16 ≤ 11 → cliOn t (byteAt b 16) = true → byteAt b 17 = 0 → 1 ≤ fld b 18 2 →
      fld b 18 2 ≤ 64 → (tsReadBytes (fld b 18 2) (getCli u (byteAt b 16)).tsIn).length ≤ fld b 8 4 →
      exec (.cliTsRead p) s = .next (settle (answer infoCliTsRead p (.data (tsReadBytes (fld b 18 2) (getCli u (byteAt
      b 16)).tsIn)) (updCli (byteAt b 16) (fun x => { x with
        tsIn := (getCli u (byteAt b 16)).tsIn.drop (fld b 18 2) }) u)))) ∧
    (Ready infoCliTsRead p s t → byteAt b 16 ≤ 11 → cliOn t (byteAt b 16) = true → byteAt b 17 = 1 → 1 ≤ fld b 18 2 →
      fld b 18 2 ≤ 64 → (tsReadBytes (fld b 18 2) (getCli u (byteAt b 16)).tsOut).length ≤ fld b 8 4 →
      exec (.cliTsRead p) s = .next (settle (answer infoCliTsRead p (.data (tsReadBytes (fld b 18 2) (getCli u (byteAt
      b 16)).tsOut)) (updCli (byteAt b 16) (fun x => { x with
        tsOut := (getCli u (byteAt b 16)).tsOut.drop (fld b 18 2) }) u)))) ∧
    (∀ (j : Nat), Ready infoClientBitslip p s t → byteAt b 0 ≤ 11 → cliOn t (byteAt b 0) = true → byteAt b 1 < cliK t
      (byteAt b 0) → 1 ≤ byteAt b 2 → byteAt b 2 ≤ 65 → u.parN 0x7007 (0x40 + byteAt b 0) ≠ 0 → slotOrder (accMapOf u
      (cliLine u (byteAt b 0))) (cliRxSlots u (byteAt b 0)) (byteAt b 1) = some j →
      exec (.clientBitslip p) s = .next (settle (answer infoClientBitslip p .ok (updSlots (cliLine u (byteAt b 0))
      (fun x => { x with
        rx := lmod x.rx j fun r => { r with
          slip := r.slip + byteAt b 2, cand := (r.cand + byteAt b 2) % 66, goodRun := 0, locked := r.locked } }) u)))) ∧
    (Ready infoRxTapDump p s t → lockInd u c = false →
      exec (.rxTapDump p) s = .next (settle (answer infoRxTapDump p (.st 0x1403) u))) ∧
    (Ready infoFecCoreTest p s t → byteAt b 0 ≤ 47 → bit (u.fec.disabled ||| u.fec.leaving ||| u.pwr.gatedCores)
      (byteAt b 0) = true →
      exec (.fecCoreTest p) s = .next (settle (answer infoFecCoreTest p (.st stWrongState) u))) ∧
    (Ready infoFrmGccSend p s t → (getFrm t c).gcc.host.length < 8 → u.parN 0x6002 c.inst = 0 →
      exec (.frmGccSend p) s = .next (settle (answer infoFrmGccSend p (.st stWrongState) u))) ∧
    (Ready infoFrmGccSend p s t → 8 ≤ (getFrm t c).gcc.host.length →
      exec (.frmGccSend p) s = .next (settle (refuse infoFrmGccSend.op p { step := 12, st := stNoResource } t))) ∧
    (∀ (m : GccMsg) (rest : List GccMsg), Ready infoFrmGccRecv p s t → (getFrm u c).gcc.queue = m :: rest → fld b 8 4
      < 16 + m.bytes.length →
      exec (.frmGccRecv p) s = .next (settle (answer infoFrmGccRecv p (.data (le 2 m.bytes.length ++ zeros 6 ++ le 8
      m.tick ++ m.bytes)) u))) ∧
    (Ready infoClientBitslip p s t → byteAt b 0 ≤ 11 → cliOn t (byteAt b 0) = true → byteAt b 1 < cliK t (byteAt b 0)
      → 1 ≤ byteAt b 2 → byteAt b 2 ≤ 65 → u.parN 0x7007 (0x40 + byteAt b 0) = 0 →
      exec (.clientBitslip p) s = .next (settle (answer infoClientBitslip p (.st stWrongState) u))) ∧
    (Ready infoClientBitslip p s t → byteAt b 0 ≤ 11 → cliOn t (byteAt b 0) = true → byteAt b 1 < cliK t (byteAt b 0)
      → 1 ≤ byteAt b 2 → byteAt b 2 ≤ 65 → u.parN 0x7007 (0x40 + byteAt b 0) ≠ 0 → slotOrder (accMapOf u (cliLine u
      (byteAt b 0))) (cliRxSlots u (byteAt b 0)) (byteAt b 1) = none →
      exec (.clientBitslip p) s = .next (settle (answer infoClientBitslip p (.st stWrongState) u)))

/-- Key installation, tests, exchanges, secrets and public-key operations: effect and completion. KEY_INSTALL,
CRY_GCM_TEST, KE_START, KE_ABORT, KE_SECRET_SET, PK_VERIFY, PK_ECDH, KE_EPOCH_FLOOR. Each completes for every packet
that passes the common checks and the conditions written in its clause: exec answers the state with exactly this
effect and this completion. Clauses with another status than OK say when a command answers it and what changes then.
A KE_START tick off a multiple of 256 is log entry 66. -/
def Obligations.KeyCommandsRun : Prop :=
  ∀ (p : Packet) (s t u : State) (b : Bytes) (c : Line), u = accept p t → b = paramBytes p → c = pktLine p →
    (Ready infoKeyInstall p s t → byteAt b 0 ≤ 25 → byteAt b 1 ≤ 1 → rsv b 2 4 = true → rsv b 12 16 = true →
      installCheck u (pktInstall p) true = 0 →
      exec (.keyInstall p) s = .next (settle (answer infoKeyInstall p .wait (addInstall (pktInstall p) u)))) ∧
    (∀ (src : Bytes), Ready infoCryGcmTest p s t → fld b 24 4 + fld b 28 4 ≤ 262144 →
      exec (.cryGcmTest p src) s = .next (settle (answer infoCryGcmTest p .wait { u with
        cry := { u.cry with
          gcmTest := u.cry.gcmTest ++ [(packetKey p, fld b 24 4 + fld b 28 4, gcmCrypt (slice b 44 32) (slice b 32 12)
            (padTo (fld b 24 4) (src.drop (fld b 28 4))) ++ gcmTag (slice b 44 32) (slice b 32 12) (src.take (fld b 28
            4)) (gcmCrypt (slice b 44 32) (slice b 32 12) (padTo (fld b 24 4) (src.drop (fld b 28 4)))))] } }))) ∧
    (Ready infoKeStart p s t → fld b 4 4 < 2 ^ 26 → fld b 8 8 % 256 = 0 → byteAt b 16 ≤ 1 → rsv b 17 24 = true →
      (getCry u c).secret ≠ none → u.parN 0x6002 c.inst ≠ 0 → getExch u c = none → u.cry.floor < fld b 0 4 →
      exec (.keStart p) s = .next (settle (answer infoKeStart p .wait (pkAdd { kind := .keGen c } (updCry c (fun x =>
      { x with exch := some (startExch p u) }) u))))) ∧
    (∀ (x : Exch), Ready infoKeAbort p s t → getExch u c = some x →
      exec (.keAbort p) s = .next (settle (answer infoKeAbort p .ok (finish x.owner (.st stAborted) (gccSendKey c
      (x.header 5 stAborted x.initNonce) (keEnd c stAborted u)))))) ∧
    (Ready infoKeSecretSet p s t → getExch u c = none →
      exec (.keSecretSet p) s = .next (settle (answer infoKeSecretSet p .ok (updCry c (fun x => { x with
        secret := some b }) u)))) ∧
    (Ready infoPkVerify p s t → byteAt b 0 = 4 → rsv b 97 100 = true → t.cry.pk.length < 16 →
      exec (.pkVerify p) s = .next (settle (answer infoPkVerify p .wait (pkAdd {
        kind := .verify, owner := some (packetKey p), p := some p } u)))) ∧
    (Ready infoPkEcdh p s t → byteAt b 16 ≤ 1 → rsv b 17 24 = true → (byteAt b 16 = 1 ∨ byteAt b 72 = 4) →
      t.cry.pk.length < 16 →
      exec (.pkEcdh p) s = .next (settle (answer infoPkEcdh p .wait (pkAdd {
        kind := .ecdh (byteAt b 16), owner := some (packetKey p), p := some p } u)))) ∧
    (Ready infoKeEpochFloor p s t → u.cry.high ≤ fld b 0 4 →
      exec (.keEpochFloor p) s = .next (settle (answer infoKeEpochFloor p .wait (flashAdd {
        kind := .epochRecord, owner := some (packetKey p), aux := fld b 0 4, aux2 := 1 } u)))) ∧
    (Ready infoKeyInstall p s t → byteAt b 0 ≤ 25 → byteAt b 1 ≤ 1 → rsv b 2 4 = true → rsv b 12 16 = true →
      installCheck u (pktInstall p) true ≠ 0 →
      exec (.keyInstall p) s = .next (settle (answer infoKeyInstall p (.st (installCheck u (pktInstall p) true)) u))) ∧
    (∀ (src : Bytes), Ready infoCryGcmTest p s t → 262144 < fld b 24 4 + fld b 28 4 →
      exec (.cryGcmTest p src) s = .next (settle (answer infoCryGcmTest p (.st 0x1801) u))) ∧
    (Ready infoKeStart p s t → fld b 4 4 < 2 ^ 26 → fld b 8 8 % 256 = 0 → byteAt b 16 ≤ 1 → rsv b 17 24 = true →
      ((getCry u c).secret = none ∨ u.parN 0x6002 c.inst = 0) →
      exec (.keStart p) s = .next (settle (answer infoKeStart p (.st stWrongState) u))) ∧
    (Ready infoKeStart p s t → fld b 4 4 < 2 ^ 26 → fld b 8 8 % 256 = 0 → byteAt b 16 ≤ 1 → rsv b 17 24 = true →
      (getCry u c).secret ≠ none → u.parN 0x6002 c.inst ≠ 0 → getExch u c ≠ none →
      exec (.keStart p) s = .next (settle (answer infoKeStart p (.st stBusy) u))) ∧
    (Ready infoKeStart p s t → fld b 4 4 < 2 ^ 26 → fld b 8 8 % 256 = 0 → byteAt b 16 ≤ 1 → rsv b 17 24 = true →
      (getCry u c).secret ≠ none → u.parN 0x6002 c.inst ≠ 0 → getExch u c = none → fld b 0 4 ≤ u.cry.floor →
      exec (.keStart p) s = .next (settle (answer infoKeStart p (.st 0x1901) u))) ∧
    (Ready infoKeAbort p s t → getExch u c = none →
      exec (.keAbort p) s = .next (settle (answer infoKeAbort p (.st stWrongState) u))) ∧
    (Ready infoKeSecretSet p s t → getExch u c ≠ none →
      exec (.keSecretSet p) s = .next (settle (answer infoKeSecretSet p (.st stWrongState) u))) ∧
    (Ready infoPkVerify p s t → byteAt b 0 = 4 → rsv b 97 100 = true → 16 ≤ t.cry.pk.length →
      exec (.pkVerify p) s = .next (settle (refuse infoPkVerify.op p { step := 12, st := stNoResource } t))) ∧
    (Ready infoPkEcdh p s t → byteAt b 16 ≤ 1 → rsv b 17 24 = true → (byteAt b 16 = 1 ∨ byteAt b 72 = 4) → 16 ≤
      t.cry.pk.length →
      exec (.pkEcdh p) s = .next (settle (refuse infoPkEcdh.op p { step := 12, st := stNoResource } t))) ∧
    (Ready infoKeEpochFloor p s t → fld b 0 4 < u.cry.high →
      exec (.keEpochFloor p) s = .next (settle (answer infoKeEpochFloor p (.st 0x1901) u)))

/-- Whisper frames, settings, banks and captures: effect and completion. WH_SEND, WH_RECV, WH_CONFIG, WH_BANK_SWAP,
WH_CAPTURE. Each completes for every packet that passes the common checks and the conditions written in its clause:
exec answers the state with exactly this effect and this completion. Clauses with another status than OK say when a
command answers it and what changes then. -/
def Obligations.WhisperCommandsRun : Prop :=
  ∀ (p : Packet) (s t u : State) (b : Bytes) (c : Line), u = accept p t → b = paramBytes p → c = pktLine p →
    (Ready infoWhSend p s t → (byteAt b 0 ≤ 3 ∨ byteAt b 0 = 0xFF) → rsv b 1 4 = true → 2 ≤ u.parN 0xA000 c.inst →
      (getWh t c).host.length < 8 →
      exec (.whSend p) s = .next (settle (answer infoWhSend p (.ok (getWh u c).seq) (updWh c (fun x => { x with
        seq := ((getWh u c).seq + 1) % 256, host := x.host ++ [{
          chan := 0, seq := (getWh u c).seq, mode := if byteAt b 0 = 0xFF then none else some (byteAt b 0), payload :=
            b.drop 4, at_ := u.elapsed }] }) u)))) ∧
    (Ready infoWhRecv p s t → (getWh u c).queue = [] →
      exec (.whRecv p) s = .next (settle (answer infoWhRecv p (.data (zeros 24)) u))) ∧
    (∀ (m : WMsg) (rest : List WMsg), Ready infoWhRecv p s t → (getWh u c).queue = m :: rest → (whRecord m).length ≤
      fld b 8 4 →
      exec (.whRecv p) s = .next (settle (answer infoWhRecv p (.data (whRecord m)) (updWh c (fun x => { x with
        queue := rest }) u)))) ∧
    (Ready infoWhConfig p s t → byteAt b 0 ≤ 3 → 10 ≤ byteAt b 1 → byteAt b 1 ≤ 40 →
      exec (.whConfig p) s = .next (settle (answer infoWhConfig p .ok ((pktLines p).foldl (fun s c => updWh c (fun x
      => { x with pendMode := some (byteAt b 0), pendDepth := some (byteAt b 1) }) s) u)))) ∧
    (Ready infoWhBankSwap p s t → byteAt b 0 ≤ 3 → byteAt b 1 ≤ 1 → (getChain u (byteAt b 0)).swap = none → coefFrozen
      u (byteAt b 0) = false →
      exec (.whBankSwap p) s = .next (settle (answer infoWhBankSwap p .ok (updChain (byteAt b 0) (fun x => { x with
        swap := some (byteAt b 1 == 1) }) u)))) ∧
    (Ready infoWhCapture p s t → byteAt b 16 ≤ 3 → byteAt b 17 ≤ 2 → (byteAt b 17 = 0 ∨ byteAt b 16 < 2) → rsv b 18 20
      = true → 1 ≤ fld b 20 4 → fld b 20 4 ≤ 16384 →
      exec (.whCapture p) s = .next (settle (answer infoWhCapture p .wait { u with
        wh := { u.wh with
          caps := u.wh.caps ++ [{
            owner := packetKey p, chain := byteAt b 16, point := byteAt b 17, left := fld b 20 4 }] } }))) ∧
    (Ready infoWhSend p s t → (byteAt b 0 ≤ 3 ∨ byteAt b 0 = 0xFF) → rsv b 1 4 = true → (getWh t c).host.length < 8 →
      u.parN 0xA000 c.inst < 2 →
      exec (.whSend p) s = .next (settle (answer infoWhSend p (.st stWrongState) u))) ∧
    (Ready infoWhSend p s t → (byteAt b 0 ≤ 3 ∨ byteAt b 0 = 0xFF) → rsv b 1 4 = true → 8 ≤ (getWh t c).host.length →
      exec (.whSend p) s = .next (settle (refuse infoWhSend.op p { step := 12, st := stNoResource } t))) ∧
    (∀ (m : WMsg) (rest : List WMsg), Ready infoWhRecv p s t → (getWh u c).queue = m :: rest → fld b 8 4 < (whRecord
      m).length →
      exec (.whRecv p) s = .next (settle (answer infoWhRecv p (.data (whRecord m)) u))) ∧
    (Ready infoWhBankSwap p s t → byteAt b 0 ≤ 3 → byteAt b 1 ≤ 1 → ((getChain u (byteAt b 0)).swap ≠ none ∨
      coefFrozen u (byteAt b 0) = true) →
      exec (.whBankSwap p) s = .next (settle (answer infoWhBankSwap p (.st stBusy) u)))

/-- Membership, documents, messages, calls and the mate's roles: effect and completion. DM_JOIN, DM_LEAVE,
DM_PUBLISH, DM_SEND, DM_RECV, DM_CALL, MATE_SWITCH. Each completes for every packet that passes the common checks and
the conditions written in its clause: exec answers the state with exactly this effect and this completion. Clauses
with another status than OK say when a command answers it and what changes then. The caller's own call is log entry
74; the statuses of MATE_SWITCH are log entry 82. -/
def Obligations.DomainCommandsRun : Prop :=
  ∀ (p : Packet) (s t u : State) (b : Bytes), u = accept p t → b = paramBytes p →
    (Ready infoDmJoin p s t → fld b 0 4 ≠ 0 → fld b 4 2 ≤ 16383 → rsv b 6 8 = true → byteAt b 8 = 4 → rsv b 105 108 =
      true → u.dm.member = false → (u.dm.joinedOnce = true → u.dm.domain = fld b 0 4 ∧ u.dm.key = slice b 8 97) →
      pubCheck (unbe (slice b 9 48)) (unbe (slice b 57 48)) = 0 →
      exec (.dmJoin p) s = .next (settle (answer infoDmJoin p .ok (raise 0xB0 { u with
        cfgVersion := (if u.dm.recDomain = fld b 0 4 then u.dm.recVersion else 0), dm := { u.dm with
          member := true, joinedOnce := true, domain := fld b 0 4, id := fld b 4 2, key := slice b 8 97 } })))) ∧
    (Ready infoDmLeave p s t → u.dm.member = true →
      exec (.dmLeave p) s = .next (settle (answer infoDmLeave p .ok (raise 0xB0 (updPaths { u with
        dm := { u.dm with member := false, fetch := none } }))))) ∧
    (Ready infoDmPublish p s t → u.dm.member = true → docCheck u b = 0 → u.cfgVersion < fld b 4 4 → u.dm.adopt = none
      →
      exec (.dmPublish p) s = .next (settle (answer infoDmPublish p .wait (beginAdopt (fld b 4 4) b (some (packetKey
      p)) u)))) ∧
    (Ready infoDmSend p s t → rsv b 2 4 = true → u.dm.member = true →
      exec (.dmSend p) s = .next (settle (answer infoDmSend p (.ok u.dm.msgId) (dmSend 0x04 (fld b 0 2) (b.drop 4)
      (sendPaths u) u)))) ∧
    (Ready infoDmRecv p s t → u.dm.member = true → u.dm.queue = [] →
      exec (.dmRecv p) s = .next (settle (answer infoDmRecv p (.data (zeros 24)) u))) ∧
    (∀ (d : DmEnt) (ds : List DmEnt), Ready infoDmRecv p s t → u.dm.member = true → u.dm.queue = d :: ds → 24 +
      d.body.length ≤ fld b 8 4 →
      exec (.dmRecv p) s = .next (settle (answer infoDmRecv p (.data ([byteOf d.kind, 0] ++ le 2 d.origin ++ le 4
      d.msgId ++ le 8 d.tick ++ le 2 d.body.length ++ zeros 6 ++ d.body)) { u with
        dm := { u.dm with queue := ds } }))) ∧
    (Ready infoDmCall p s t → u.dm.member = true →
      exec (.dmCall p) s = .next (settle (answer infoDmCall p (.ok u.dm.msgId) (callArrived {
        origin := u.dm.id, number := fld b 12 4, version := fld b 0 4, t := fld b 4 8 } (dmSend 0x03 0xFFFF (be 4 (fld
      b 0 4) ++ be 8 (fld b 4 8) ++ be 4 (fld b 12 4) ++ b.drop 16) (sendPaths u) u))))) ∧
    (Ready infoMateSwitch p s t → u.parN 0xB010 0 = 1 → u.mate.link = true → u.mate.switch = none → u.mate.active ≠
      bit u.mate.peerFlags 0 →
      exec (.mateSwitch p) s = .next (settle (answer infoMateSwitch p .wait { u with
        mate := { u.mate with
          switch := some { mine := true, owner := some (packetKey p), t := u.tick + 16 }, healthRun := 0 } }))) ∧
    (Ready infoDmJoin p s t → fld b 0 4 ≠ 0 → fld b 4 2 ≤ 16383 → rsv b 6 8 = true → byteAt b 8 = 4 → rsv b 105 108 =
      true → u.dm.member = true →
      exec (.dmJoin p) s = .next (settle (answer infoDmJoin p (.st stWrongState) u))) ∧
    (Ready infoDmJoin p s t → fld b 0 4 ≠ 0 → fld b 4 2 ≤ 16383 → rsv b 6 8 = true → byteAt b 8 = 4 → rsv b 105 108 =
      true → u.dm.member = false → u.dm.joinedOnce = true → (u.dm.domain ≠ fld b 0 4 ∨ u.dm.key ≠ slice b 8 97) →
      exec (.dmJoin p) s = .next (settle (answer infoDmJoin p (.st stLocked) u))) ∧
    (Ready infoDmJoin p s t → fld b 0 4 ≠ 0 → fld b 4 2 ≤ 16383 → rsv b 6 8 = true → byteAt b 8 = 4 → rsv b 105 108 =
      true → u.dm.member = false → (u.dm.joinedOnce = true → u.dm.domain = fld b 0 4 ∧ u.dm.key = slice b 8 97) →
      pubCheck (unbe (slice b 9 48)) (unbe (slice b 57 48)) ≠ 0 →
      exec (.dmJoin p) s = .next (settle (answer infoDmJoin p (.st (pubCheck (unbe (slice b 9 48)) (unbe (slice b 57
      48)))) u))) ∧
    (Ready infoDmLeave p s t → u.dm.member = false →
      exec (.dmLeave p) s = .next (settle (answer infoDmLeave p (.st 0x1B01) u))) ∧
    (Ready infoDmPublish p s t → u.dm.member = false →
      exec (.dmPublish p) s = .next (settle (answer infoDmPublish p (.st 0x1B01) u))) ∧
    (Ready infoDmRecv p s t → u.dm.member = false →
      exec (.dmRecv p) s = .next (settle (answer infoDmRecv p (.st 0x1B01) u))) ∧
    (Ready infoDmCfgRead p s t → u.dm.member = false →
      exec (.dmCfgRead p) s = .next (settle (answer infoDmCfgRead p (.st 0x1B01) u))) ∧
    (Ready infoDmCall p s t → u.dm.member = false →
      exec (.dmCall p) s = .next (settle (answer infoDmCall p (.st 0x1B01) u))) ∧
    (Ready infoDmSend p s t → rsv b 2 4 = true → u.dm.member = false →
      exec (.dmSend p) s = .next (settle (answer infoDmSend p (.st 0x1B01) u))) ∧
    (Ready infoDmCfgRead p s t → u.dm.member = true → u.dm.doc = [] →
      exec (.dmCfgRead p) s = .next (settle (answer infoDmCfgRead p (.st stWrongState) u))) ∧
    (Ready infoDmPublish p s t → u.dm.member = true → docCheck u b ≠ 0 →
      exec (.dmPublish p) s = .next (settle (answer infoDmPublish p (.st (docCheck u b)) (raise 0xB2 (bump 857 u))))) ∧
    (Ready infoDmPublish p s t → u.dm.member = true → docCheck u b = 0 → fld b 4 4 ≤ u.cfgVersion →
      exec (.dmPublish p) s = .next (settle (answer infoDmPublish p (.st 0x1B02) u))) ∧
    (Ready infoDmPublish p s t → u.dm.member = true → docCheck u b = 0 → u.cfgVersion < fld b 4 4 → u.dm.adopt ≠ none
      →
      exec (.dmPublish p) s = .next (settle (answer infoDmPublish p (.st stBusy) u))) ∧
    (∀ (d : DmEnt) (ds : List DmEnt), Ready infoDmRecv p s t → u.dm.member = true → u.dm.queue = d :: ds → fld b 8 4 <
      24 + d.body.length →
      exec (.dmRecv p) s = .next (settle (answer infoDmRecv p (.data ([byteOf d.kind, 0] ++ le 2 d.origin ++ le 4
      d.msgId ++ le 8 d.tick ++ le 2 d.body.length ++ zeros 6 ++ d.body)) u))) ∧
    (Ready infoMateSwitch p s t → u.parN 0xB010 0 ≠ 1 →
      exec (.mateSwitch p) s = .next (settle (answer infoMateSwitch p (.st stWrongState) u))) ∧
    (Ready infoMateSwitch p s t → u.parN 0xB010 0 = 1 → u.mate.link = false →
      exec (.mateSwitch p) s = .next (settle (answer infoMateSwitch p (.st 0x1B04) u))) ∧
    (Ready infoMateSwitch p s t → u.parN 0xB010 0 = 1 → u.mate.link = true → u.mate.switch ≠ none →
      exec (.mateSwitch p) s = .next (settle (answer infoMateSwitch p (.st stBusy) u))) ∧
    (Ready infoMateSwitch p s t → u.parN 0xB010 0 = 1 → u.mate.link = true → u.mate.switch = none → u.mate.active =
      bit u.mate.peerFlags 0 →
      exec (.mateSwitch p) s = .next (settle (answer infoMateSwitch p (.st stWrongState) u)))

/-- Calibration runs, the store, trims and spares: effect and completion. CAL_RUN, CAL_STORE, CAL_TEST, CAL_TRIM_SET,
CAL_SPARE_SET. Each completes for every packet that passes the common checks and the conditions written in its
clause: exec answers the state with exactly this effect and this completion. Clauses with another status than OK say
when a command answers it and what changes then. -/
def Obligations.CalibrationCommandsRun : Prop :=
  ∀ (p : Packet) (s t u : State) (b : Bytes) (c : Line), u = accept p t → b = paramBytes p → c = pktLine p →
    (Ready infoCalRun p s t → fld b 0 2 ≠ 0 → byteAt b 2 ≤ 1 → (∀ v, v < 16 → (fld b 0 2).testBit v = true → calReady
      u v = true ∧ runOf u v = false) →
      exec (.calRun p) s = .next (settle (answer infoCalRun p .wait ((bitsSet 16 (fld b 0 2)).foldl (fun s v => bump
      (convCnt v 0) s) { u with
        cal := { u.cal with
          runs := u.cal.runs ++ [{
            owner := some (packetKey p), mask := fld b 0 2, meas := fld b 0 2, start := u.elapsed + 1, store := byteAt
              b 2 == 1, no := u.cal.runNo + 1 }], runNo := u.cal.runNo + 1 } })))) ∧
    (Ready infoCalStore p s t →
      exec (.calStore p) s = .next (settle (answer infoCalStore p .wait (flashAdd {
        kind := .calStore, owner := some (packetKey p), data := calRecords u } u)))) ∧
    (Ready infoCalTest p s t → byteAt b 0 = 1 → (calSt u c = .service ∨ calSt u c = .recovery) →
      exec (.calTest p) s = .next (settle (answer infoCalTest p .ok (setCalSt c .test u)))) ∧
    (Ready infoCalTest p s t → byteAt b 0 = 0 → calSt u c = .test →
      exec (.calTest p) s = .next (settle (answer infoCalTest p .ok (setCalSt c (if u.cal.valid then .service else
      .recovery) u)))) ∧
    (Ready infoCalTrimSet p s t → byteAt b 0 ≤ 15 → byteAt b 1 ≤ 67 → (∀ i, i < 4 → (sx 16 (fld b (2 + 2 * i)
      2)).natAbs ≤ 511) → calSt u (convLine (byteAt b 0)) = .test →
      exec (.calTrimSet p) s = .next (settle (answer infoCalTrimSet p .ok (rampAsked (byteAt b 0) (byteAt b 1)
      ((List.range 4).map fun i => sx 16 (fld b (2 + 2 * i) 2)) u)))) ∧
    (Ready infoCalSpareSet p s t → byteAt b 0 ≤ 15 → byteAt b 1 ≤ 63 → calSt u (convLine (byteAt b 0)) = .test → runOf
      u (byteAt b 0) = false → (getConv u (byteAt b 0)).spares ≠ [] →
      exec (.calSpareSet p) s = .next (settle (answer infoCalSpareSet p .wait (pumpSubs (byteAt b 0) (updConv (byteAt
      b 0) (fun x => { x with subs := x.subs ++ [{ pos := byteAt b 1, failed := false, req := [] }] }) { u with
        cal := { u.cal with
          runs := u.cal.runs ++ [{
            owner := some (packetKey p), mask := 2 ^ byteAt b 0, meas := 0, start := 0, no := u.cal.runNo + 1 }],
          runNo := u.cal.runNo + 1 } }))))) ∧
    (Ready infoCalRun p s t → fld b 0 2 ≠ 0 → byteAt b 2 ≤ 1 → (bitsSet 16 (fld b 0 2)).all (calReady u) = false →
      exec (.calRun p) s = .next (settle (answer infoCalRun p (.st stWrongState) u))) ∧
    (Ready infoCalRun p s t → fld b 0 2 ≠ 0 → byteAt b 2 ≤ 1 → (bitsSet 16 (fld b 0 2)).all (calReady u) = true →
      (bitsSet 16 (fld b 0 2)).any (runOf u) = true →
      exec (.calRun p) s = .next (settle (answer infoCalRun p (.st stBusy) u))) ∧
    (Ready infoCalTest p s t → byteAt b 0 = 1 → calSt u c ≠ .service → calSt u c ≠ .recovery →
      exec (.calTest p) s = .next (settle (answer infoCalTest p (.st stWrongState) u))) ∧
    (Ready infoCalTest p s t → byteAt b 0 = 0 → calSt u c ≠ .test →
      exec (.calTest p) s = .next (settle (answer infoCalTest p (.st stWrongState) u))) ∧
    (Ready infoCalTrimSet p s t → byteAt b 0 ≤ 15 → byteAt b 1 ≤ 67 → (∀ i, i < 4 → (sx 16 (fld b (2 + 2 * i)
      2)).natAbs ≤ 511) → calSt u (convLine (byteAt b 0)) ≠ .test →
      exec (.calTrimSet p) s = .next (settle (answer infoCalTrimSet p (.st stWrongState) u))) ∧
    (Ready infoCalSpareSet p s t → byteAt b 0 ≤ 15 → byteAt b 1 ≤ 63 → calSt u (convLine (byteAt b 0)) ≠ .test →
      exec (.calSpareSet p) s = .next (settle (answer infoCalSpareSet p (.st stWrongState) u))) ∧
    (Ready infoCalSpareSet p s t → byteAt b 0 ≤ 15 → byteAt b 1 ≤ 63 → calSt u (convLine (byteAt b 0)) = .test → runOf
      u (byteAt b 0) = true →
      exec (.calSpareSet p) s = .next (settle (answer infoCalSpareSet p (.st stBusy) u))) ∧
    (Ready infoCalSpareSet p s t → byteAt b 0 ≤ 15 → byteAt b 1 ≤ 63 → calSt u (convLine (byteAt b 0)) = .test → runOf
      u (byteAt b 0) = false → (getConv u (byteAt b 0)).spares = [] →
      exec (.calSpareSet p) s = .next (settle (answer infoCalSpareSet p (.st 0x1C02) u)))

/-- Power moves, gating, pins and PMBus: effect and completion. PWR_SET, PWR_GATE, PIN_REARM, PMBUS_XFER. Each
completes for every packet that passes the common checks and the conditions written in its clause: exec answers the
state with exactly this effect and this completion. Clauses with another status than OK say when a command answers it
and what changes then. -/
def Obligations.PowerCommandsRun : Prop :=
  ∀ (p : Packet) (s t u : State) (b : Bytes), u = accept p t → b = paramBytes p →
    (Ready infoPwrSet p s t → 1 ≤ byteAt b 0 → byteAt b 0 ≤ 4 → (byteAt b 0 = 3 → byteAt b 1 = 1 ∨ byteAt b 1 = 2) →
      byteAt b 2 < 2 → u.pwr.move = none → movePermitted u (byteAt b 0) (if byteAt b 0 = 3 then byteAt b 1 else if
      byteAt b 0 = 4 then 3 else 0) = true → (byteAt b 0 = 1 → parkBlocked u = false) → (3 ≤ byteAt b 0 → u.pwr.tj <
      1150) →
      exec (.pwrSet p) s = .next (settle (answer infoPwrSet p .wait { u with
        pwr := { u.pwr with
          move := some {
            target := byteAt b 0, want := (if byteAt b 0 = 3 then byteAt b 1 else if byteAt b 0 = 4 then 3 else 0),
            source := u.pwr.state, had := runMask u, whisper := byteAt b 2 == 1, owner := some (packetKey p), started
              := u.elapsed } } }))) ∧
    (Ready infoPwrGate p s t → byteAt b 0 ≤ 1 → byteAt b 1 = 0 → u.pwr.move = none → gateRefused u (gateAsked p u) =
      none →
      exec (.pwrGate p) s = .next (settle (answer infoPwrGate p .wait { u with
        pwr := { u.pwr with gates := u.pwr.gates ++ [gateAsked p u] } }))) ∧
    (Ready infoPinRearm p s t → fld b 0 4 < 2 ^ 19 →
      exec (.pinRearm p) s = .next (settle (answer infoPinRearm p .ok { u with
        pwr := { u.pwr with hiZ := u.pwr.hiZ - (u.pwr.hiZ &&& fld b 0 4) } }))) ∧
    (Ready infoPmbusXfer p s t → byteAt b 0 ≤ 127 → byteAt b 2 ≤ 5 → byteAt b 3 ≤ 32 → ((railMap u).any (fun e =>
      e.2.1 == byteAt b 0 && e.2.2 != 8)) = false →
      exec (.pmbusXfer p) s = .next (settle (answer infoPmbusXfer p .wait { u with
        pwr := { u.pwr with
          pmb := u.pwr.pmb ++ [{
            owner := packetKey p, addr := byteAt b 0, code := byteAt b 1, kind := byteAt b 2, data := slice b 4
              (byteAt b 3) }] } }))) ∧
    (Ready infoPwrSet p s t → 1 ≤ byteAt b 0 → byteAt b 0 ≤ 4 → (byteAt b 0 = 3 → byteAt b 1 = 1 ∨ byteAt b 1 = 2) →
      byteAt b 2 < 2 → u.pwr.move ≠ none →
      exec (.pwrSet p) s = .next (settle (answer infoPwrSet p (.st stBusy) u))) ∧
    (Ready infoPwrSet p s t → 1 ≤ byteAt b 0 → byteAt b 0 ≤ 4 → (byteAt b 0 = 3 → byteAt b 1 = 1 ∨ byteAt b 1 = 2) →
      byteAt b 2 < 2 → u.pwr.move = none → (movePermitted u (byteAt b 0) (if byteAt b 0 = 3 then byteAt b 1 else if
      byteAt b 0 = 4 then 3 else 0) = false ∨ byteAt b 0 = 1 ∧ parkBlocked u = true) →
      exec (.pwrSet p) s = .next (settle (answer infoPwrSet p (.st stWrongState) u))) ∧
    (Ready infoPwrSet p s t → 1 ≤ byteAt b 0 → byteAt b 0 ≤ 4 → (byteAt b 0 = 3 → byteAt b 1 = 1 ∨ byteAt b 1 = 2) →
      byteAt b 2 < 2 → u.pwr.move = none → movePermitted u (byteAt b 0) (if byteAt b 0 = 3 then byteAt b 1 else if
      byteAt b 0 = 4 then 3 else 0) = true → 3 ≤ byteAt b 0 → 1150 ≤ u.pwr.tj →
      exec (.pwrSet p) s = .next (settle (answer infoPwrSet p (.st 0x1103) u))) ∧
    (Ready infoPwrGate p s t → byteAt b 0 ≤ 1 → byteAt b 1 = 0 → u.pwr.move ≠ none →
      exec (.pwrGate p) s = .next (settle (answer infoPwrGate p (.st stBusy) u))) ∧
    (∀ (n : Nat), Ready infoPwrGate p s t → byteAt b 0 ≤ 1 → byteAt b 1 = 0 → u.pwr.move = none → gateRefused u
      (gateAsked p u) = some n →
      exec (.pwrGate p) s = .next (settle (answer infoPwrGate p (.st n) u))) ∧
    (Ready infoPmbusXfer p s t → byteAt b 0 ≤ 127 → byteAt b 2 ≤ 5 → byteAt b 3 ≤ 32 → ((railMap u).any (fun e =>
      e.2.1 == byteAt b 0 && e.2.2 != 8)) = true →
      exec (.pmbusXfer p) s = .next (settle (answer infoPmbusXfer p (.st 0x1102) u)))

/-- Images, pages, leases, channels, revocation, quarantine and engine tests: effect and completion. ENG_IMAGE_LOAD,
ENG_IMAGE_FREE, STW_PAGE_ALLOC, STW_PAGE_FREE, STW_RENEW, STW_DMA_GRANT, STW_DMA_RELEASE, TENANT_REVOKE,
STW_QUARANTINE, STW_RELEASE, ENG_TEST. Each completes for every packet that passes the common checks and the
conditions written in its clause: exec answers the state with exactly this effect and this completion. Clauses with
another status than OK say when a command answers it and what changes then. Handles and quota statuses are log entry
96; quarantine is log entry 100. -/
def Obligations.StewardCommandsRun : Prop :=
  ∀ (p : Packet) (s t u : State) (b : Bytes), u = accept p t → b = paramBytes p →
    (∀ (img : Bytes), Ready infoEngImageLoad p s t → 76 ≤ fld b 8 4 → fld b 8 4 ≤ 65696 → 2 ≤ byteAt b 12 → byteAt b
      12 ≤ 63 → rsv b 13 16 = true → (getTen u (byteAt b 12)).st = .active → img.length = fld b 8 4 → imgStatus u img
      = 0 →
      exec (.engImageLoad p img) s = .next (settle (answer infoEngImageLoad p .wait { u with
        stw := { u.stw with loads := u.stw.loads ++ [(packetKey p, byteAt b 12, img)] } }))) ∧
    (∀ (im : Image), Ready infoEngImageFree p s t → (imageOf t (fld b 0 2)).isSome = true → imageOf u (fld b 0 2) =
      some im → fld (u.par 0xD009 (0xC0 + im.tenant)) 0 2 ≠ fld b 0 2 →
      exec (.engImageFree p) s = .next (settle (answer infoEngImageFree p .ok (im.pages.foldl leavePg { u with
        stw := { u.stw with images := u.stw.images.filter (·.handle != fld b 0 2) } })))) ∧
    (Ready (infoStwPageAlloc ((byteAt b 17).testBit 0)) p s t → 2 ≤ byteAt b 16 → byteAt b 16 ≤ 63 → byteAt b 17 < 4 →
      1 ≤ fld b 18 2 → fld b 18 2 ≤ 4096 → (getTen u (byteAt b 16)).st = .active → heldCount u (byteAt b 16) + fld b
      18 2 ≤ tenN u 0xD005 (byteAt b 16) →
      exec (.stwPageAlloc p) s = .next (settle (answer (infoStwPageAlloc ((byteAt b 17).testBit 0)) p .wait { u with
        stw := { u.stw with
          reqs := u.stw.reqs ++ [{
            owner := packetKey p, tenant := byteAt b 16, n := fld b 18 2, wait := (byteAt b 17).testBit 0, consec :=
              (byteAt b 17).testBit 1, order := u.cmd.acceptNo, at_ := u.elapsed }] } }))) ∧
    (Ready infoStwPageFree p s t → b.length = 4 + 2 * fld b 2 2 → 2 ≤ byteAt b 0 → byteAt b 0 ≤ 63 → byteAt b 1 = 0 →
      (getTen u (byteAt b 0)).st = .active → (∀ g ∈ pagesNamed b, (getPg u g).owner = some (byteAt b 0) ∧ ringPage u
      (byteAt b 0) g = false ∧ (getPg u g).image = false ∧ (∀ n < 16, (getCh u n).run = none ∨ (getCh u
      n).pages.contains g = false)) →
      exec (.stwPageFree p) s = .next (settle (answer infoStwPageFree p .ok ((pagesNamed b).foldl leavePg u)))) ∧
    (Ready infoStwRenew p s t → 2 ≤ byteAt b 0 → byteAt b 0 ≤ 63 → (getTen u (byteAt b 0)).st = .active →
      exec (.stwRenew p) s = .next (settle (answer infoStwRenew p .ok (updTen (byteAt b 0) (fun x => { x with
        renewed := true, renewTick := u.tick }) u)))) ∧
    (∀ (n : Nat), Ready infoStwDmaGrant p s t → 2 ≤ byteAt b 0 → byteAt b 0 ≤ 63 → freeCh t ≠ none → (getTen u (byteAt
      b 0)).st = .active → (heldChs u (byteAt b 0)).length < tenN u 0xD006 (byteAt b 0) → freeCh u = some n →
      exec (.stwDmaGrant p) s = .next (settle (answer infoStwDmaGrant p (.ok n) (updCh n (fun x => { x with
        tenant := some (byteAt b 0) }) u)))) ∧
    (Ready infoStwDmaRelease p s t → byteAt b 0 ≤ 15 → (getCh u (byteAt b 0)).tenant ≠ none → (getCh u (byteAt b
      0)).run = none →
      exec (.stwDmaRelease p) s = .next (settle (answer infoStwDmaRelease p .ok (updCh (byteAt b 0) (fun x => { x with
        tenant := none }) u)))) ∧
    (Ready infoTenantRevoke p s t → 2 ≤ byteAt b 0 → byteAt b 0 ≤ 63 → (getTen u (byteAt b 0)).st ≠ .off →
      exec (.tenantRevoke p) s = .next (settle (answer infoTenantRevoke p .wait { u with
        stw := { u.stw with revokes := u.stw.revokes ++ [(some (packetKey p), byteAt b 0, false)] } }))) ∧
    (Ready infoStwQuarantine p s t → 2 ≤ byteAt b 0 → byteAt b 0 ≤ 63 → (getTen u (byteAt b 0)).st ≠ .off →
      exec (.stwQuarantine p) s = .next (settle (answer infoStwQuarantine p .wait { u with
        stw := { u.stw with revokes := u.stw.revokes ++ [(some (packetKey p), byteAt b 0, true)] } }))) ∧
    (Ready infoStwRelease p s t → 2 ≤ byteAt b 0 → byteAt b 0 ≤ 63 → (getTen u (byteAt b 0)).st = .quarantined →
      exec (.stwRelease p) s = .next (settle (answer infoStwRelease p .ok (raise 0xD4 (updTen (byteAt b 0) (fun x => {
          x with st := .active }) u))))) ∧
    (Ready infoEngTest p s t → engUsable u (byteAt b 0) = true →
      exec (.engTest p) s = .next (settle (answer infoEngTest p .wait { u with
        stw := { u.stw with
          tests := u.stw.tests ++ [(packetKey p, byteAt b 0)], tested := setBit u.stw.tested (byteAt b 0) false } }))) ∧
    (∀ (img : Bytes), Ready infoEngImageLoad p s t → 76 ≤ fld b 8 4 → fld b 8 4 ≤ 65696 → 2 ≤ byteAt b 12 → byteAt b
      12 ≤ 63 → rsv b 13 16 = true → (getTen u (byteAt b 12)).st = .off →
      exec (.engImageLoad p img) s = .next (settle (answer infoEngImageLoad p (.st stWrongState) u))) ∧
    (∀ (img : Bytes), Ready infoEngImageLoad p s t → 76 ≤ fld b 8 4 → fld b 8 4 ≤ 65696 → 2 ≤ byteAt b 12 → byteAt b
      12 ≤ 63 → rsv b 13 16 = true → (getTen u (byteAt b 12)).st = .quarantined →
      exec (.engImageLoad p img) s = .next (settle (answer infoEngImageLoad p (.st 0x1D04) u))) ∧
    (Ready (infoStwPageAlloc ((byteAt b 17).testBit 0)) p s t → 2 ≤ byteAt b 16 → byteAt b 16 ≤ 63 → byteAt b 17 < 4 →
      1 ≤ fld b 18 2 → fld b 18 2 ≤ 4096 → (getTen u (byteAt b 16)).st = .off →
      exec (.stwPageAlloc p) s = .next (settle (answer (infoStwPageAlloc ((byteAt b 17).testBit 0)) p (.st
      stWrongState) u))) ∧
    (Ready (infoStwPageAlloc ((byteAt b 17).testBit 0)) p s t → 2 ≤ byteAt b 16 → byteAt b 16 ≤ 63 → byteAt b 17 < 4 →
      1 ≤ fld b 18 2 → fld b 18 2 ≤ 4096 → (getTen u (byteAt b 16)).st = .quarantined →
      exec (.stwPageAlloc p) s = .next (settle (answer (infoStwPageAlloc ((byteAt b 17).testBit 0)) p (.st 0x1D04)
      u))) ∧
    (Ready infoStwPageFree p s t → b.length = 4 + 2 * fld b 2 2 → 2 ≤ byteAt b 0 → byteAt b 0 ≤ 63 → byteAt b 1 = 0 →
      (getTen u (byteAt b 0)).st = .off →
      exec (.stwPageFree p) s = .next (settle (answer infoStwPageFree p (.st stWrongState) u))) ∧
    (Ready infoStwPageFree p s t → b.length = 4 + 2 * fld b 2 2 → 2 ≤ byteAt b 0 → byteAt b 0 ≤ 63 → byteAt b 1 = 0 →
      (getTen u (byteAt b 0)).st = .quarantined →
      exec (.stwPageFree p) s = .next (settle (answer infoStwPageFree p (.st 0x1D04) u))) ∧
    (Ready infoStwRenew p s t → 2 ≤ byteAt b 0 → byteAt b 0 ≤ 63 → (getTen u (byteAt b 0)).st = .off →
      exec (.stwRenew p) s = .next (settle (answer infoStwRenew p (.st stWrongState) u))) ∧
    (Ready infoStwRenew p s t → 2 ≤ byteAt b 0 → byteAt b 0 ≤ 63 → (getTen u (byteAt b 0)).st = .quarantined →
      exec (.stwRenew p) s = .next (settle (answer infoStwRenew p (.st 0x1D04) u))) ∧
    (Ready infoStwDmaGrant p s t → 2 ≤ byteAt b 0 → byteAt b 0 ≤ 63 → freeCh t ≠ none → (getTen u (byteAt b 0)).st =
      .off →
      exec (.stwDmaGrant p) s = .next (settle (answer infoStwDmaGrant p (.st stWrongState) u))) ∧
    (Ready infoStwDmaGrant p s t → 2 ≤ byteAt b 0 → byteAt b 0 ≤ 63 → freeCh t ≠ none → (getTen u (byteAt b 0)).st =
      .quarantined →
      exec (.stwDmaGrant p) s = .next (settle (answer infoStwDmaGrant p (.st 0x1D04) u))) ∧
    (Ready infoTenantRevoke p s t → 2 ≤ byteAt b 0 → byteAt b 0 ≤ 63 → (getTen u (byteAt b 0)).st = .off →
      exec (.tenantRevoke p) s = .next (settle (answer infoTenantRevoke p (.st stWrongState) u))) ∧
    (Ready infoStwQuarantine p s t → 2 ≤ byteAt b 0 → byteAt b 0 ≤ 63 → (getTen u (byteAt b 0)).st = .off →
      exec (.stwQuarantine p) s = .next (settle (answer infoStwQuarantine p (.st stWrongState) u))) ∧
    (Ready infoStwRelease p s t → 2 ≤ byteAt b 0 → byteAt b 0 ≤ 63 → (getTen u (byteAt b 0)).st ≠ .quarantined →
      exec (.stwRelease p) s = .next (settle (answer infoStwRelease p (.st stWrongState) u))) ∧
    (∀ (img : Bytes), Ready infoEngImageLoad p s t → 76 ≤ fld b 8 4 → fld b 8 4 ≤ 65696 → 2 ≤ byteAt b 12 → byteAt b
      12 ≤ 63 → rsv b 13 16 = true → (getTen u (byteAt b 12)).st = .active → img.length ≠ fld b 8 4 →
      exec (.engImageLoad p img) s = .next (settle (answer infoEngImageLoad p (.st stTimeout) u))) ∧
    (∀ (img : Bytes), Ready infoEngImageLoad p s t → 76 ≤ fld b 8 4 → fld b 8 4 ≤ 65696 → 2 ≤ byteAt b 12 → byteAt b
      12 ≤ 63 → rsv b 13 16 = true → (getTen u (byteAt b 12)).st = .active → img.length = fld b 8 4 → imgStatus u img
      ≠ 0 →
      exec (.engImageLoad p img) s = .next (settle (answer infoEngImageLoad p (.st (imgStatus u img)) u))) ∧
    (∀ (im : Image), Ready infoEngImageFree p s t → (imageOf t (fld b 0 2)).isSome = true → imageOf u (fld b 0 2) =
      some im → fld (u.par 0xD009 (0xC0 + im.tenant)) 0 2 = fld b 0 2 →
      exec (.engImageFree p) s = .next (settle (answer infoEngImageFree p (.st stBusy) u))) ∧
    (Ready (infoStwPageAlloc ((byteAt b 17).testBit 0)) p s t → 2 ≤ byteAt b 16 → byteAt b 16 ≤ 63 → byteAt b 17 < 4 →
      1 ≤ fld b 18 2 → fld b 18 2 ≤ 4096 → (getTen u (byteAt b 16)).st = .active → tenN u 0xD005 (byteAt b 16) <
      heldCount u (byteAt b 16) + fld b 18 2 →
      exec (.stwPageAlloc p) s = .next (settle (answer (infoStwPageAlloc ((byteAt b 17).testBit 0)) p (.st 0x1D02)
      u))) ∧
    (Ready infoStwPageFree p s t → b.length = 4 + 2 * fld b 2 2 → 2 ≤ byteAt b 0 → byteAt b 0 ≤ 63 → byteAt b 1 = 0 →
      (getTen u (byteAt b 0)).st = .active → (pagesNamed b).any (fun g => (getPg u g).owner != some (byteAt b 0)) =
      true →
      exec (.stwPageFree p) s = .next (settle (answer infoStwPageFree p (.st 0x1D05) u))) ∧
    (Ready infoStwPageFree p s t → b.length = 4 + 2 * fld b 2 2 → 2 ≤ byteAt b 0 → byteAt b 0 ≤ 63 → byteAt b 1 = 0 →
      (getTen u (byteAt b 0)).st = .active → (pagesNamed b).any (fun g => (getPg u g).owner != some (byteAt b 0)) =
      false → (pagesNamed b).any (fun g => ringPage u (byteAt b 0) g || (getPg u g).image || (List.range 16).any (fun
      k => (getCh u k).run.isSome && (getCh u k).pages.contains g)) = true →
      exec (.stwPageFree p) s = .next (settle (answer infoStwPageFree p (.st stBusy) u))) ∧
    (Ready infoStwDmaGrant p s t → 2 ≤ byteAt b 0 → byteAt b 0 ≤ 63 → freeCh t ≠ none → (getTen u (byteAt b 0)).st =
      .active → tenN u 0xD006 (byteAt b 0) ≤ (heldChs u (byteAt b 0)).length →
      exec (.stwDmaGrant p) s = .next (settle (answer infoStwDmaGrant p (.st 0x1D02) u))) ∧
    (Ready infoStwDmaGrant p s t → 2 ≤ byteAt b 0 → byteAt b 0 ≤ 63 → freeCh t = none →
      exec (.stwDmaGrant p) s = .next (settle (refuse infoStwDmaGrant.op p { step := 12, st := stNoResource } t))) ∧
    (Ready infoStwDmaRelease p s t → byteAt b 0 ≤ 15 → (getCh u (byteAt b 0)).tenant = none →
      exec (.stwDmaRelease p) s = .next (settle (answer infoStwDmaRelease p (.st 0x1D05) u))) ∧
    (Ready infoStwDmaRelease p s t → byteAt b 0 ≤ 15 → (getCh u (byteAt b 0)).tenant ≠ none → (getCh u (byteAt b
      0)).run ≠ none →
      exec (.stwDmaRelease p) s = .next (settle (answer infoStwDmaRelease p (.st stBusy) u))) ∧
    (Ready infoEngTest p s t → engUsable u (byteAt b 0) = false →
      exec (.engTest p) s = .next (settle (answer infoEngTest p (.st stWrongState) u)))

/-- Scrubs, fallowing, flushes, injection, DMA chains and CRC units: effect and completion. STORE_SCRUB,
STORE_FALLOW, STORE_FLUSH, STORE_INJECT, DMA_START, DMA_ABORT, CRC_UNIT. Each completes for every packet that passes
the common checks and the conditions written in its clause: exec answers the state with exactly this effect and this
completion. Clauses with another status than OK say when a command answers it and what changes then. -/
def Obligations.StoreCommandsRun : Prop :=
  ∀ (p : Packet) (s t u : State) (b : Bytes), u = accept p t → b = paramBytes p →
    (Ready infoStoreScrub p s t → fld b 16 2 ≤ 32767 → 1 ≤ fld b 18 2 → fld b 16 2 + fld b 18 2 ≤ 32768 →
      exec (.storeScrub p) s = .next (settle (answer infoStoreScrub p .wait { u with
        str := { u.str with
          scrubs := u.str.scrubs ++ [{
            owner := some (packetKey p), first := fld b 16 2, count := fld b 18 2, began := u.tick }] } }))) ∧
    (Ready infoStoreFallow p s t → fld b 0 2 = 1 → b.length = 4 → fld b 2 2 ≤ 32767 → getPg u (fld b 2 2) = {} →
      fallowCount u < 1024 →
      exec (.storeFallow p) s = .next (settle (answer infoStoreFallow p .wait ((startFallow (some (packetKey p)) [fld
      b 2 2] u).2)))) ∧
    (Ready infoStoreFlush p s t →
      exec (.storeFlush p) s = .next (settle (answer infoStoreFlush p .ok (flushAll 2 u)))) ∧
    (Ready infoStoreInject p s t → fld b 0 2 ≤ 32767 → 1 ≤ byteAt b 2 → byteAt b 2 ≤ 64 → byteAt b 3 = 0 → (getPg u
      (fld b 0 2) = {} ∨ (getPg u (fld b 0 2)).owner ≠ none) →
      exec (.storeInject p) s = .next (settle (answer infoStoreInject p .ok { u with
        str := { u.str with
          inject := SMap.put 0 u.str.inject (fld b 0 2) (SMap.get 0 u.str.inject (fld b 0 2) + byteAt b 2) } }))) ∧
    (Ready infoDmaStart p s t → byteAt b 0 ≤ 15 → rsv b 1 8 = true → fld b 8 8 % 32 = 0 → (getCh u (byteAt b
      0)).tenant ≠ none → (getCh u (byteAt b 0)).run = none →
      exec (.dmaStart p) s = .next (settle (answer infoDmaStart p .wait (updCh (byteAt b 0) (fun x => { x with
        run := some (packetKey p), next := fld b 8 8, index := 0, moved := 0, cur := none, abort := none }) u)))) ∧
    (Ready infoDmaAbort p s t → byteAt b 0 ≤ 15 → (getCh u (byteAt b 0)).run ≠ none →
      exec (.dmaAbort p) s = .next (settle (answer infoDmaAbort p .ok (dmaAbort (byteAt b 0) stAborted u)))) ∧
    (Ready infoCrcUnit p s t → byteAt b 0 ≤ 7 → byteAt b 1 = 0 → rsv b 4 8 = true →
      exec (.crcUnit p) s = .next (settle (answer infoCrcUnit p (.ok (getCrc u (byteAt b 0)).run) u))) ∧
    (Ready infoCrcUnit p s t → byteAt b 0 ≤ 7 → byteAt b 1 = 1 → byteAt b 2 ≤ 3 → byteAt b 3 ≤ 2 → rsv b 4 8 = true →
      (getCrc u (byteAt b 0)).claim = none →
      exec (.crcUnit p) s = .next (settle (answer infoCrcUnit p .ok (updCrc (byteAt b 0) (fun y => { y with
        alg := byteAt b 2, fold := byteAt b 3, run := fld b 8 8 % 2 ^ crcWidth (byteAt b 2), seq := fld b 16 8 })
      u)))) ∧
    (Ready infoCrcUnit p s t → byteAt b 0 ≤ 7 → byteAt b 1 = 2 → rsv b 4 8 = true → (getCrc u (byteAt b 0)).claim =
      none →
      exec (.crcUnit p) s = .next (settle (answer infoCrcUnit p .ok (updCrc (byteAt b 0) (fun y => { y with
        run := crcInit y.alg, seq := 0 }) u)))) ∧
    (Ready infoCrcUnit p s t → byteAt b 0 ≤ 7 → byteAt b 1 = 3 → rsv b 4 8 = true →
      exec (.crcUnit p) s = .next (settle (answer infoCrcUnit p (.ok (getCrc u (byteAt b 0)).seq) u))) ∧
    (Ready infoCrcUnit p s t → byteAt b 0 ≤ 7 → byteAt b 1 = 4 → rsv b 4 8 = true →
      exec (.crcUnit p) s = .next (settle (answer infoCrcUnit p (.ok (unle [byteOf (getCrc u (byteAt b 0)).alg, byteOf
      (getCrc u (byteAt b 0)).fold, byteOf (b2n (getCrc u (byteAt b 0)).claim.isSome), byteOf ((getCrc u (byteAt b
      0)).claim.getD 255)])) u))) ∧
    (Ready infoStoreFallow p s t → fld b 0 2 = 1 → b.length = 4 → fld b 2 2 ≤ 32767 → ((getPg u (fld b 2 2)).owner ≠
      none ∨ (getPg u (fld b 2 2)).zero ≠ none) → (getPg u (fld b 2 2)).quar = none → SMap.wf {} u.stw.pages = true →
      exec (.storeFallow p) s = .next (settle (answer infoStoreFallow p .ok (setPg (fld b 2 2) {
        getPg u (fld b 2 2) with marked := true } u)))) ∧
    (Ready infoStoreInject p s t → fld b 0 2 ≤ 32767 → 1 ≤ byteAt b 2 → byteAt b 2 ≤ 64 → byteAt b 3 = 0 → getPg u
      (fld b 0 2) ≠ {} → (getPg u (fld b 0 2)).owner = none →
      exec (.storeInject p) s = .next (settle (answer infoStoreInject p (.st stWrongState) u))) ∧
    (Ready infoDmaStart p s t → byteAt b 0 ≤ 15 → rsv b 1 8 = true → fld b 8 8 % 32 = 0 → (getCh u (byteAt b
      0)).tenant = none →
      exec (.dmaStart p) s = .next (settle (answer infoDmaStart p (.st stWrongState) u))) ∧
    (Ready infoDmaStart p s t → byteAt b 0 ≤ 15 → rsv b 1 8 = true → fld b 8 8 % 32 = 0 → (getCh u (byteAt b
      0)).tenant ≠ none → (getCh u (byteAt b 0)).run ≠ none →
      exec (.dmaStart p) s = .next (settle (answer infoDmaStart p (.st stBusy) u))) ∧
    (Ready infoDmaAbort p s t → byteAt b 0 ≤ 15 → (getCh u (byteAt b 0)).run = none →
      exec (.dmaAbort p) s = .next (settle (answer infoDmaAbort p (.st stWrongState) u))) ∧
    (Ready infoCrcUnit p s t → byteAt b 0 ≤ 7 → byteAt b 1 = 1 → byteAt b 2 ≤ 3 → byteAt b 3 ≤ 2 → rsv b 4 8 = true →
      (getCrc u (byteAt b 0)).claim ≠ none →
      exec (.crcUnit p) s = .next (settle (answer infoCrcUnit p (.st 0x1E05) u))) ∧
    (Ready infoCrcUnit p s t → byteAt b 0 ≤ 7 → byteAt b 1 = 2 → rsv b 4 8 = true → (getCrc u (byteAt b 0)).claim ≠
      none →
      exec (.crcUnit p) s = .next (settle (answer infoCrcUnit p (.st 0x1E05) u)))

/-- Read time-outs, completion writes, coalescing, deadlines, watchdog and flash ends. PCIE_READ_TIMEOUT,
PCIE_LATE_CPL, CQ_COMPLETION_WRITE, COAL_TIME_EXPIRY, COMMAND_DEADLINE, LATE_RESULT, WATCHDOG_EXPIRY,
FW_RESTART_DONE, FLASH_OP_DONE. For every state in which the clause's condition holds, exec answers exactly the state
the clause writes out, with the window of the tick opened first where the row acts inside the tick. Several outcomes
of one form stand in clauses of their own. -/
def Obligations.ProtocolEventsAct : Prop :=
  ∀ s t : State,
    (∀ (q : Fin 8), Running s t → fetching t = true → nextVisit t = some q.val → (getQ t q.val).retry = .none_ →
      exec (.pcieReadTimeout q none false) s = .next (settle (bump 24 (updQ q.val (fun u => { u with
        retry := .again }) t)))) ∧
    (∀ (q : Fin 8), Running s t → fetching t = true → nextVisit t = some q.val → (getQ t q.val).retry = .again →
      exec (.pcieReadTimeout q none true) s = .next (settle (headerFailed q.val t))) ∧
    (∀ (q : Fin 8) (op : BitVec 16) (p : Packet), Running s t → fetching t = true → nextVisit t = some q.val → (getQ t
      q.val).retry = .again → p.q.val = q.val → p.paramInline = false → checkLen op.toNat p = none →
      exec (.pcieReadTimeout q (some (op, p)) true) s = .next (settle (refuse op.toNat p {
        step := 3, st := stTimeout } (takeSq q.val t)))) ∧
    (∀ (q : Fin 8), Running s t → (getQ t q.val).retry = .again →
      exec (.pcieLateCpl q) s = .next (settle (raise 0x04 (sysErr 6 (bump 25 (updQ q.val (fun u => { u with
        retry := .late }) t)))))) ∧
    (∀ (q : Fin 8), Running s t → (getQ t q.val).retry = .last →
      exec (.pcieLateCpl q) s = .next (settle (raise 0x04 (sysErr 6 (bump 25 (updQ q.val (fun u => { u with
        retry := .none_ }) t)))))) ∧
    (∀ (q : Fin 8) (h : Held), Running s t → t.cmd.held.find? (·.q == q.val) = some h → t.sys.fwRunning = true →
      cqFull t q.val = false →
      exec (.cqCompletionWrite q) s = .next (settle (cqWrite q.val h.cpl (rearmHigh { t with
        cmd := { t.cmd with held := t.cmd.held.erase h } })))) ∧
    (∀ (q : Fin 8), Running s t → coalDue t q.val = true →
      exec (.coalTimeExpiry q) s = .next (settle (signal (getQ t q.val).vector (updQ q.val (fun u => { u with
        unsignalled := 0, coalStart := none }) t)))) ∧
    (∀ (q : Fin 9) (tag : BitVec 12) (seq : BitVec 16) (k : CmdKey) (o : OpenCmd) (x : State), Running s t → k = keyOf
      q tag seq → openCmd t k = some o → o.deadline ≤ t.elapsed → chainOf t k = none → x = finish k (.st stTimeout)
      (keCut stTimeout k t) →
      exec (.commandDeadline q tag seq) s = .next (settle { x with
        cmd := { x.cmd with expired := x.cmd.expired ++ [k] } })) ∧
    (∀ (q : Fin 9) (tag : BitVec 12) (seq : BitVec 16) (o : OpenCmd) (n : Nat), Running s t → openCmd t (keyOf q tag
      seq) = some o → o.deadline ≤ t.elapsed → chainOf t (keyOf q tag seq) = some n →
      exec (.commandDeadline q tag seq) s = .next (settle (dmaAbort n stTimeout t))) ∧
    (∀ (q : Fin 9) (tag : BitVec 12) (seq : BitVec 16) (k : CmdKey), Running s t → k = keyOf q tag seq →
      t.cmd.expired.contains k = true →
      exec (.lateResult q tag seq) s = .next (settle (raise 0x0A (bump 23 { t with
        cmd := { t.cmd with expired := t.cmd.expired.erase k } })))) ∧
    (∀ (core : Fin 4), Running s t → t.sys.fwRunning = true →
      exec (.watchdogExpiry core) s = .next (settle (restartFirmware none (raise 0x01 t)))) ∧
    (Running s t → t.sys.fwRestarting = true → t.sys.fwActivate = none →
      exec .fwRestartDone s = .next (settle (raise 0x02 (writeAllHeld { t with
        sys := { t.sys with fwRunning := true, fwRestarting := false, fwActivate := none } })))) ∧
    (∀ (k : CmdKey) (x : State), Running s t → t.sys.fwRestarting = true → t.sys.fwActivate = some k → x =
      firmwareSwitched t →
      exec .fwRestartDone s = .next (settle (raise 0x02 (finish k .ok (writeAllHeld { x with
        sys := { x.sys with fwRunning := true, fwRestarting := false, fwActivate := none } }))))) ∧
    (∀ (o : FlashOp) (rest : List FlashOp), Running s t → t.flash.ops = o :: rest → o.kind = .fwChunk → o.aux ≠ 1 →
      exec (.flashOpDone true) s = .next (settle (finishOpt o.owner .ok (flashEnded 0 (flashProgram o.addr o.data (if
      o.addr = slotAddr (chunkSlot o) then flashErase o.addr 0x400000 t else t)))))) ∧
    (∀ (o : FlashOp) (rest : List FlashOp), Running s t → t.flash.ops = o :: rest → o.kind = .bootRecord →
      exec (.flashOpDone false) s = .next (settle (finishOpt o.owner (.st stFlashFail) (flashEnded stFlashFail t)))) ∧
    (∀ (q : Fin 8) (op : BitVec 16) (p : Packet) (x : Refuse), Running s t → fetching t = true → nextVisit t = some
      q.val → (getQ t q.val).retry = .again → p.q.val = q.val → p.paramInline = false → checkLen op.toNat p = some x →
      exec (.pcieReadTimeout q (some (op, p)) true) s = .next (settle (refuse op.toNat p x (takeSq q.val t)))) ∧
    (∀ (q : Fin 8) (x : BitVec 16 × Packet), Running s t → fetching t = true → nextVisit t = some q.val →
      exec (.pcieReadTimeout q (some x) false) s = .next (settle (bump 24 (updQ q.val (fun u => { u with
        retry := .again }) t)))) ∧
    (∀ (o : FlashOp) (rest : List FlashOp), Running s t → t.flash.ops = o :: rest → o.kind = .fwChunk → o.aux2 =
      t.flash.updateSeq →
      exec (.flashOpDone false) s = .next (settle (finishOpt o.owner (.st stFlashFail) (flashEnded stFlashFail
      (updSlot (chunkSlot o) { st := .invalid } { t with flash := { t.flash with updateBy := none } }))))) ∧
    (∀ (o : FlashOp) (rest : List FlashOp), Running s t → t.flash.ops = o :: rest → o.kind = .fwChunk → o.aux2 ≠
      t.flash.updateSeq →
      exec (.flashOpDone false) s = .next (settle (finishOpt o.owner (.st stFlashFail) (flashEnded stFlashFail t)))) ∧
    (∀ (o : FlashOp) (rest : List FlashOp), Running s t → t.flash.ops = o :: rest → o.kind = .fwChunk → o.aux = 1 →
      exec (.flashOpDone true) s = .next (settle (lastChunk o (flashProgram o.addr o.data (if o.addr = slotAddr
      (chunkSlot o) then flashErase o.addr 0x400000 t else t))))) ∧
    (∀ (o : FlashOp) (rest : List FlashOp) (x : State), Running s t → t.flash.ops = o :: rest → o.kind = .bootRecord →
      recWrite 0 0x1000 o.aux t = some x → o.aux2 ≠ 1 →
      exec (.flashOpDone true) s = .next (settle (finishOpt o.owner .ok (flashEnded 0 x)))) ∧
    (∀ (o : FlashOp) (rest : List FlashOp) (x : State), Running s t → t.flash.ops = o :: rest → o.kind = .bootRecord →
      recWrite 0 0x1000 o.aux t = some x → (o.owner.bind (openCmd (flashEnded 0 x))).isSome = false →
      exec (.flashOpDone true) s = .next (settle (finishOpt o.owner .ok (flashEnded 0 x)))) ∧
    (∀ (o : FlashOp) (rest : List FlashOp) (x : State), Running s t → t.flash.ops = o :: rest → o.kind = .bootRecord →
      recWrite 0 0x1000 o.aux t = some x → o.aux2 = 1 → (o.owner.bind (openCmd (flashEnded 0 x))).isSome = true →
      exec (.flashOpDone true) s = .next (settle (restartFirmware o.owner (flashEnded 0 x))))

/-- Every access to registers, doorbells, counter windows, event registers and the SPI port. SQ_TAIL, CQ_HEAD, queue
registers, SYS_LOCK, BOOT_LOAD, GPIO_OUT, HARV_HEAD, CNT_LO and TICK_NOW_LO reads, EVT_MASK, EVT_VEC, other register
writes of each width, SPI reads, writes and status, the mailbox doorbell. For every state in which the clause's
condition holds, exec answers exactly the state the clause writes out, with the window of the tick opened first where
the row acts inside the tick. Several outcomes of one form stand in clauses of their own. -/
def Obligations.RegisterAccessesAct : Prop :=
  ∀ s t : State,
    (∀ (q : Fin 8) (v : BitVec 32), Awake s t → t.sys.perst = false → t.sys.ready = true → (getQ t q.val).enabled =
      true → v.toNat % 65536 < 2 ^ (getQ t q.val).sqLog2 →
      exec (.sqTail q v) s = .next (settle (updQ q.val (fun u => { u with sqTail := v.toNat % 65536 }) (beginWake 1 0
      t)))) ∧
    (∀ (q : Fin 8) (v : BitVec 32), Awake s t → t.sys.perst = false → t.sys.ready = true → ((getQ t q.val).enabled =
      false ∨ 2 ^ (getQ t q.val).sqLog2 ≤ v.toNat % 65536) →
      exec (.sqTail q v) s = .next (settle (raise 0x05 (sysErr 1 (beginWake 1 0 t))))) ∧
    (∀ (q : Fin 8) (v : BitVec 32) (n : Nat), Awake s t → t.sys.perst = false → t.sys.ready = true → (getQ t
      q.val).enabled = true → n = 2 ^ (getQ t q.val).cqLog2 → v.toNat % 65536 < n → (v.toNat % 65536 + n - (getQ t
      q.val).cqHead) % n ≤ ((getQ t q.val).cqTail + n - (getQ t q.val).cqHead) % n →
      exec (.cqHead q v) s = .next (settle (updQ q.val (fun u => { u with cqHead := v.toNat % 65536 }) (beginWake 1 0
      t)))) ∧
    (∀ (q : Fin 8) (x : State), Awake s t → t.sys.perst = false → t.pwr.state ≠ 1 → t.sys.ready = true → (getQ t
      q.val).enabled = false → 4 ≤ (getQ t q.val).sqLog2 → (getQ t q.val).sqLog2 ≤ 12 → 4 ≤ (getQ t q.val).cqLog2 →
      (getQ t q.val).cqLog2 ≤ 12 → (getQ t q.val).sqBase % 4096 = 0 → (getQ t q.val).cqBase % 4096 = 0 → x = updQ
      q.val (fun u => { u with
        enabled := true, sqLatch := none, cqLatch := none, sqTail := 0, sqHead := 0, cqHead := 0, cqTail := 0, phase
          := true, unsignalled := 0, coalStart := none, retry := .none_ }) t →
      exec (.queueEnable q) s = .next (settle { x with
        cmd := { x.cmd with newest := x.cmd.newest.set q.val none } })) ∧
    (∀ (q : Fin 8), Awake s t → t.sys.perst = false → t.pwr.state ≠ 1 → t.sys.ready = true →
      exec (.queueDisable q) s = .next (settle (disableQueue q.val t))) ∧
    (∀ (q : Fin 8) (v : BitVec 32), Awake s t → t.sys.perst = false → t.pwr.state ≠ 1 → t.sys.ready = true → (getQ t
      q.val).enabled = false → (getQ t q.val).unsignalled = 0 →
      exec (.qCfg q v) s = .next (settle (updQ q.val (fun u => { u with
        sqLog2 := if u.enabled then u.sqLog2 else v.toNat % 16, cqLog2 := if u.enabled then u.cqLog2 else bits v.toNat
          7 4, vector := bits v.toNat 13 8, coalCount := bits v.toNat 23 16, coalTime := bits v.toNat 31 24 }) t))) ∧
    (∀ (q : Fin 8) (v : BitVec 32), Awake s t → t.sys.perst = false → t.pwr.state ≠ 1 → t.sys.ready = true → (getQ t
      q.val).enabled = false →
      exec (.stagingFieldWrite q false v) s = .next (settle (updQ q.val (fun u => { u with sqLatch := some v.toNat })
      t))) ∧
    (∀ (q : Fin 8) (v : BitVec 32), Awake s t → t.sys.perst = false → t.pwr.state ≠ 1 → t.sys.ready = true → (getQ t
      q.val).enabled = false →
      exec (.stagingFieldWrite q true v) s = .next (settle (updQ q.val (fun u => { u with cqLatch := some v.toNat })
      t))) ∧
    (∀ (q : Fin 8) (v : BitVec 32), Awake s t → t.sys.perst = false → t.pwr.state ≠ 1 → t.sys.ready = true → (getQ t
      q.val).enabled = false →
      exec (.triggerFieldWrite q false v) s = .next (settle (updQ q.val (fun u => { u with
        sqBase := v.toNat * 2 ^ 32 + u.sqLatch.getD (u.sqBase % 2 ^ 32), sqLatch := none }) t))) ∧
    (∀ (q : Fin 8) (v : BitVec 32), Awake s t → t.sys.perst = false → t.pwr.state ≠ 1 → t.sys.ready = true → (getQ t
      q.val).enabled = false →
      exec (.triggerFieldWrite q true v) s = .next (settle (updQ q.val (fun u => { u with
        cqBase := v.toNat * 2 ^ 32 + u.cqLatch.getD (u.cqBase % 2 ^ 32), cqLatch := none }) t))) ∧
    (∀ (v : BitVec 32), Awake s t → t.sys.perst = false → t.pwr.state ≠ 1 → t.sys.locked = false → v.toNat % 2 = 1 →
      exec (.sysLock v) s = .next (settle { t with sys := { t.sys with locked := true } })) ∧
    (∀ (v : BitVec 32), Awake s t → t.sys.perst = false → t.pwr.state ≠ 1 → t.sys.locked = true →
      exec (.sysLock v) s = .next (settle (raise 0x06 (sysErr 0 t)))) ∧
    (∀ (v : BitVec 32), Awake s t → t.sys.perst = false → t.pwr.state ≠ 1 → t.boot.stage = 7 → v.toNat ≠ 0 →
      exec (.bootLoad v) s = .next (settle { t with boot := { t.boot with loadLen := v.toNat, stage := 4 } })) ∧
    (∀ (v : BitVec 32), Awake s t → t.sys.perst = false → t.pwr.state ≠ 1 →
      exec (.gpioOut v) s = .next (settle { t with
        sys := { t.sys with
          gpioWait := (t.sys.gpioWait.filter fun w => w.1 != t.elapsed + 8) ++ [(t.elapsed + 8, BitVec.ofNat 16
            v.toNat)] } })) ∧
    (∀ (v : BitVec 32), Awake s t → t.sys.perst = false → t.pwr.state ≠ 1 → (ringSlots t = 0 ∨ v.toNat % 1024 <
      ringSlots t) →
      exec (.harvHead v) s = .next (settle { t with sys := { t.sys with harvHead := v.toNat % 1024 } })) ∧
    (∀ (n : Fin 2048), Awake s t → t.sys.perst = false → t.pwr.state ≠ 1 →
      exec (.cntLoRead .pcie n) s = .next (settle { t with
        sys := { t.sys with
          cntLatch := { hi := t.count n.val / 2 ^ 32, sat := SMap.get false t.obs.sat n.val }, readOut := le 4
            (t.count n.val % 2 ^ 32) } })) ∧
    (∀ (n : Fin 2048) (x : State), Awake s t → t.pwr.state ≠ 1 → x = beginWake 2 0 t →
      exec (.cntLoRead .spi n) s = .next (settle { x with
        sys := { x.sys with
          cntLatchSpi := { hi := x.count n.val / 2 ^ 32, sat := SMap.get false x.obs.sat n.val }, readOut := le 4
            (x.count n.val % 2 ^ 32) } })) ∧
    (Awake s t → t.sys.perst = false → t.pwr.state ≠ 1 →
      exec (.tickNowLoRead .pcie) s = .next (settle { t with
        sys := { t.sys with tickLatch := t.tick / 2 ^ 32, readOut := le 4 (t.tick % 2 ^ 32) } })) ∧
    (∀ (x : State), Awake s t → t.pwr.state ≠ 1 → x = beginWake 2 0 t →
      exec (.tickNowLoRead .spi) s = .next (settle { x with
        sys := { x.sys with tickLatchSpi := x.tick / 2 ^ 32, readOut := le 4 (x.tick % 2 ^ 32) } })) ∧
    (∀ (k : Fin 8) (v : BitVec 32), Awake s t → t.sys.perst = false → t.pwr.state ≠ 1 →
      exec (.evtMask k v) s = .next (settle (signalGains t { t with
        ev := { t.ev with mask := put32 t.ev.mask k.val v.toNat } }))) ∧
    (∀ (k : Fin 64) (v : BitVec 32), Awake s t → t.sys.perst = false → t.pwr.state ≠ 1 →
      exec (.evtVec k v) s = .next (settle (writeEvtVec k.val v.toNat t))) ∧
    (∀ (addr : BitVec 26) (v : BusWrite), Awake s t → t.sys.perst = false → t.pwr.state ≠ 1 → stagingClosed addr.toNat
      t = false → addr.toNat % 4 = 0 →
      exec (.registerWrite addr .b32 v) s = .next (settle (updateWins addr.toNat (v.met.toNat % 2 ^ 32) t (write32
      addr.toNat (v.value.toNat % 2 ^ 32) t)))) ∧
    (∀ (addr : BitVec 26) (v : BusWrite), Awake s t → t.sys.perst = false → t.pwr.state ≠ 1 → stagingClosed addr.toNat
      t = false → addr.toNat % 8 = 0 →
      exec (.registerWrite addr .b64 v) s = .next (settle (updateWins addr.toNat v.met.toNat t (write32 (addr.toNat +
      4) (v.value.toNat / 2 ^ 32 % 2 ^ 32) (write32 addr.toNat (v.value.toNat % 2 ^ 32) t))))) ∧
    (∀ (addr : BitVec 26) (v : BusWrite), Awake s t → t.sys.perst = false → t.pwr.state ≠ 1 → stagingClosed addr.toNat
      t = false →
      exec (.registerWrite addr .b8 v) s = .next (settle (updateWins addr.toNat (v.met.toNat % 2 ^ 32) t (sysErr 3
      t)))) ∧
    (∀ (addr : BitVec 26) (v : BusWrite), Awake s t → t.sys.perst = false → t.pwr.state ≠ 1 → stagingClosed addr.toNat
      t = false →
      exec (.registerWrite addr .b16 v) s = .next (settle (updateWins addr.toNat (v.met.toNat % 2 ^ 32) t (sysErr 3
      t)))) ∧
    (∀ (addr : BitVec 32) (bytes : Bytes), Awake s t → t.pwr.state ≠ 1 → addr.toNat < 2 ^ 31 →
      exec (.spiWrite addr bytes) s = .next (settle (spiBusWrite (addr.toNat % 2 ^ 26) bytes (beginWake 2 0 t)))) ∧
    (∀ (addr : BitVec 32) (bytes : Bytes), Awake s t → t.pwr.state ≠ 1 → 2 ^ 31 ≤ addr.toNat →
      exec (.spiWrite addr bytes) s = .next (settle (mailboxStore (addr.toNat % 2 ^ 31) bytes (beginWake 2 0 t)))) ∧
    (∀ (addr : BitVec 32) (n : Nat), Awake s t → t.pwr.state ≠ 1 → addr.toNat < 2 ^ 31 →
      exec (.spiRead addr n) s = .next (settle (withRead .spi (addr.toNat % 2 ^ 26) n (beginWake 2 0 t)))) ∧
    (∀ (addr : BitVec 32) (n : Nat), Awake s t → t.pwr.state ≠ 1 → 2 ^ 31 ≤ addr.toNat →
      exec (.spiRead addr n) s = .next (settle (mailboxLoad (addr.toNat % 2 ^ 31) n (beginWake 2 0 t)))) ∧
    (∀ (x : State), Awake s t → t.pwr.state ≠ 1 → x = beginWake 2 0 t →
      exec .spiStatusRead s = .next (settle { x with
        sys := { x.sys with readOut := [byteOf (spiStatus x)] }, cmd := { x.cmd with
          mb := { x.cmd.mb with err := false } } })) ∧
    (∀ (x : State), Awake s t → t.pwr.state ≠ 1 → x = beginWake 2 0 t → x.cmd.mb.busy = false → x.sys.ready = true →
      exec .mailboxDoorbell s = .next (settle { x with
        cmd := { x.cmd with mb := { x.cmd.mb with busy := true, taken := false } } })) ∧
    (∀ (q : Fin 8) (v : BitVec 32), Awake s t → t.sys.perst = false → t.sys.ready = false →
      exec (.sqTail q v) s = .next (settle { t with boot := { t.boot with queueTouched := true } })) ∧
    (∀ (q : Fin 8) (v : BitVec 32), Awake s t → t.sys.perst = false → t.sys.ready = false →
      exec (.cqHead q v) s = .next (settle { t with boot := { t.boot with queueTouched := true } })) ∧
    (∀ (q : Fin 8), Awake s t → t.sys.perst = false → t.pwr.state ≠ 1 → t.sys.ready = false →
      exec (.queueEnable q) s = .next (settle { t with boot := { t.boot with queueTouched := true } })) ∧
    (∀ (q : Fin 8), Awake s t → t.sys.perst = false → t.pwr.state ≠ 1 → t.sys.ready = false →
      exec (.queueDisable q) s = .next (settle { t with boot := { t.boot with queueTouched := true } })) ∧
    (∀ (q : Fin 8) (v : BitVec 32), Awake s t → t.sys.perst = false → t.pwr.state ≠ 1 → t.sys.ready = false →
      exec (.qCfg q v) s = .next (settle { t with boot := { t.boot with queueTouched := true } })) ∧
    (∀ (q : Fin 8) (cq : Bool) (v : BitVec 32), Awake s t → t.sys.perst = false → t.pwr.state ≠ 1 → t.sys.ready =
      false →
      exec (.stagingFieldWrite q cq v) s = .next (settle { t with boot := { t.boot with queueTouched := true } })) ∧
    (∀ (q : Fin 8) (cq : Bool) (v : BitVec 32), Awake s t → t.sys.perst = false → t.pwr.state ≠ 1 → t.sys.ready =
      false →
      exec (.triggerFieldWrite q cq v) s = .next (settle { t with boot := { t.boot with queueTouched := true } })) ∧
    (∀ (q : Fin 8) (v : BitVec 32), Awake s t → t.sys.perst = true →
      exec (.sqTail q v) s = .next (settle t)) ∧
    (∀ (q : Fin 8) (v : BitVec 32), Awake s t → t.sys.perst = true →
      exec (.cqHead q v) s = .next (settle t)) ∧
    (∀ (q : Fin 8), Awake s t → t.sys.perst = true →
      exec (.queueEnable q) s = .next (settle t)) ∧
    (∀ (q : Fin 8), Awake s t → t.sys.perst = true →
      exec (.queueDisable q) s = .next (settle t)) ∧
    (∀ (q : Fin 8) (v : BitVec 32), Awake s t → t.sys.perst = true →
      exec (.qCfg q v) s = .next (settle t)) ∧
    (∀ (q : Fin 8) (cq : Bool) (v : BitVec 32), Awake s t → t.sys.perst = true →
      exec (.stagingFieldWrite q cq v) s = .next (settle t)) ∧
    (∀ (q : Fin 8) (cq : Bool) (v : BitVec 32), Awake s t → t.sys.perst = true →
      exec (.triggerFieldWrite q cq v) s = .next (settle t)) ∧
    (∀ (v : BitVec 32), Awake s t → t.sys.perst = true →
      exec (.sysLock v) s = .next (settle t)) ∧
    (∀ (v : BitVec 32), Awake s t → t.sys.perst = true →
      exec (.bootLoad v) s = .next (settle t)) ∧
    (∀ (v : BitVec 32), Awake s t → t.sys.perst = true →
      exec (.gpioOut v) s = .next (settle t)) ∧
    (∀ (v : BitVec 32), Awake s t → t.sys.perst = true →
      exec (.harvHead v) s = .next (settle t)) ∧
    (∀ (n : Fin 2048), Awake s t → t.sys.perst = true →
      exec (.cntLoRead .pcie n) s = .next (settle t)) ∧
    (Awake s t → t.sys.perst = true →
      exec (.tickNowLoRead .pcie) s = .next (settle t)) ∧
    (∀ (k : Fin 8) (v : BitVec 32), Awake s t → t.sys.perst = true →
      exec (.evtMask k v) s = .next (settle t)) ∧
    (∀ (k : Fin 64) (v : BitVec 32), Awake s t → t.sys.perst = true →
      exec (.evtVec k v) s = .next (settle t)) ∧
    (∀ (addr : BitVec 26) (size : AccSize) (v : BusWrite), Awake s t → t.sys.perst = true →
      exec (.registerWrite addr size v) s = .next (settle t)) ∧
    (∀ (q : Fin 8) (v : BitVec 32) (n : Nat), Awake s t → t.sys.perst = false → t.sys.ready = true → n = 2 ^ (getQ t
      q.val).cqLog2 → ((getQ t q.val).enabled = false ∨ n ≤ v.toNat % 65536 ∨ ((getQ t q.val).cqTail + n - (getQ t
      q.val).cqHead) % n < (v.toNat % 65536 + n - (getQ t q.val).cqHead) % n) →
      exec (.cqHead q v) s = .next (settle (raise 0x05 (sysErr 1 (beginWake 1 0 t))))) ∧
    (∀ (q : Fin 8), Awake s t → t.sys.perst = false → t.pwr.state ≠ 1 → t.sys.ready = true → (getQ t q.val).enabled =
      true →
      exec (.queueEnable q) s = .next (settle t)) ∧
    (∀ (q : Fin 8), Awake s t → t.sys.perst = false → t.pwr.state ≠ 1 → t.sys.ready = true → (getQ t q.val).enabled =
      false → ((getQ t q.val).sqLog2 < 4 ∨ 12 < (getQ t q.val).sqLog2 ∨ (getQ t q.val).cqLog2 < 4 ∨ 12 < (getQ t
      q.val).cqLog2 ∨ (getQ t q.val).sqBase % 4096 ≠ 0 ∨ (getQ t q.val).cqBase % 4096 ≠ 0) →
      exec (.queueEnable q) s = .next (settle (raise 0x05 (sysErr 2 t)))) ∧
    (∀ (q : Fin 8) (v : BitVec 32) (x : State), Awake s t → t.sys.perst = false → t.pwr.state ≠ 1 → t.sys.ready = true
      → (getQ t q.val).enabled = false → ¬ ((getQ t q.val).unsignalled ≠ 0 ∧ max 1 (bits v.toNat 23 16) ≤ (getQ t
      q.val).unsignalled) → x = updQ q.val (fun u => { u with
        sqLog2 := if u.enabled then u.sqLog2 else v.toNat % 16, cqLog2 := if u.enabled then u.cqLog2 else bits v.toNat
          7 4, vector := bits v.toNat 13 8, coalCount := bits v.toNat 23 16, coalTime := bits v.toNat 31 24 }) t →
      exec (.qCfg q v) s = .next (settle x)) ∧
    (∀ (q : Fin 8) (v : BitVec 32) (x : State), Awake s t → t.sys.perst = false → t.pwr.state ≠ 1 → t.sys.ready = true
      → (getQ t q.val).enabled = false → (getQ t q.val).unsignalled ≠ 0 → max 1 (bits v.toNat 23 16) ≤ (getQ t
      q.val).unsignalled → x = updQ q.val (fun u => { u with
        sqLog2 := if u.enabled then u.sqLog2 else v.toNat % 16, cqLog2 := if u.enabled then u.cqLog2 else bits v.toNat
          7 4, vector := bits v.toNat 13 8, coalCount := bits v.toNat 23 16, coalTime := bits v.toNat 31 24 }) t →
      exec (.qCfg q v) s = .next (settle (cqSignal q.val x))) ∧
    (∀ (q : Fin 8) (v : BitVec 32) (x : State), Awake s t → t.sys.perst = false → t.pwr.state ≠ 1 → t.sys.ready = true
      → (getQ t q.val).enabled = true → ¬ ((getQ t q.val).unsignalled ≠ 0 ∧ max 1 (bits v.toNat 23 16) ≤ (getQ t
      q.val).unsignalled) → v.toNat % 256 ≠ (getQ t q.val).sqLog2 + 16 * (getQ t q.val).cqLog2 → x = updQ q.val (fun u
      => { u with
        sqLog2 := if u.enabled then u.sqLog2 else v.toNat % 16, cqLog2 := if u.enabled then u.cqLog2 else bits v.toNat
          7 4, vector := bits v.toNat 13 8, coalCount := bits v.toNat 23 16, coalTime := bits v.toNat 31 24 }) t →
      exec (.qCfg q v) s = .next (settle (raise 0x05 (sysErr 2 x)))) ∧
    (∀ (q : Fin 8) (v : BitVec 32) (x : State), Awake s t → t.sys.perst = false → t.pwr.state ≠ 1 → t.sys.ready = true
      → (getQ t q.val).enabled = true → ¬ ((getQ t q.val).unsignalled ≠ 0 ∧ max 1 (bits v.toNat 23 16) ≤ (getQ t
      q.val).unsignalled) → v.toNat % 256 = (getQ t q.val).sqLog2 + 16 * (getQ t q.val).cqLog2 → x = updQ q.val (fun u
      => { u with
        sqLog2 := if u.enabled then u.sqLog2 else v.toNat % 16, cqLog2 := if u.enabled then u.cqLog2 else bits v.toNat
          7 4, vector := bits v.toNat 13 8, coalCount := bits v.toNat 23 16, coalTime := bits v.toNat 31 24 }) t →
      exec (.qCfg q v) s = .next (settle x)) ∧
    (∀ (q : Fin 8) (v : BitVec 32) (x : State), Awake s t → t.sys.perst = false → t.pwr.state ≠ 1 → t.sys.ready = true
      → (getQ t q.val).enabled = true → (getQ t q.val).unsignalled ≠ 0 → max 1 (bits v.toNat 23 16) ≤ (getQ t
      q.val).unsignalled → v.toNat % 256 ≠ (getQ t q.val).sqLog2 + 16 * (getQ t q.val).cqLog2 → x = updQ q.val (fun u
      => { u with
        sqLog2 := if u.enabled then u.sqLog2 else v.toNat % 16, cqLog2 := if u.enabled then u.cqLog2 else bits v.toNat
          7 4, vector := bits v.toNat 13 8, coalCount := bits v.toNat 23 16, coalTime := bits v.toNat 31 24 }) t →
      exec (.qCfg q v) s = .next (settle (raise 0x05 (sysErr 2 (cqSignal q.val x))))) ∧
    (∀ (q : Fin 8) (v : BitVec 32) (x : State), Awake s t → t.sys.perst = false → t.pwr.state ≠ 1 → t.sys.ready = true
      → (getQ t q.val).enabled = true → (getQ t q.val).unsignalled ≠ 0 → max 1 (bits v.toNat 23 16) ≤ (getQ t
      q.val).unsignalled → v.toNat % 256 = (getQ t q.val).sqLog2 + 16 * (getQ t q.val).cqLog2 → x = updQ q.val (fun u
      => { u with
        sqLog2 := if u.enabled then u.sqLog2 else v.toNat % 16, cqLog2 := if u.enabled then u.cqLog2 else bits v.toNat
          7 4, vector := bits v.toNat 13 8, coalCount := bits v.toNat 23 16, coalTime := bits v.toNat 31 24 }) t →
      exec (.qCfg q v) s = .next (settle (cqSignal q.val x))) ∧
    (∀ (q : Fin 8) (cq : Bool) (v : BitVec 32), Awake s t → t.sys.perst = false → t.pwr.state ≠ 1 → t.sys.ready = true
      → (getQ t q.val).enabled = true →
      exec (.stagingFieldWrite q cq v) s = .next (settle (raise 0x05 (sysErr 2 t)))) ∧
    (∀ (q : Fin 8) (v : BitVec 32), Awake s t → t.sys.perst = false → t.pwr.state ≠ 1 → t.sys.ready = true → (getQ t
      q.val).enabled = true →
      exec (.triggerFieldWrite q false v) s = .next (settle (raise 0x05 (sysErr 2 (updQ q.val (fun u => { u with
        sqLatch := none }) t))))) ∧
    (∀ (q : Fin 8) (v : BitVec 32), Awake s t → t.sys.perst = false → t.pwr.state ≠ 1 → t.sys.ready = true → (getQ t
      q.val).enabled = true →
      exec (.triggerFieldWrite q true v) s = .next (settle (raise 0x05 (sysErr 2 (updQ q.val (fun u => { u with
        cqLatch := none }) t))))) ∧
    (∀ (v : BitVec 32), Awake s t → t.sys.perst = false → t.pwr.state ≠ 1 → t.sys.locked = false → v.toNat % 2 = 0 →
      exec (.sysLock v) s = .next (settle t)) ∧
    (∀ (v : BitVec 32), Awake s t → t.sys.perst = false → t.pwr.state ≠ 1 → t.boot.stage = 7 → v.toNat = 0 →
      exec (.bootLoad v) s = .next (settle { t with boot := { t.boot with loadLen := 0, stage := 7 } })) ∧
    (∀ (v : BitVec 32), Awake s t → t.sys.perst = false → t.pwr.state ≠ 1 → t.boot.stage ≠ 7 →
      exec (.bootLoad v) s = .next (settle t)) ∧
    (∀ (v : BitVec 32), Awake s t → t.sys.perst = false → t.pwr.state ≠ 1 → ringSlots t ≠ 0 → ringSlots t ≤ v.toNat %
      1024 →
      exec (.harvHead v) s = .next (settle (sysErr 4 t))) ∧
    (∀ (addr : BitVec 26) (size : AccSize) (v : BusWrite), Awake s t → t.sys.perst = false → t.pwr.state ≠ 1 →
      stagingClosed addr.toNat t = true →
      exec (.registerWrite addr size v) s = .next (settle (updateWins addr.toNat (if size = .b64 then v.met.toNat else
      v.met.toNat % 2 ^ 32) t t))) ∧
    (∀ (addr : BitVec 26) (v : BusWrite), Awake s t → t.sys.perst = false → t.pwr.state ≠ 1 → stagingClosed addr.toNat
      t = false → addr.toNat % 4 ≠ 0 →
      exec (.registerWrite addr .b32 v) s = .next (settle (updateWins addr.toNat (v.met.toNat % 2 ^ 32) t (sysErr 3
      t)))) ∧
    (∀ (addr : BitVec 26) (v : BusWrite), Awake s t → t.sys.perst = false → t.pwr.state ≠ 1 → stagingClosed addr.toNat
      t = false → addr.toNat % 8 ≠ 0 →
      exec (.registerWrite addr .b64 v) s = .next (settle (updateWins addr.toNat v.met.toNat t (sysErr 3 t)))) ∧
    (∀ (addr : BitVec 32) (bytes : Bytes), Awake s t → t.pwr.state = 1 →
      exec (.spiWrite addr bytes) s = .next (settle (spiErr (beginWake 2 0 t)))) ∧
    (∀ (addr : BitVec 32) (n : Nat), Awake s t → t.pwr.state = 1 →
      exec (.spiRead addr n) s = .next (settle (spiErr (beginWake 2 0 t)))) ∧
    (Awake s t → t.pwr.state = 1 →
      exec .spiStatusRead s = .next (settle (spiErr (beginWake 2 0 t)))) ∧
    (Awake s t → t.pwr.state = 1 →
      exec .mailboxDoorbell s = .next (settle (spiErr (beginWake 2 0 t)))) ∧
    (∀ (x : State), Awake s t → t.pwr.state ≠ 1 → x = beginWake 2 0 t → (x.cmd.mb.busy = true ∨ x.sys.ready = false) →
      exec .mailboxDoorbell s = .next (settle (spiErr x))) ∧
    (∀ (n : Fin 2048), Awake s t → t.pwr.state = 1 →
      exec (.cntLoRead .spi n) s = .next (settle (spiErr (beginWake 2 0 t)))) ∧
    (Awake s t → t.pwr.state = 1 →
      exec (.tickNowLoRead .spi) s = .next (settle (spiErr (beginWake 2 0 t))))

/-- Reset, boot and supply rows. RESET, release of RESET_N, PERST_N, function reset, crystal found, absent and lost,
PLL lock, image read and checked, STANDBY-ready, thermal trip, power loss. For every state in which the clause's
condition holds, exec answers exactly the state the clause writes out, with the window of the tick opened first where
the row acts inside the tick. Several outcomes of one form stand in clauses of their own. What reset keeps is log
entry 10. -/
def Obligations.BootRowsAct : Prop :=
  ∀ s t : State,
    (exec .reset s = .next (settle (resetWith s.pwr.tripped s))) ∧
    (exec .powerLoss s = .next (settle (resetWith false s))) ∧
    (∀ (strap : BitVec 2), s.boot.inReset = true → s.pwr.tripped = false →
      exec (.resetRelease strap) s = .next (settle { s with
        boot := { s.boot with inReset := false, strap := strap.toNat, stage := 1 } })) ∧
    (s.boot.inReset = false → s.pwr.tripped = false →
      exec .perstN s = .next (settle (endpointReset { s with sys := { s.sys with perst := true } }))) ∧
    (exec .perstNDeassert s = .next (settle { s with sys := { s.sys with perst := false } })) ∧
    (s.boot.inReset = false →
      exec .thermtrip s = .next (settle (dacsHeld { s with pwr := { s.pwr with tripped := true } }))) ∧
    (Awake s t → t.boot.stage = 1 →
      exec .xoFound s = .next (settle { t with boot := { t.boot with stage := 2, xoFound := true } })) ∧
    (Awake s t → t.boot.stage = 1 →
      exec .xoAbsent s = .next (settle { t with boot := { t.boot with stage := 0xF, error := 1 } })) ∧
    (∀ (i : Nat), Awake s t → t.boot.stage = 2 → i = (if bootRecord t = some 1 then 1 else 0) →
      exec .pllLock s = .next (settle { t with
        tick := 0, elapsed := 0, boot := { t.boot with
          locked := true, stage := (if t.boot.strap < 2 then 3 else 7), slot := (if t.boot.strap < 2 then i else 0),
          firstSlot := i, tried := false } })) ∧
    (Awake s t → t.boot.stage = 3 →
      exec (.imageReadDone true) s = .next (settle { t with boot := { t.boot with stage := 4, checking := true } })) ∧
    (Awake s t → t.boot.stage = 3 → t.boot.tried = false →
      exec (.imageReadDone false) s = .next (settle { t with
        boot := { t.boot with error := 2, checking := false, slot := 1 - t.boot.slot, tried := true, stage := 3 } })) ∧
    (∀ (img : Bytes), Awake s t → t.boot.stage = 4 → t.boot.checking = true → img = slotImage t t.boot.slot →
      exec .imageCheckDone s = .next (settle (if fwSlotCheck t t.boot.slot = 0 then startImage img 1 { t with
        flash := { t.flash with
          slots := lmod t.flash.slots t.boot.slot fun x => { x with
            st := .valid, fwVersion := fld img 8 8, secVersion := fld img 4 4 } } } else slotFailed (fwSlotCheck t
      t.boot.slot) t))) ∧
    (∀ (img : Bytes), Awake s t → t.boot.stage = 4 → t.boot.checking = false → t.boot.loadLen ≤ 1835008 → img =
      SMap.getAll (0 : Byte) t.boot.staging 0 t.boot.loadLen →
      exec .imageCheckDone s = .next (settle (if fwCheck img = 0 then startImage img (if t.boot.strap = 3 then 3 else
      2) t else { t with boot := { t.boot with stage := 7, error := fwCheck img } }))) ∧
    (∀ (engFail : BitVec 256) (coreFail : BitVec 48) (u v w x : State), Running s t → t.boot.stage = 5 → u = { t with
        boot := { t.boot with stage := 6 }, sys := { t.sys with ready := true, fwRunning := true }, pwr := { t.pwr
            with state := 2, vcore := startVcore } } → boardMap u = none → v = domainStart (epochStart (fallowStart
      (calStart u))) → w = { v with
        boot := { v.boot with calValid := v.cal.valid }, stw := { v.stw with disabled := engFail.toNat } } → popcount
      256 engFail.toNat ≤ 4 → x = checkCores { w with fec := { w.fec with disabled := coreFail.toNat } } →
      exec (.standbyReady engFail coreFail) s = .next (settle (raise 0x02 (raiseIf x.boot.queueTouched 0x05 x)))) ∧
    (Awake s t →
      exec .pcieFunctionReset s = .next (settle (endpointReset t))) ∧
    (∀ (x : State), Awake s t → 2 ≤ t.boot.stage → t.boot.stage ≠ 0xF → t.boot.xoFound = true → t.sys.deviceFault =
      false → x = (List.range 12).foldl (fun s i => if cliOn s i then setFault i false (noClientData i s) else s)
      (setOutputs { t with
        boot := (if t.boot.stage = 6 then t.boot else { t.boot with error := 1 }), sys := { t.sys with
          deviceFault := true } }) → x.pwr.move = none →
      exec .xoInLoss s = .next (settle (raise 0x2C (pllTo .stopped x)))) ∧
    (∀ (strap : BitVec 2), (s.boot.inReset = false ∨ s.pwr.tripped = true) →
      exec (.resetRelease strap) s = .next (settle s)) ∧
    ((s.boot.inReset = true ∨ s.pwr.tripped = true) →
      exec .perstN s = .next (settle { s with sys := { s.sys with perst := true } })) ∧
    (s.boot.inReset = true →
      exec .thermtrip s = .next (settle s)) ∧
    (Awake s t → t.boot.stage = 3 → t.boot.tried = true →
      exec (.imageReadDone false) s = .next (settle { t with
        boot := { t.boot with
          error := 2, checking := false, slot := 0, stage := if t.boot.strap = 0 then 7 else 0xF } })) ∧
    (Awake s t → t.boot.stage = 4 → t.boot.checking = false → 1835008 < t.boot.loadLen →
      exec .imageCheckDone s = .next (settle { t with boot := { t.boot with stage := 7, error := fwCheck [] } })) ∧
    (∀ (engFail : BitVec 256) (coreFail : BitVec 48) (m : Bytes) (u v w x y : State), Running s t → t.boot.stage = 5 →
      u = { t with
        boot := { t.boot with stage := 6 }, sys := { t.sys with ready := true, fwRunning := true }, pwr := { t.pwr
            with state := 2, vcore := startVcore } } → boardMap u = some m → v = domainStart (epochStart (fallowStart
      (calStart (updBoot (fun b => { b with boardValid := true }) (u.setPar 0x1001 0 m))))) → w = { v with
        boot := { v.boot with calValid := v.cal.valid }, stw := { v.stw with disabled := engFail.toNat } } → y = (if 4
      < popcount 256 engFail.toNat then svcCause 4 w else w) → x = checkCores { y with
        fec := { y.fec with disabled := coreFail.toNat } } →
      exec (.standbyReady engFail coreFail) s = .next (settle (raise 0x02 (raiseIf x.boot.queueTouched 0x05 x)))) ∧
    (∀ (engFail : BitVec 256) (coreFail : BitVec 48) (u v w x : State), Running s t → t.boot.stage = 5 → u = { t with
        boot := { t.boot with stage := 6 }, sys := { t.sys with ready := true, fwRunning := true }, pwr := { t.pwr
            with state := 2, vcore := startVcore } } → boardMap u = none → v = domainStart (epochStart (fallowStart
      (calStart u))) → w = svcCause 4 { v with
        boot := { v.boot with calValid := v.cal.valid }, stw := { v.stw with disabled := engFail.toNat } } → 4 <
      popcount 256 engFail.toNat → x = checkCores { w with fec := { w.fec with disabled := coreFail.toNat } } →
      exec (.standbyReady engFail coreFail) s = .next (settle (raise 0x02 (raiseIf x.boot.queueTouched 0x05 x)))) ∧
    (∀ (m : PwrMove) (x : State), Awake s t → 2 ≤ t.boot.stage → t.boot.stage ≠ 0xF → t.boot.xoFound = true →
      t.sys.deviceFault = false → x = (List.range 12).foldl (fun s i => if cliOn s i then setFault i false
      (noClientData i s) else s) (setOutputs { t with
        boot := (if t.boot.stage = 6 then t.boot else { t.boot with error := 1 }), sys := { t.sys with
          deviceFault := true } }) → x.pwr.move = some m →
      exec .xoInLoss s = .next (settle (raise 0x2C (pllTo .stopped (finishOpt m.owner (.st stDeviceFault) { x with
        pwr := { x.pwr with move := none } })))))

/-- Power moves, wakes, gating, AVS, PMBus, telemetry, alerts and pins. PWR_TRANSITION_DONE, WAKE_DONE,
GPIO_WAKE_EDGE, GATING_APPLY, AVS_STEP, PMBUS_TRANSACTION_DONE, TELEMETRY_READ, ALERT_N, TJ_READING, PIN_CONTENTION,
OPEN_DRAIN_STUCK. For every state in which the clause's condition holds, exec answers exactly the state the clause
writes out, with the window of the tick opened first where the row acts inside the tick. Several outcomes of one form
stand in clauses of their own. -/
def Obligations.PowerEventsAct : Prop :=
  ∀ s t : State,
    (∀ (x : Int), Running s t → 1000 < x → x < 1050 → t.pwr.tjEpoch ≠ some (t.tick / 500) →
      exec (.tjReading x) s = .next (settle { t with
        pwr := { t.pwr with tj := x, tjEpoch := some (t.tick / 500) } })) ∧
    (∀ (x : Int), Running s t → 1050 ≤ x → x < 1150 → t.pwr.warn = false → t.pwr.tjEpoch ≠ some (t.tick / 500) →
      exec (.tjReading x) s = .next (settle (raise 0x12 (bump 78 { t with
        pwr := { t.pwr with tj := x, tjEpoch := some (t.tick / 500), warn := true } })))) ∧
    (∀ (x : Int), Running s t → x ≤ 1000 → (t.pwr.warn = true ∨ t.pwr.crit = true) → t.pwr.tjEpoch ≠ some (t.tick /
      500) →
      exec (.tjReading x) s = .next (settle (raise 0x14 { t with
        pwr := { t.pwr with tj := x, tjEpoch := some (t.tick / 500), warn := false, crit := false } }))) ∧
    (∀ (faults : BitVec 8) (quiet : List (Nat × Nat × Nat)) (e : Nat × Nat × Nat) (rest : List (Nat × Nat × Nat)),
      Running s t → pmbStuck t = false → railMap t = quiet ++ e :: rest → (∀ x ∈ quiet, bit faults.toNat x.1 = false)
      → bit faults.toNat e.1 = true →
      exec (.alertN faults) s = .next (settle (raise 0x17 (bump 77 (bump 74 (updPwr (fun p => { p with
        alertAddr := e.2.1 }) (bumpBy 74 quiet.length t))))))) ∧
    (∀ (gpio : Fin 16) (falling : Bool), Awake s t → bit (t.parN 0x1003 0) gpio.val = true → bit (t.parN 0x1004 0)
      gpio.val = falling →
      exec (.gpioWakeEdge gpio falling) s = .next (settle (beginWake 3 gpio.val t))) ∧
    (∀ (x : State), Awake s t → t.pwr.state = 1 → t.pwr.waking = true → x = tmRestart (pllTo .freerun (voutCore
      startVcore true { t with pwr := { t.pwr with state := 2, waking := false } })) →
      exec .wakeDone s = .next (settle (raise 0x1B (bump (68 + x.pwr.wakeSource) (bump 65 x))))) ∧
    (∀ (pin : Fin 19), Running s t → drives t pin.val = true →
      exec (.pinContention pin) s = .next (settle (raise 0xF6 (bump 80 { t with
        pwr := { t.pwr with hiZ := setBit t.pwr.hiZ pin.val true } })))) ∧
    (∀ (pin : Fin 5), Running s t → drivenLow t (19 + pin.val) = true → bit t.pwr.stuck (19 + pin.val) = false →
      exec (.openDrainStuck pin) s = .next (settle (raise 0xF7 (bump 81 { t with
        pwr := { t.pwr with stuck := setBit t.pwr.stuck (19 + pin.val) true } })))) ∧
    (∀ (m : PwrMove), stopped t = false → t.pwr.move = some m → m.begun = true → m.target ≠ 1 → runMask t = m.want →
      exec (.pwrTransitionDone none) t = .next (settle (moveDone m t))) ∧
    (∀ (m : PwrMove), stopped t = false → t.pwr.move = some m → m.begun = true → m.target = 1 → parkBlocked t = false
      →
      exec (.pwrTransitionDone none) t = .next (settle (parkEnter m t))) ∧
    (∀ (k : Fin 8) (m : PwrMove) (e : Nat × Nat × Nat), stopped t = false → t.pwr.move = some m → m.begun = true →
      m.had = 0 → m.want ≠ 0 → (railsOwned t).find? (·.1 == k.val) = some e →
      exec (.pwrTransitionDone (some k)) t = .next (settle (moveFailed m (pmbFault e.2.1 t)))) ∧
    (∀ (g : GateReq), stopped t = false → t.pwr.gates.find? (fun g => g.due ≤ t.elapsed) = some g →
      exec .gatingApply t = .next (settle (gateApply g t))) ∧
    (∀ (fails : Fin 4) (data : Bytes) (r : PmbReq) (rest : List PmbReq), Running s t → t.pwr.pmb = r :: rest →
      pmbStuck t = false → fails.val ≠ 3 →
      exec (.pmbusTransactionDone fails data) s = .next (settle (finish r.owner (.ok (if 3 ≤ r.kind then unle
      (data.take (if r.kind = 3 then 1 else if r.kind = 4 then 2 else 8)) else 0)) (bumpBy 75 fails.val (bump 74 { t
          with pwr := { t.pwr with pmb := rest } }))))) ∧
    (∀ (reads : Vector RailIn 8), Running s t → t.pwr.lastTel + t.parN 0x1005 0 * 500 ≤ t.elapsed →
      exec (.telemetryRead reads) s = .next (settle ((railMap t).foldl (telOne reads.toList) { t with
        pwr := { t.pwr with lastTel := t.elapsed, powers := List.replicate 8 0 } }))) ∧
    (∀ (e : Nat × Nat × Nat) (x : State), Running s t → t.pwr.avsEpoch ≠ some (t.tick / 500) → t.parN 0x1000 0 ≠ 0 → x
      = updPwr (fun p => { p with avsEpoch := some (t.tick / 500) }) t → x.parN 0x1000 0 ≠ 0 → x.pwr.vcore < 780 →
      (railMap t).find? (·.2.2 == 1) = some e → pmbStuck x = false →
      exec (.avsStep true false true) s = .next (settle (bump 72 (updPwr (fun p => { p with
        vcore := min 780 (x.pwr.vcore + 5) }) (bump 74 x))))) ∧
    (∀ (x : Int), Running s t → 1050 ≤ x → x < 1150 → t.pwr.warn = true → t.pwr.tjEpoch ≠ some (t.tick / 500) →
      exec (.tjReading x) s = .next (settle { t with
        pwr := { t.pwr with tj := x, tjEpoch := some (t.tick / 500) } })) ∧
    (∀ (x : Int), Running s t → 1150 ≤ x → t.pwr.warn = true → t.pwr.crit = false → t.pwr.tjEpoch ≠ some (t.tick /
      500) →
      exec (.tjReading x) s = .next (settle (raise 0x13 (bump 79 { t with
        pwr := { t.pwr with tj := x, tjEpoch := some (t.tick / 500), crit := true } })))) ∧
    (∀ (x : Int), Running s t → 1150 ≤ x → t.pwr.warn = false → t.pwr.crit = false → t.pwr.tjEpoch ≠ some (t.tick /
      500) →
      exec (.tjReading x) s = .next (settle (raise 0x13 (bump 79 (updPwr (fun p => { p with crit := true }) (raise
      0x12 (bump 78 { t with pwr := { t.pwr with tj := x, tjEpoch := some (t.tick / 500), warn := true } }))))))) ∧
    (∀ (x : Int), Running s t → 1150 ≤ x → t.pwr.warn = true → t.pwr.crit = true → t.pwr.tjEpoch ≠ some (t.tick / 500)
      →
      exec (.tjReading x) s = .next (settle { t with
        pwr := { t.pwr with tj := x, tjEpoch := some (t.tick / 500) } })) ∧
    (∀ (x : Int), Running s t → x ≤ 1000 → t.pwr.warn = false → t.pwr.crit = false → t.pwr.tjEpoch ≠ some (t.tick /
      500) →
      exec (.tjReading x) s = .next (settle { t with
        pwr := { t.pwr with tj := x, tjEpoch := some (t.tick / 500) } })) ∧
    (∀ (faults : BitVec 8), Running s t → pmbStuck t = false → (∀ x ∈ railMap t, bit faults.toNat x.1 = false) →
      exec (.alertN faults) s = .next (settle (bumpBy 74 (railMap t).length t))) ∧
    (∀ (faults : BitVec 8), Running s t → pmbStuck t = true →
      exec (.alertN faults) s = .next (settle ((railMap t).foldl (fun s e => pmbFault e.2.1 s) (bumpBy 74 (railMap
      t).length t)))) ∧
    (∀ (fails : Fin 4) (data : Bytes) (r : PmbReq) (rest : List PmbReq) (x : State), Running s t → t.pwr.pmb = r ::
      rest → x = bump 74 { t with pwr := { t.pwr with pmb := rest } } → (fails.val = 3 ∨ pmbStuck t = true) →
      exec (.pmbusTransactionDone fails data) s = .next (settle (finish r.owner (.st 0x1101) (pmbFault r.addr x)))) ∧
    (∀ (down ok : Bool) (e : Nat × Nat × Nat) (x : State), Running s t → t.pwr.avsEpoch ≠ some (t.tick / 500) → x =
      updPwr (fun p => { p with avsEpoch := some (t.tick / 500) }) t → x.parN 0x1000 0 ≠ 0 → x.pwr.vcore < 780 →
      (railMap t).find? (·.2.2 == 1) = some e → (ok = false ∨ pmbStuck x = true) →
      exec (.avsStep true down ok) s = .next (settle (pmbFault e.2.1 (bump 74 x)))) ∧
    (∀ (e : Nat × Nat × Nat) (x : State), Running s t → t.pwr.avsEpoch ≠ some (t.tick / 500) → x = updPwr (fun p => {
          p with avsEpoch := some (t.tick / 500) }) t → x.parN 0x1000 0 ≠ 0 → x.pwr.vcore < 780 → (railMap t).find?
      (·.2.2 == 1) = some e → pmbStuck x = false →
      exec (.avsStep true true true) s = .next (settle (bump 72 (updPwr (fun p => { p with
        vcore := min 780 (x.pwr.vcore + 5) }) (bump 74 x))))) ∧
    (∀ (e : Nat × Nat × Nat) (x : State), Running s t → t.pwr.avsEpoch ≠ some (t.tick / 500) → x = updPwr (fun p => {
          p with avsEpoch := some (t.tick / 500) }) t → x.parN 0x1000 0 ≠ 0 → 620 < x.pwr.vcore → (railMap t).find?
      (·.2.2 == 1) = some e → pmbStuck x = false →
      exec (.avsStep false true true) s = .next (settle (bump 73 (updPwr (fun p => { p with
        vcore := max 620 (x.pwr.vcore - 5) }) (bump 74 x))))) ∧
    (∀ (down ok : Bool) (x : State), Running s t → t.pwr.avsEpoch ≠ some (t.tick / 500) → x = updPwr (fun p => { p
          with avsEpoch := some (t.tick / 500) }) t → x.parN 0x1000 0 ≠ 0 → 780 ≤ x.pwr.vcore → (∀ k,
      x.pwr.avsLimitTick = some k → 500000 ≤ x.elapsed - k) →
      exec (.avsStep true down ok) s = .next (settle (raise 0x16 { x with
        pwr := { x.pwr with avsLimitTick := some x.elapsed } }))) ∧
    (∀ (down ok : Bool) (x : State), Running s t → t.pwr.avsEpoch ≠ some (t.tick / 500) → x = updPwr (fun p => { p
          with avsEpoch := some (t.tick / 500) }) t → x.parN 0x1000 0 ≠ 0 → (down = false ∨ x.pwr.vcore ≤ 620) →
      exec (.avsStep false down ok) s = .next (settle x)) ∧
    (∀ (up down : Bool) (e : Nat × Nat × Nat) (x : State), Running s t → t.pwr.avsEpoch ≠ some (t.tick / 500) → x =
      updPwr (fun p => { p with avsEpoch := some (t.tick / 500) }) t → x.parN 0x1000 0 = 0 → x.pwr.vcore ≠ startVcore
      → (railMap t).find? (·.2.2 == 1) = some e → pmbStuck x = false →
      exec (.avsStep up down true) s = .next (settle (updPwr (fun p => { p with vcore := startVcore }) (bump 74 x)))) ∧
    (∀ (x : Int), Running s t → t.pwr.tjEpoch = some (t.tick / 500) →
      exec (.tjReading x) s = .next (settle t)) ∧
    (∀ (up down ok : Bool), Running s t → t.pwr.avsEpoch = some (t.tick / 500) →
      exec (.avsStep up down ok) s = .next (settle t))

/-- Qualification, waits to restore, lock, phase adjustment, PPS and time of day. REF_QUALIFY, REF_DISQUALIFY,
WTR_EXPIRY, PLL_LOCKED, PHASE_ADJ_COMPLETE, PPS_EDGE, TOD_TX_MESSAGE, TOD_RX_MESSAGE. For every state in which the
clause's condition holds, exec answers exactly the state the clause writes out, with the window of the tick opened
first where the row acts inside the tick. Several outcomes of one form stand in clauses of their own. -/
def Obligations.TimingEventsAct : Prop :=
  ∀ s t : State,
    (∀ (r : Fin 9), Running s t → qualifyDue t r.val = true →
      exec (.refQualify r) s = .next (settle (raise 0x22 (updRef r.val (fun x => { x with
        qualified := true, wtrEnd := if x.hadDisq && t.parN 0x2004 0 != 0 then some (t.elapsed + t.parN 0x2004 0 *
          tps) else none }) t)))) ∧
    (∀ (r : Fin 9), Running s t → (getRef t r.val).qualified = true → refHolds t r.val = false →
      exec (.refDisqualify r) s = .next (settle (disqualify r.val t))) ∧
    (∀ (r : Fin 9) (e : Nat), Running s t → (getRef t r.val).wtrEnd = some e → e ≤ t.elapsed →
      exec (.wtrExpiry r) s = .next (settle (raise 0x24 (updRef r.val (fun x => { x with wtrEnd := none }) t)))) ∧
    (Running s t → lockDue t = true →
      exec .pllLocked s = .next (settle (pllTo .locked t))) ∧
    (Running s t → t.tm.adjActive = true → t.tm.adjFs = 0 →
      exec .phaseAdjComplete s = .next (settle (raise 0x2D { t with tm := { t.tm with adjActive := false } }))) ∧
    (∀ (o : Fin 2), Running s t → ppsDue t o.val = true →
      exec (.ppsEdge o) s = .next (settle (raiseIf (getPps t o.val).waiting 0x27 (updPps o.val (fun x => { x with
        lastEdge := some t.elapsed, lastPs := if x.waiting then edgePs t o.val else x.lastPs, waiting := false,
        aligned := x.aligned || x.waiting, highUntil := t.elapsed + (x.width + 1) / 2 }) t)))) ∧
    (Running s t → bit (t.parN 0x2013 0) 0 = true → t.tick % tps = 5000 → t.tm.todSent ≠ some t.elapsed →
      exec .todTxMessage s = .next (settle (bump 145 { t with
        tm := { t.tm with todSent := some t.elapsed, todOut := uartBits (todMessage t), todRate := t.parN 0x2014 0 }
          }))) ∧
    (∀ (bytes : Bytes), Running s t → bit (t.parN 0x2013 0) 1 = true → bytes.length = 16 → slice bytes 0 3 = [0xA5,
      0x5A, 0x01] → unbe (slice bytes 14 2) = todCrc (bytes.take 14) →
      exec (.todRxMessage bytes) s = .next (settle (raise 0x2A (bump 146 { t with
        tm := { t.tm with todTick := t.tick, todMsg := bytes } })))) ∧
    (∀ (bytes : Bytes), Running s t → bit (t.parN 0x2013 0) 1 = true → bytes.length ≠ 16 →
      exec (.todRxMessage bytes) s = .next (settle (raise 0x2B (bump 147 t)))) ∧
    (∀ (bytes : Bytes), Running s t → bit (t.parN 0x2013 0) 1 = true → (slice bytes 0 3 ≠ [0xA5, 0x5A, 0x01] ∨ unbe
      (slice bytes 14 2) ≠ todCrc (bytes.take 14)) →
      exec (.todRxMessage bytes) s = .next (settle (raise 0x2B (bump 147 t)))) ∧
    (∀ (bytes : Bytes), Running s t → bit (t.parN 0x2013 0) 1 = false →
      exec (.todRxMessage bytes) s = .next (settle t))

/-- Every transition of the receiver's state machine. SIGNAL_PRESENT, SIGNAL_LOST, CD_SCAN_DONE, TIMING_LOCKED,
TIMING_TIMEOUT, EQUALISER_CONVERGED, EQUALISE_TIMEOUT, EQUALISER_CONVERGENCE_LOST, FAS_LOCK, ACQUISITION_TIMEOUT,
LOCK_LOSS, MODE_REVERT_TIMEOUT, CONVERTER_RETUNE_DONE. For every state in which the clause's condition holds, exec
answers exactly the state the clause writes out, with the window of the tick opened first where the row acts inside
the tick. Several outcomes of one form stand in clauses of their own. The rows' conditions are log entry 43. -/
def Obligations.ReceiverTransitionsAct : Prop :=
  ∀ s t : State,
    (∀ (c : Line), Running s t → (t.tx.get c).retune = true → ((t.cal.left >>> (8 + 4 * c.ix)) % 16) = 0 →
      exec (.converterRetuneDone c) s = .next (settle (endDisrupt c (raise (lineEvt 0x30 c 4) (updTx c (fun t => { t
          with retune := false }) t))))) ∧
    (∀ (c : Line), Running s t → (getRx t c).st = .signal → 8 ≤ (getRx t c).above →
      exec (.signalPresent c) s = .next (settle (raise (lineEvt 0x40 c 2) (startAcq c true t)))) ∧
    (∀ (c : Line), Running s t → (getRx t c).st ≠ .off → (getRx t c).st ≠ .signal → 8 ≤ (getRx t c).below →
      exec (.signalLost c) s = .next (settle (raise (lineEvt 0x40 c 2) (rxEnter c .signal (updRx c (fun r => { r with
        timer := none }) (leaveTracking c 4 t)))))) ∧
    (∀ (c : Line) (coarse : Int) (best : Vector Int 3), Running s t → scanDone t c = true → scanFound (getRx t c) =
      (coarse, best.toList) → (getRx t c).scanFixed = true →
      exec (.cdScanDone c coarse best) s = .next (settle (enterTiming c (getRx t c).scanMin (updRx c (fun r => { r
          with cands := [] }) t)))) ∧
    (∀ (c : Line) (coarse : Int) (best : Vector Int 3) (v : Int) (rest : List Int), Running s t → scanDone t c = true
      → scanFound (getRx t c) = (coarse, best.toList) → (getRx t c).scanFixed = false → bestScores 3 (getRx t c).fine
      = v :: rest →
      exec (.cdScanDone c coarse best) s = .next (settle (enterTiming c v (updRx c (fun r => { r with
        cands := rest }) t)))) ∧
    (∀ (c : Line), Running s t → (getRx t c).st = .timing → 64 ≤ (getRx t c).timingGood →
      exec (.timingLocked c) s = .next (settle (rxEnter c .equalise (updRx c (fun r => { r with
        taps := spikeTaps (t.parN 0x4051 c.inst), phase := [] }) t)))) ∧
    (∀ (c : Line), Running s t → (getRx t c).st = .equalise → 64 ≤ (getRx t c).cmaGood →
      exec (.equaliserConverged c) s = .next (settle (rxEnter c .pilot (updRx c (fun r => { r with timer := none })
      t)))) ∧
    (∀ (c : Line), Running s t → (getRx t c).st = .timing → 5000 ≤ t.elapsed - (getRx t c).since →
      exec (.timingTimeout c) s = .next (settle (nextCandidate c t))) ∧
    (∀ (c : Line), Running s t → (getRx t c).st = .equalise → 15000 ≤ t.elapsed - (getRx t c).since →
      exec (.equaliseTimeout c) s = .next (settle (nextCandidate c t))) ∧
    (∀ (c : Line), Running s t → (getRx t c).st = .pilot → (getRx t c).convLost = true →
      exec (.equaliserConvergenceLost c) s = .next (settle (nextCandidate c t))) ∧
    (∀ (c : Line) (k : Nat), Running s t → (getRx t c).timer = some k → ((getRx t c).st = .cdScan ∨ (getRx t c).st =
      .timing ∨ (getRx t c).st = .equalise) → k + t.parN 0x4011 c.inst ≤ t.elapsed → mayStopTimer t c = false →
      exec (.acquisitionTimeout c) s = .next (settle (raise (lineEvt 0x40 c 3) (bump (rxCnt c 2) (enterScan c
      (startTimer c (updRx c (fun r => { r with acqStart := t.elapsed }) t))))))) ∧
    (∀ (c : Line), Running s t → (getRx t c).st = .pilot → 3 ≤ (getRx t c).fasRun →
      exec (.fasLock c) s = .next (settle (raise (lineEvt 0x40 c 0) (bump (rxCnt c 0) (rxEnter c .tracking (updRx c
      (fun r => { r with
        mode := (startingMode t c).1, starts := r.starts.map fun x => { x with mode := (startingMode t c).1 }, modeSrc
          := (startingMode t c).2, lastAcq := t.tick, acqTime := t.elapsed - r.acqStart, noConv := 0 }) t)))))) ∧
    (∀ (c : Line) (x : State), Running s t → lossReason t c ≠ 0 → x = leaveTracking c (lossReason t c) t →
      exec (.lockLoss c) s = .next (settle (enterTiming c (heldValue (startTimer c (updRx c (fun r => { r with
        acqStart := t.elapsed, held := true, cands := [] }) x)) c) (startTimer c (updRx c (fun r => { r with
        acqStart := t.elapsed, held := true, cands := [] }) x))))) ∧
    (∀ (c : Line) (m : RxMode), Running s t → (getRx t c).st = .tracking → 256 ≤ (getRx t c).noConv → m = {
        const := t.parN 0x4001 c.inst, k := t.parN 0x4002 c.inst, roll := t.parN 0x4003 c.inst, rate := t.parN 0x4004
          c.inst } →
      exec (.modeRevertTimeout c) s = .next (settle (raise (lineEvt 0x40 c 7) (updRx c (fun r => { r with
        modeDue := if r.mode = m then r.modeDue else some (m, 3), noConv := 0 }) t))))

/-- Decoding, re-decoding, release and core self-tests. DECODE_END, REDECODE_START, CODEWORD_RELEASE, CORE_SELF_TEST.
For every state in which the clause's condition holds, exec answers exactly the state the clause writes out, with the
window of the tick opened first where the row acts inside the tick. Several outcomes of one form stand in clauses of
their own. The order of codewords is log entry 136. -/
def Obligations.DecoderEventsAct : Prop :=
  ∀ s t : State,
    (∀ (c : Line) (frame : Fin 4) (cw : Fin 256) (j : Job) (x : State), Running s t → j = jobOf t c (256 * frame.val +
      cw.val) → inFirst t j = some true → poolUntil (fun s => inFirst s j != some true) (poolRest t) t = some x →
      exec (.decodeEnd c frame cw) s = .next (settle x)) ∧
    (∀ (c : Line) (cw : Fin 1024) (j : Job) (x : State), Running s t → j = jobOf t c cw.val → inFirst t j ≠ none →
      poolUntil (fun s => inFirst s j == some false && begun s j) (poolRest t) t = some x →
      exec (.redecodeStart c cw) s = .next (settle x)) ∧
    (∀ (c : Line) (cw : Fin 1024) (j : Job) (x : State) (o : Outcome) (bs : List Bool), Running s t → j = jobOf t c
      cw.val → releaseAhead t j = true → poolUntil (fun s => (leaveRound s j).any fun r => r ≤ s.fec.round) (poolRest
      t) t = some x → cwAt x j = some (.decided o true bs) →
      exec (.codewordRelease c cw) s = .next (settle (setCw j (.released true bs) x))) ∧
    (∀ (c : Line) (cw : Fin 1024) (j : Job) (x : State) (o : Outcome) (bs : List Bool), Running s t → j = jobOf t c
      cw.val → releaseAhead t j = true → poolUntil (fun s => (leaveRound s j).any fun r => r ≤ s.fec.round) (poolRest
      t) t = some x → cwAt x j = some (.decided o false bs) →
      exec (.codewordRelease c cw) s = .next (settle (fecOnce j.c 0 (updFecC j.c (fun f => { f with
        sumBad := f.sumBad + 1 }) (setCw j (.released false bs) x))))) ∧
    (∀ (core : Fin 48) (pass : Bool), Running s t → coreTestDue t core.val = true →
      exec (.coreSelfTest core pass) s = .next (settle (coreTested core.val pass t))) ∧
    (∀ (c : Line) (cw : Fin 1024) (j : Job) (x y : State) (llr : List Int) (n : Nat), Running s t → j = jobOf t c
      cw.val → releaseAhead t j = true → poolUntil (fun s => (leaveRound s j).any fun r => r ≤ s.fec.round) (poolRest
      t) t = some x → cwAt x j = some (.waiting llr n) → y = firstEnds false j (if n = 0 ∧ drawAny j x = none then
      .starved else .deadline) llr n x →
      exec (.codewordRelease c cw) s = .next (settle (match cwAt y j with
        | some (.decided _ good bits) => (if good
      then setCw j (.released good bits) y else fecOnce j.c 0 (updFecC j.c (fun f => { f with
        sumBad := f.sumBad + 1 }) (setCw j (.released good bits) y)))
        | _ => y))) ∧
    (∀ (c : Line) (cw : Fin 1024) (j : Job) (x y : State) (o : Outcome) (llr : List Int) (bs : List Bool) (n : Nat) (p
      : Outcome) (ds : List Bool), Running s t → j = jobOf t c cw.val → releaseAhead t j = true → poolUntil (fun s =>
      (leaveRound s j).any fun r => r ≤ s.fec.round) (poolRest t) t = some x → cwAt x j = some (.failed o llr bs n) →
      y = fecOnce j.c 5 (bump (fecCnt j.c 5) (setCw j (.decided o false bs) (noteOutcome j o x))) → cwAt y j = some
      (.decided p false ds) →
      exec (.codewordRelease c cw) s = .next (settle (fecOnce j.c 0 (updFecC j.c (fun f => { f with
        sumBad := f.sumBad + 1 }) (setCw j (.released false ds) y))))) ∧
    (∀ (c : Line) (cw : Fin 1024), Running s t → releaseAhead t (jobOf t c cw.val) = false →
      exec (.codewordRelease c cw) s = .next (settle t)) ∧
    (∀ (c : Line) (frame : Fin 4) (cw : Fin 256), Running s t → inFirst t (jobOf t c (256 * frame.val + cw.val)) ≠
      some true →
      exec (.decodeEnd c frame cw) s = .next (settle t)) ∧
    (∀ (c : Line) (cw : Fin 1024), Running s t → inFirst t (jobOf t c cw.val) = none →
      exec (.redecodeStart c cw) s = .next (settle t))

/-- Frame alignment, its timers, received frames and GCC messages. FRAME_ALIGNMENT_GAIN, FRAME_ALIGNMENT_LOSS,
LOF_TIMER, LOM_TIMER, LINE_FRAME_RX, GCC_MESSAGE_RX. For every state in which the clause's condition holds, exec
answers exactly the state the clause writes out, with the window of the tick opened first where the row acts inside
the tick. Several outcomes of one form stand in clauses of their own. The time of LINE_FRAME_RX is log entry 48. -/
def Obligations.FrameEventsAct : Prop :=
  ∀ s t : State,
    (∀ (c : Line) (lag : Option (BitVec 32)) (f : DecFrame) (rest : List DecFrame) (m : Mode), Running s t → (getFec t
      c).ready = f :: rest → m = ({
        n := f.n, const := f.mode.const, k := f.mode.k, rate := f.mode.rate, roll := f.mode.roll } : Mode) →
      exec (.lineFrameRx c lag) s = .next (settle (lineRx c (frameIn f) (lag.map (·.toInt)) (updFecC c (fun x => { x
          with ready := rest, taken := true, frameBad := badWords f, frameK := max 1 m.perWord, frameSlots := m.slots
                 }) t)))) ∧
    (∀ (c : Line), Running s t → (getFrm t c).inF = false → 3 ≤ (getFrm t c).run → lockInd t c = true →
      exec (.frameAlignmentGain c) s = .next (settle (updFrm c (fun f => { f with
        inF := true, miss := 0, lof := false }) t))) ∧
    (∀ (c : Line), Running s t → (getFrm t c).inF = true → (5 ≤ (getFrm t c).miss ∨ lockInd t c = false) →
      exec (.frameAlignmentLoss c) s = .next (settle (goOof c t))) ∧
    (∀ (c : Line), Running s t → (getFrm t c).inF = false → 1500 ≤ (getFrm t c).oof →
      exec (.lofTimer c) s = .next (settle (updFrm c (fun f => { f with lof := true }) t))) ∧
    (∀ (c : Line), Running s t → (getFrm t c).inM = false → 1500 ≤ (getFrm t c).oom →
      exec (.lomTimer c) s = .next (settle (updFrm c (fun f => { f with lom := true }) t))) ∧
    (∀ (c : Line) (m : GccMsg) (rest : List GccMsg) (x : State), Running s t → (getFrm t c).gcc.done = m :: rest → x =
      updFrm c (fun f => { f with gcc := { f.gcc with done := rest } }) t → m.chan ≠ 2 → (getFrm x c).gcc.queue.length
      < 16 →
      exec (.gccMessageRx c) s = .next (settle (raise (lineEvt 0x60 c 5) (bump (frmCnt c 10) (updFrm c (fun f => { f
          with gcc := { f.gcc with queue := f.gcc.queue ++ [m] } }) x))))) ∧
    (∀ (c : Line) (m : GccMsg) (rest : List GccMsg) (x : State), Running s t → (getFrm t c).gcc.done = m :: rest → x =
      updFrm c (fun f => { f with gcc := { f.gcc with done := rest } }) t → m.chan ≠ 2 → 16 ≤ (getFrm x
      c).gcc.queue.length →
      exec (.gccMessageRx c) s = .next (settle (bump (frmCnt c 12) x))) ∧
    (∀ (m : GccMsg) (rest : List GccMsg) (x : State), Running s t → (getFrm t .a).gcc.done = m :: rest → x = updFrm .a
      (fun f => { f with gcc := { f.gcc with done := rest } }) t → m.chan = 2 →
      exec (.gccMessageRx .a) s = .next (settle (bump (frmCnt .a 10) { x with
        cry := { x.cry with a := { x.cry.a with msgs := x.cry.a.msgs ++ [m.bytes] } } }))) ∧
    (∀ (m : GccMsg) (rest : List GccMsg) (x : State), Running s t → (getFrm t .b).gcc.done = m :: rest → x = updFrm .b
      (fun f => { f with gcc := { f.gcc with done := rest } }) t → m.chan = 2 →
      exec (.gccMessageRx .b) s = .next (settle (bump (frmCnt .b 10) { x with
        cry := { x.cry with b := { x.cry.b with msgs := x.cry.b.msgs ++ [m.bytes] } } })))

/-- Lane clocks, retunes, alignment, squelch delays and timestamped packets. INGRESS_ALIGNMENT, LANE_CLOCK_CHANGE,
LANE_RETUNE_DONE, SQUELCH_DELAY_EXPIRY, TS_PACKET. For every state in which the clause's condition holds, exec
answers exactly the state the clause writes out, with the window of the tick opened first where the row acts inside
the tick. Several outcomes of one form stand in clauses of their own. -/
def Obligations.ClientEventsAct : Prop :=
  ∀ s t : State,
    (∀ (cl : Fin 12), Running s t → (getCli t cl.val).disrupt = true →
      exec (.laneRetuneDone cl) s = .next (settle (setSquelch (updCli cl.val (fun x => { x with
        disrupt := false, lanesUp := carrierRuns t (cliLine t cl.val) }) t) cl.val))) ∧
    (∀ (cl : Fin 12), Running s t → cliOn t cl.val = true → (getCli t cl.val).squelch ≠ squelchWanted t cl.val →
      exec (.squelchDelayExpiry cl) s = .next (settle (raise 0x78 (lanesNow (updCli cl.val (fun x => { x with
        squelch := squelchWanted t cl.val }) t))))) ∧
    (∀ (cl : Fin 12) (aligned : Bool), Running s t → cliOn t cl.val = true → (getCli t cl.val).pcsRx.up = aligned →
      (getCli t cl.val).aligned ≠ aligned →
      exec (.ingressAlignment cl aligned) s = .next (settle (checkUp (raise 0x70 (updCli cl.val (fun x => { x with
        aligned := aligned }) t)) cl.val))) ∧
    (∀ (lane : Fin 32) (ok : Bool), Running s t → bit t.cli.powered lane.val = true → bit t.cli.laneOk lane.val ≠ ok →
      exec (.laneClockChange lane ok) s = .next (settle (raise 0x73 { t with
        cli := { t.cli with laneOk := setBit t.cli.laneOk lane.val ok } }))) ∧
    (∀ (cl : Fin 12) (ns : Fin 2000) (frac : BitVec 16) (pkt : Bytes) (e : Bytes) (k : Nat), Running s t → cliOn t
      cl.val = true → ((chunks 40 (t.par 0x7010 (0x40 + cl.val))).zipIdx.find? fun e => bit (byteAt e.1 0) 0 &&
      tsMatch e.1 pkt) = some (e, k) → bit (byteAt e 0) 2 = false → (getCli t cl.val).tsIn = [] →
      exec (.tsPacket cl .rx ns frac pkt) s = .next (settle (raise 0x79 (bump (cliCnt cl.val 13) (updCli cl.val (fun x
      => { x with
        tsIn := x.tsIn ++ [{
          seconds := t.tick / tps, nanos := t.tick % tps * 2000 + ns.val, frac := frac.toNat, filter := k, oneStep :=
            false, sig := unle (slice pkt (byteAt e 3) 2) }] }) (updCli cl.val (fun x => { x with lastPkt := pkt })
      t)))))) ∧
    (∀ (cl : Fin 12) (ns : Fin 2000) (frac : BitVec 16) (pkt : Bytes) (e : Bytes) (k : Nat), Running s t → cliOn t
      cl.val = true → ((chunks 40 (t.par 0x7010 (0x40 + cl.val))).zipIdx.find? fun e => bit (byteAt e.1 0) 0 &&
      tsMatch e.1 pkt) = some (e, k) → bit (byteAt e 0) 2 = false → (getCli t cl.val).tsIn ≠ [] → (getCli t
      cl.val).tsIn.length < 64 →
      exec (.tsPacket cl .rx ns frac pkt) s = .next (settle (bump (cliCnt cl.val 13) (updCli cl.val (fun x => { x with
        tsIn := x.tsIn ++ [{
          seconds := t.tick / tps, nanos := t.tick % tps * 2000 + ns.val, frac := frac.toNat, filter := k, oneStep :=
            false, sig := unle (slice pkt (byteAt e 3) 2) }] }) (updCli cl.val (fun x => { x with lastPkt := pkt })
      t))))) ∧
    (∀ (cl : Fin 12) (ns : Fin 2000) (frac : BitVec 16) (pkt : Bytes) (e : Bytes) (k : Nat), Running s t → cliOn t
      cl.val = true → ((chunks 40 (t.par 0x7010 (0x40 + cl.val))).zipIdx.find? fun e => bit (byteAt e.1 0) 0 &&
      tsMatch e.1 pkt) = some (e, k) → bit (byteAt e 0) 2 = false → 64 ≤ (getCli t cl.val).tsIn.length →
      exec (.tsPacket cl .rx ns frac pkt) s = .next (settle (cliOnce 0x7C (bump (cliCnt cl.val 15) (updCli cl.val (fun
      x => { x with lastPkt := pkt }) t))))) ∧
    (∀ (cl : Fin 12) (ns : Fin 2000) (frac : BitVec 16) (pkt : Bytes) (e : Bytes) (k : Nat), Running s t → cliOn t
      cl.val = true → ((chunks 40 (t.par 0x7010 (0x40 + cl.val))).zipIdx.find? fun e => bit (byteAt e.1 0) 0 &&
      tsMatch e.1 pkt) = some (e, k) → bit (byteAt e 0) 2 = true → pkt.length < byteAt e 4 + 10 → (getCli t
      cl.val).tsIn = [] →
      exec (.tsPacket cl .rx ns frac pkt) s = .next (settle (raise 0x79 (bump (cliCnt cl.val 13) (updCli cl.val (fun x
      => { x with
        tsIn := x.tsIn ++ [{
          seconds := t.tick / tps, nanos := t.tick % tps * 2000 + ns.val, frac := frac.toNat, filter := k, oneStep :=
            false, sig := unle (slice pkt (byteAt e 3) 2) }] }) (updCli cl.val (fun x => { x with lastPkt := pkt })
      (bump (cliCnt cl.val 17) t))))))) ∧
    (∀ (cl : Fin 12) (ns : Fin 2000) (frac : BitVec 16) (pkt : Bytes) (e : Bytes) (k : Nat), Running s t → cliOn t
      cl.val = true → ((chunks 40 (t.par 0x7010 (0x40 + cl.val))).zipIdx.find? fun e => bit (byteAt e.1 0) 1 &&
      tsMatch e.1 pkt) = some (e, k) → bit (byteAt e 0) 2 = false → (getCli t cl.val).tsOut = [] →
      exec (.tsPacket cl .tx ns frac pkt) s = .next (settle (raise 0x79 (bump (cliCnt cl.val 14) (updCli cl.val (fun x
      => { x with
        tsOut := x.tsOut ++ [{
          seconds := t.tick / tps, nanos := t.tick % tps * 2000 + ns.val, frac := frac.toNat, filter := k, oneStep :=
            false, sig := unle (slice pkt (byteAt e 3) 2) }] }) (updCli cl.val (fun x => { x with lastPkt := pkt })
      t)))))) ∧
    (∀ (cl : Fin 12) (ns : Fin 2000) (frac : BitVec 16) (pkt : Bytes) (e : Bytes) (k : Nat), Running s t → cliOn t
      cl.val = true → ((chunks 40 (t.par 0x7010 (0x40 + cl.val))).zipIdx.find? fun e => bit (byteAt e.1 0) 1 &&
      tsMatch e.1 pkt) = some (e, k) → bit (byteAt e 0) 2 = false → (getCli t cl.val).tsOut ≠ [] → (getCli t
      cl.val).tsOut.length < 64 →
      exec (.tsPacket cl .tx ns frac pkt) s = .next (settle (bump (cliCnt cl.val 14) (updCli cl.val (fun x => { x with
        tsOut := x.tsOut ++ [{
          seconds := t.tick / tps, nanos := t.tick % tps * 2000 + ns.val, frac := frac.toNat, filter := k, oneStep :=
            false, sig := unle (slice pkt (byteAt e 3) 2) }] }) (updCli cl.val (fun x => { x with lastPkt := pkt })
      t))))) ∧
    (∀ (cl : Fin 12) (ns : Fin 2000) (frac : BitVec 16) (pkt : Bytes) (e : Bytes) (k : Nat), Running s t → cliOn t
      cl.val = true → ((chunks 40 (t.par 0x7010 (0x40 + cl.val))).zipIdx.find? fun e => bit (byteAt e.1 0) 1 &&
      tsMatch e.1 pkt) = some (e, k) → bit (byteAt e 0) 2 = false → 64 ≤ (getCli t cl.val).tsOut.length →
      exec (.tsPacket cl .tx ns frac pkt) s = .next (settle (cliOnce 0x7C (bump (cliCnt cl.val 16) (updCli cl.val (fun
      x => { x with lastPkt := pkt }) t))))) ∧
    (∀ (cl : Fin 12) (ns : Fin 2000) (frac : BitVec 16) (pkt : Bytes) (e : Bytes) (k : Nat), Running s t → cliOn t
      cl.val = true → ((chunks 40 (t.par 0x7010 (0x40 + cl.val))).zipIdx.find? fun e => bit (byteAt e.1 0) 1 &&
      tsMatch e.1 pkt) = some (e, k) → bit (byteAt e 0) 2 = true → pkt.length < byteAt e 4 + 10 → (getCli t
      cl.val).tsOut = [] →
      exec (.tsPacket cl .tx ns frac pkt) s = .next (settle (raise 0x79 (bump (cliCnt cl.val 14) (updCli cl.val (fun x
      => { x with
        tsOut := x.tsOut ++ [{
          seconds := t.tick / tps, nanos := t.tick % tps * 2000 + ns.val, frac := frac.toNat, filter := k, oneStep :=
            false, sig := unle (slice pkt (byteAt e 3) 2) }] }) (updCli cl.val (fun x => { x with lastPkt := pkt })
      (bump (cliCnt cl.val 17) t))))))) ∧
    (∀ (cl : Fin 12), Running s t → cliOn t cl.val = false →
      exec (.squelchDelayExpiry cl) s = .next (settle (lanesNow (updCli cl.val (fun x => { x with
        squelch := (getCli t cl.val).squelch }) t))))

/-- Messages and timers of key exchanges, installations, limits and the public-key engine. OFFER, ANSWER, CONFIRM,
DONE, ABORT, KE_RESEND_EXPIRY, NO_PEER_TIMEOUT, EXCHANGE_RECORD_EXPIRY, KEY_INSTALL_APPLY, KEY_USE_LIMIT,
RX_KEY_CHECK_LIMIT, RETIRED_KEY_ZEROISE, EPOCH_RECORD_WRITTEN, PK_OP_DONE, DRBG_RESEED. For every state in which the
clause's condition holds, exec answers exactly the state the clause writes out, with the window of the tick opened
first where the row acts inside the tick. Several outcomes of one form stand in clauses of their own. The algorithms
are log entry 17. -/
def Obligations.KeyEventsAct : Prop :=
  ∀ s t : State,
    (stopped t = false →
      exec .keyInstallApply t = .next (settle (applyInstalls t))) ∧
    (∀ (c : Line) (sa : Fin 26), Running s t → carried t c sa.val = true → (getSa t c sa.val).tx.cur ≠ none → useLimit
      t c ≤ (getSa t c sa.val).tx.count →
      exec (.keyUseLimit c sa) s = .next (settle (privClear c (raise (lineEvt 0x80 c 1) (updTxH c sa.val (fun h => { h
          with cur := none, limited := true, warned := false }) t))))) ∧
    (∀ (c : Line) (sa : Fin 26), Running s t → (getSa t c sa.val).rx.retired ≠ none → (getSa t c
      sa.val).rx.retireAfter < (getFrm t c).frameTick →
      exec (.retiredKeyZeroise c sa) s = .next (settle (updRxH c sa.val (fun h => { h with retired := none }) t))) ∧
    (∀ (c : Line) (sa : Fin 26), Running s t →
      exec (.rxKeyCheckLimit c sa) s = .next (settle (updRxH c sa.val (fun h => { h with
        cur := h.cur.filter (fun x => x.checks < checkLimit), next := h.next.filter (fun x => x.checks < checkLimit),
        retired := h.retired.filter (fun x => x.checks < checkLimit) }) t))) ∧
    (∀ (o : FlashOp) (rest : List FlashOp) (x : State), Running s t → t.flash.ops = o :: rest → o.kind = .epochRecord
      → recWrite 0x2000 0x3000 (max o.aux t.cry.high) t = some x →
      exec (.epochRecordWritten true) s = .next (settle (finishOpt o.owner .ok (flashEnded 0 (raise 0x94 (epochWritten
      o.aux (o.aux2 == 1) x)))))) ∧
    (∀ (o : FlashOp) (rest : List FlashOp), Running s t → t.flash.ops = o :: rest → o.kind = .epochRecord →
      exec (.epochRecordWritten false) s = .next (settle (finishOpt o.owner (.st stEpochWriteFail) (failInstalls o.aux
      (raise 0x95 (flashEnded stEpochWriteFail t)))))) ∧
    (∀ (o : PkOp) (rest : List PkOp) (k : Nat), Running s t → t.cry.pk = o :: rest → o.start = some k → k + pkTicks
      o.kind t ≤ t.elapsed →
      exec .pkOpDone s = .next (settle (pkResult o (pkKick { t with cry := { t.cry with pk := rest } })))) ∧
    (Running s t →
      exec (.drbgReseed true) s = .next (settle { t with cry := { t.cry with drbgBad := false } })) ∧
    (Running s t →
      exec (.drbgReseed false) s = .next (settle (raise 0x97 { t with cry := { t.cry with drbgBad := true } }))) ∧
    (∀ (c : Line) (m : Bytes) (rest : List Bytes), Running s t → (getCry t c).msgs = m :: rest → byteAt m 0 = 1 →
      exec (.offer c) s = .next (settle (onOffer c m (updCry c (fun x => { x with msgs := rest }) t)))) ∧
    (∀ (c : Line) (m : Bytes) (rest : List Bytes), Running s t → (getCry t c).msgs = m :: rest → byteAt m 0 = 2 →
      exec (.answer c) s = .next (settle (onAnswer c m (updCry c (fun x => { x with msgs := rest }) t)))) ∧
    (∀ (c : Line) (m : Bytes) (rest : List Bytes), Running s t → (getCry t c).msgs = m :: rest → byteAt m 0 = 3 →
      exec (.confirm c) s = .next (settle (onConfirm c m (updCry c (fun x => { x with msgs := rest }) t)))) ∧
    (∀ (c : Line) (m : Bytes) (rest : List Bytes), Running s t → (getCry t c).msgs = m :: rest → byteAt m 0 = 4 →
      exec (.done c) s = .next (settle (onDone c m (updCry c (fun x => { x with msgs := rest }) t)))) ∧
    (∀ (c : Line) (m : Bytes) (rest : List Bytes), Running s t → (getCry t c).msgs = m :: rest → byteAt m 0 = 5 →
      exec (.abort c) s = .next (settle (keFail c (unbe (slice m 2 2)) false (updCry c (fun x => { x with
        msgs := rest }) t)))) ∧
    (∀ (c : Line) (x : Exch) (k : Nat), Running s t → getExch t c = some x → x.init = true → (x.stage = .waitAnswer ∨
      x.stage = .waitDone) → x.sentAt = some k → k + 500 * t.parN 0x9001 c.inst ≤ t.elapsed → x.sends < 4 →
      exec (.keResendExpiry c) s = .next (settle (raise (lineEvt 0x90 c 3) (bump (cryCnt c 11) (gccSendKey c x.lastMsg
      (updExch c (fun x => { x with sends := x.sends + 1, resends := x.resends + 1, sentAt := none }) t)))))) ∧
    (∀ (c : Line) (x : Exch), Running s t → getExch t c = some x → noPeerDue t x = true →
      exec (.noPeerTimeout c) s = .next (settle (finish x.owner (.st 0x1905) (keEnd c 0x1905 t)))) ∧
    (∀ (c : Line), Running s t →
      exec (.exchangeRecordExpiry c) s = .next (settle (updCry c (fun y => { y with
        record := y.record.filter fun r => t.elapsed < r.until_ }) t))) ∧
    (∀ (o : FlashOp) (rest : List FlashOp), Running s t → t.flash.ops = o :: rest → o.kind = .epochRecord → recWrite
      0x2000 0x3000 (max o.aux t.cry.high) t = none →
      exec (.epochRecordWritten true) s = .next (settle (finishOpt o.owner (.st stEpochWriteFail) (failInstalls o.aux
      (raise 0x95 (flashEnded stEpochWriteFail t)))))) ∧
    (∀ (o : PkOp) (rest : List PkOp), Running s t → t.cry.pk = o :: rest → o.start = none →
      exec .pkOpDone s = .next (settle (pkKick t))) ∧
    (∀ (o : PkOp) (rest : List PkOp) (k : Nat), Running s t → t.cry.pk = o :: rest → o.start = some k → o.kind =
      .verify → k < t.elapsed →
      exec .pkOpDone s = .next (settle (pkResult o (pkKick { t with cry := { t.cry with pk := rest } }))))

/-- Whisper frames sent and received, headers, pilots, light and bank swaps. WH_FRAME_START, WH_FRAME_SENT,
WH_LIGHT_CHANGE, PILOT_LOCK, WH_SYNC_DETECT, WH_HEADER, WH_FRAME_RX, WH_BANK_SWAP_APPLY. For every state in which the
clause's condition holds, exec answers exactly the state the clause writes out, with the window of the tick opened
first where the row acts inside the tick. Several outcomes of one form stand in clauses of their own. -/
def Obligations.WhisperEventsAct : Prop :=
  ∀ s t : State,
    (∀ (c : Line), Running s t → whRuns t c = true → (getWh t c).light = true → (getWh t c).lock = false → (getWh t
      c).dem.lockNow = true →
      exec (.pilotLock c true) s = .next (settle (updWh c (fun x => { x with
        lock := true, wqf := none, wqfGood := 0 }) t))) ∧
    (∀ (c : Line), Running s t → whRuns t c = true → (getWh t c).lock = true → (getWh t c).dem.lockNow = false →
      (getWh t c).rx = none →
      exec (.pilotLock c false) s = .next (settle (bump (whCnt c 15) (updWh c (fun x => { x with
        lock := false, wqf := none, wqfGood := 0 }) t)))) ∧
    (∀ (c : Line), Running s t → whRuns t c = true → (getWh t c).light = false → (getWh t c).dem.lightNow = true →
      (getWh t c).lock = false →
      exec (.whLightChange c true) s = .next (settle (retune c.ix (updDem c (fun d => {
        sum := d.sum, num := d.num, lights := d.lights, lightNow := true, pos := d.pos, frac := d.frac }) (raise
      (lineEvt 0xA0 c 4) (updWh c (fun x => { x with light := true }) t)))))) ∧
    (∀ (c : Line) (diffs : Vector Nat 4) (m : Nat), Running s t → whRuns t c = true → (getWh t c).light = true →
      (getWh t c).lock = true → (getWh t c).rx = none → (getWh t c).dem.tests = some diffs.toList → detectMode t c
      diffs.toList = some m →
      exec (.whSyncDetect c diffs) s = .next (settle (bump (whCnt c (5 + m)) (updWh c (fun x => { x with
        rx := some { mode := m }, frost := true, dem := {
          preamblePass (t.parI 0xA013 c.inst) (whRep m) x.dem with tests := none } }) t)))) ∧
    (∀ (c : Line) (raw : BitVec 32) (r : WRx) (b : Bytes) (w : Nat), Running s t → (getWh t c).rx = some r → r.hdr =
      none → r.bits.length = 32 → bitsNum r.bits.reverse = raw.toNat → b = whScramble 0 (be 4 raw.toNat) → w = unbe b
      → byteAt b 3 = crc8 (b.take 3) → bits w 19 18 = r.mode → w / 2 ^ 23 ≤ 256 → bits w 22 20 ≤ 2 → bits w 17 16 = 0
      →
      exec (.whHeader c raw) s = .next (settle (updWh c (fun x => { x with
        rx := some { r with
          bits := [], hdr := some { bytes := b, len := w / 2 ^ 23, chan := bits w 22 20, seq := bits w 15 8 } } })
      t))) ∧
    (∀ (c : Line) (raw : Bytes) (r : WRx) (h : WHdr), Running s t → (getWh t c).rx = some r → r.hdr = some h →
      raw.length = h.len + 4 → packBits r.bits.reverse = raw → unbe ((whScramble 32 raw).drop h.len) ≠ crc32c (h.bytes
      ++ (whScramble 32 raw).take h.len) →
      exec (.whFrameRx c raw) s = .next (settle (raise (lineEvt 0xA0 c 1) (bump (whCnt c 10) (updWh c (fun x => { x
          with rx := none, frost := false }) t))))) ∧
    (∀ (c : Line) (raw : Bytes) (r : WRx) (h : WHdr) (x : State), Running s t → (getWh t c).rx = some r → r.hdr = some
      h → raw.length = h.len + 4 → packBits r.bits.reverse = raw → unbe ((whScramble 32 raw).drop h.len) = crc32c
      (h.bytes ++ (whScramble 32 raw).take h.len) → h.chan ≠ 0 → x = bump (whCnt c (11 + h.chan)) (updWh c (fun y => {
          y with lastGood := t.tick }) (updWh c (fun y => { y with rx := none, frost := false }) t)) →
      exec (.whFrameRx c raw) s = .next (settle { x with
        dm := { x.dm with inbox := x.dm.inbox ++ [(2 + c.ix, (whScramble 32 raw).take h.len)] } })) ∧
    (∀ (c : Line) (raw : Bytes) (r : WRx) (h : WHdr) (x : State), Running s t → (getWh t c).rx = some r → r.hdr = some
      h → raw.length = h.len + 4 → packBits r.bits.reverse = raw → unbe ((whScramble 32 raw).drop h.len) = crc32c
      (h.bytes ++ (whScramble 32 raw).take h.len) → h.chan = 0 → x = bump (whCnt c (11 + h.chan)) (updWh c (fun y => {
          y with lastGood := t.tick }) (updWh c (fun y => { y with rx := none, frost := false }) t)) → (getWh (updWh c
      (fun y => { y with lastGoodSeq := h.seq }) x) c).queue.length < 16 →
      exec (.whFrameRx c raw) s = .next (settle (raise (lineEvt 0xA0 c 0) (updWh c (fun y => { y with
        queue := y.queue ++ [{
          mode := r.mode, seq := h.seq, tick := x.tick, wqf := y.wqf, payload := (whScramble 32 raw).take h.len }] })
      (updWh c (fun y => { y with lastGoodSeq := h.seq }) x))))) ∧
    (∀ (chain : Fin 4) (wait : Bool), stopped t = false → (getChain t chain.val).swap = some wait → t.tick % 4 = 0 →
      (wait = true → (getWh t (chainLine chain.val)).rx = none) →
      exec (.whBankSwapApply chain) t = .next (settle (raise (lineEvt 0xA0 (chainLine chain.val) 7) (unsettle
      chain.val 35 (updChain chain.val (fun x => { x with swap := none, bank := 1 - x.bank }) t))))) ∧
    (∀ (c : Line) (f : WFrame), stopped t = false → whBoundary t = true → whSends t c = true → (getWh t c).cur = none
      → (∀ k, (getWh t c).lastEnd = some k → k + 8 ≤ t.elapsed) → whNext t c = some f → (getWh t c).pendMode = none →
      (getWh t c).pendDepth = none →
      exec (.whFrameStart c) t = .next (settle (updWh c (fun x => { x with
        pendMode := none, pendDepth := none, dev := x.dev.erase f, host := x.host.erase f, cur := some {
          f := f, mode := f.mode.getD (t.parN 0xA001 c.inst), tick := t.tick, start := t.elapsed, span := whSpan
            f.payload.length (f.mode.getD (t.parN 0xA001 c.inst)) } }) t))) ∧
    (∀ (c : Line) (x : WCur), stopped t = false → (getWh t c).cur = some x → x.start + 8 * x.span ≤ t.elapsed →
      exec (.whFrameSent c) t = .next (settle (raiseIf (x.f.chan == 0) (lineEvt 0xA0 c 2) (bump (whCnt c x.f.chan)
      (updWh c (fun y => { y with
        cur := none, lastEnd := some t.elapsed, lastSent := t.tick, lastSentSeq := x.f.seq }) t))))) ∧
    (∀ (c : Line), Running s t → whRuns t c = true → (getWh t c).lock = true → (getWh t c).dem.lockNow = false →
      (getWh t c).rx ≠ none →
      exec (.pilotLock c false) s = .next (settle (whAbandon c (bump (whCnt c 15) (updWh c (fun x => { x with
        lock := false, wqf := none, wqfGood := 0 }) t))))) ∧
    (∀ (c : Line) (x : State), Running s t → whRuns t c = true → (getWh t c).light = true → (getWh t c).dem.lightNow =
      false → x = raise (lineEvt 0xA0 c 4) (updWh c (fun x => { x with light := false }) t) → (getWh x c).rx = none →
      exec (.whLightChange c false) s = .next (settle x)) ∧
    (∀ (c : Line) (x : State), Running s t → whRuns t c = true → (getWh t c).light = true → (getWh t c).dem.lightNow =
      false → x = raise (lineEvt 0xA0 c 4) (updWh c (fun x => { x with light := false }) t) → (getWh x c).rx ≠ none →
      exec (.whLightChange c false) s = .next (settle (whAbandon c x))) ∧
    (∀ (c : Line), Running s t → whRuns t c = true → (getWh t c).light = false → (getWh t c).dem.lightNow = true →
      (getWh t c).lock = true →
      exec (.whLightChange c true) s = .next (settle (retune c.ix (updDem c (fun d => {
        sum := d.sum, num := d.num, lights := d.lights, lightNow := true, pos := d.pos, frac := d.frac }) (pilotLock c
      false (updDem c (fun d => { d with lockNow := false }) (raise (lineEvt 0xA0 c 4) (updWh c (fun x => { x with
        light := true }) t)))))))) ∧
    (∀ (c : Line) (diffs : Vector Nat 4), Running s t → whRuns t c = true → (getWh t c).light = true → (getWh t
      c).lock = true → (getWh t c).rx = none → (getWh t c).dem.tests = some diffs.toList → detectMode t c diffs.toList
      = none →
      exec (.whSyncDetect c diffs) s = .next (settle (updDem c (fun d => { d with tests := none }) t))) ∧
    (∀ (c : Line) (raw : BitVec 32) (r : WRx) (b : Bytes) (w : Nat), Running s t → (getWh t c).rx = some r → r.hdr =
      none → r.bits.length = 32 → bitsNum r.bits.reverse = raw.toNat → b = whScramble 0 (be 4 raw.toNat) → w = unbe b
      → (byteAt b 3 ≠ crc8 (b.take 3) ∨ bits w 19 18 ≠ r.mode ∨ 256 < w / 2 ^ 23 ∨ 2 < bits w 22 20 ∨ bits w 17 16 ≠
      0) →
      exec (.whHeader c raw) s = .next (settle (whAbandon c t))) ∧
    (∀ (c : Line) (raw : Bytes) (r : WRx) (h : WHdr) (x : State), Running s t → (getWh t c).rx = some r → r.hdr = some
      h → raw.length = h.len + 4 → packBits r.bits.reverse = raw → unbe ((whScramble 32 raw).drop h.len) = crc32c
      (h.bytes ++ (whScramble 32 raw).take h.len) → h.chan = 0 → x = updWh c (fun y => { y with
        lastGoodSeq := h.seq }) (bump (whCnt c (11 + h.chan)) (updWh c (fun y => { y with lastGood := t.tick }) (updWh
      c (fun y => { y with rx := none, frost := false }) t))) → 16 ≤ (getWh x c).queue.length →
      exec (.whFrameRx c raw) s = .next (settle (bump (whCnt c 14) x))) ∧
    (∀ (c : Line) (f : WFrame) (x y : State), stopped t = false → whBoundary t = true → whSends t c = true → (getWh t
      c).cur = none → (∀ k, (getWh t c).lastEnd = some k → k + 8 ≤ t.elapsed) → whNext t c = some f → x = (match
      (getWh t c).pendMode with
        | some m => t.setPar 0xA001 c.inst (le 4 m)
        | none => t) → y = (match (getWh t
      c).pendDepth with
        | some d => x.setPar 0xA002 c.inst (le 4 d)
        | none => x) →
      exec (.whFrameStart c) t = .next (settle (updWh c (fun x => { x with
        pendMode := none, pendDepth := none, dev := x.dev.erase f, host := x.host.erase f, cur := some {
          f := f, mode := f.mode.getD (y.parN 0xA001 c.inst), tick := y.tick, start := y.elapsed, span := whSpan
            f.payload.length (f.mode.getD (y.parN 0xA001 c.inst)) } }) y)))

/-- Every domain message type received. BEACON, CALL, CFG_REQ, CFG_PART, HOST, PROBE, PROBE_REPLY. For every state in
which the clause's condition holds, exec answers exactly the state the clause writes out, with the window of the tick
opened first where the row acts inside the tick. Several outcomes of one form stand in clauses of their own. HEARD
and grants are log entries 83 and 85. -/
def Obligations.DomainMessagesAct : Prop :=
  ∀ s t : State,
    (∀ (k : Nat) (b : Bytes) (rest : List (Nat × Bytes)) (m : DmIn) (x y : State), Running s t → t.dm.inbox = (k, b)
      :: rest → parseDm b = some m → t.dm.member = true → m.domain = t.dm.domain → y = { t with
        dm := { t.dm with inbox := rest } } → x = (if k = 2 ∨ k = 3 then updPath { y with
        dm := { y.dm with whAt := y.dm.whAt.set (k - 2) (some t.elapsed) } } k else y) → byteAt b 0 = 1 →
      exec .cfgReq s = .next (settle (onCfgReq k m (bump (837 + k) x)))) ∧
    (∀ (k : Nat) (b : Bytes) (rest : List (Nat × Bytes)) (m : DmIn) (x y : State), Running s t → t.dm.inbox = (k, b)
      :: rest → parseDm b = some m → t.dm.member = true → m.domain = t.dm.domain → y = { t with
        dm := { t.dm with inbox := rest } } → x = (if k = 2 ∨ k = 3 then updPath { y with
        dm := { y.dm with whAt := y.dm.whAt.set (k - 2) (some t.elapsed) } } k else y) → byteAt b 0 = 2 →
      exec .cfgPart s = .next (settle (onCfgPart k m (bump (837 + k) x)))) ∧
    (∀ (k : Nat) (b : Bytes) (rest : List (Nat × Bytes)) (m : DmIn) (x y : State), Running s t → t.dm.inbox = (k, b)
      :: rest → parseDm b = some m → t.dm.member = true → m.domain = t.dm.domain → y = { t with
        dm := { t.dm with inbox := rest } } → x = (if k = 2 ∨ k = 3 then updPath { y with
        dm := { y.dm with whAt := y.dm.whAt.set (k - 2) (some t.elapsed) } } k else y) → byteAt b 0 = 3 →
      exec .call s = .next (settle (onCall k m (bump (837 + k) x)))) ∧
    (∀ (k : Nat) (b : Bytes) (rest : List (Nat × Bytes)) (m : DmIn) (x y : State), Running s t → t.dm.inbox = (k, b)
      :: rest → parseDm b = some m → t.dm.member = true → m.domain = t.dm.domain → y = { t with
        dm := { t.dm with inbox := rest } } → x = (if k = 2 ∨ k = 3 then updPath { y with
        dm := { y.dm with whAt := y.dm.whAt.set (k - 2) (some t.elapsed) } } k else y) → byteAt b 0 = 4 →
      exec .host s = .next (settle (forwarded (fun _ => dmDeliver 1) k m (bump (837 + k) x)))) ∧
    (∀ (k : Nat) (b : Bytes) (rest : List (Nat × Bytes)) (m : DmIn) (x y : State), Running s t → t.dm.inbox = (k, b)
      :: rest → parseDm b = some m → t.dm.member = true → m.domain = t.dm.domain → y = { t with
        dm := { t.dm with inbox := rest } } → x = (if k = 2 ∨ k = 3 then updPath { y with
        dm := { y.dm with whAt := y.dm.whAt.set (k - 2) (some t.elapsed) } } k else y) → byteAt b 0 = 5 →
      exec .probe s = .next (settle (forwarded (onProbe true) k m (bump (837 + k) x)))) ∧
    (∀ (k : Nat) (b : Bytes) (rest : List (Nat × Bytes)) (m : DmIn) (x y : State), Running s t → t.dm.inbox = (k, b)
      :: rest → parseDm b = some m → t.dm.member = true → m.domain = t.dm.domain → y = { t with
        dm := { t.dm with inbox := rest } } → x = (if k = 2 ∨ k = 3 then updPath { y with
        dm := { y.dm with whAt := y.dm.whAt.set (k - 2) (some t.elapsed) } } k else y) → byteAt b 0 = 6 →
      exec .probeReply s = .next (settle (forwarded (onProbe false) k m (bump (837 + k) x)))) ∧
    (∀ (k : Nat) (b : Bytes) (rest : List (Nat × Bytes)) (m : DmIn) (x y : State), Running s t → t.dm.inbox = (k, b)
      :: rest → parseDm b = some m → t.dm.member = true → m.domain = t.dm.domain → y = { t with
        dm := { t.dm with inbox := rest } } → x = (if k = 2 ∨ k = 3 then updPath { y with
        dm := { y.dm with whAt := y.dm.whAt.set (k - 2) (some t.elapsed) } } k else y) → byteAt b 0 = 7 →
      exec .beacon s = .next (settle (onBeacon k m (bump (837 + k) x)))) ∧
    (∀ (k : Nat) (b : Bytes) (rest : List (Nat × Bytes)), Running s t → t.dm.inbox = (k, b) :: rest → byteAt b 0 = 1 →
      (∀ m, parseDm b = some m → t.dm.member = false ∨ m.domain ≠ t.dm.domain) →
      exec .cfgReq s = .next (settle (dmDiscard { t with dm := { t.dm with inbox := rest } }))) ∧
    (∀ (k : Nat) (b : Bytes) (rest : List (Nat × Bytes)), Running s t → t.dm.inbox = (k, b) :: rest → byteAt b 0 = 2 →
      (∀ m, parseDm b = some m → t.dm.member = false ∨ m.domain ≠ t.dm.domain) →
      exec .cfgPart s = .next (settle (dmDiscard { t with dm := { t.dm with inbox := rest } }))) ∧
    (∀ (k : Nat) (b : Bytes) (rest : List (Nat × Bytes)), Running s t → t.dm.inbox = (k, b) :: rest → byteAt b 0 = 3 →
      (∀ m, parseDm b = some m → t.dm.member = false ∨ m.domain ≠ t.dm.domain) →
      exec .call s = .next (settle (dmDiscard { t with dm := { t.dm with inbox := rest } }))) ∧
    (∀ (k : Nat) (b : Bytes) (rest : List (Nat × Bytes)), Running s t → t.dm.inbox = (k, b) :: rest → byteAt b 0 = 4 →
      (∀ m, parseDm b = some m → t.dm.member = false ∨ m.domain ≠ t.dm.domain) →
      exec .host s = .next (settle (dmDiscard { t with dm := { t.dm with inbox := rest } }))) ∧
    (∀ (k : Nat) (b : Bytes) (rest : List (Nat × Bytes)), Running s t → t.dm.inbox = (k, b) :: rest → byteAt b 0 = 5 →
      (∀ m, parseDm b = some m → t.dm.member = false ∨ m.domain ≠ t.dm.domain) →
      exec .probe s = .next (settle (dmDiscard { t with dm := { t.dm with inbox := rest } }))) ∧
    (∀ (k : Nat) (b : Bytes) (rest : List (Nat × Bytes)), Running s t → t.dm.inbox = (k, b) :: rest → byteAt b 0 = 6 →
      (∀ m, parseDm b = some m → t.dm.member = false ∨ m.domain ≠ t.dm.domain) →
      exec .probeReply s = .next (settle (dmDiscard { t with dm := { t.dm with inbox := rest } }))) ∧
    (∀ (k : Nat) (b : Bytes) (rest : List (Nat × Bytes)), Running s t → t.dm.inbox = (k, b) :: rest → byteAt b 0 = 7 →
      (∀ m, parseDm b = some m → t.dm.member = false ∨ m.domain ≠ t.dm.domain) →
      exec .beacon s = .next (settle (dmDiscard { t with dm := { t.dm with inbox := rest } })))

/-- Timers of paths, documents, calls and conflicts; the mate link's frames, timers and roles. PATH_TIMEOUT,
FETCH_TIMEOUT, MISSING_OFFSET_REQUEST, CFG_ADOPT, CFG_SKEW_TIMEOUT, EPOCH_GRACE_EXPIRY, CONFLICT_FLAG_EXPIRY,
CALL_WAIT_LIMIT, DOMAIN_RECORD_WRITTEN, WHISPER_BEACON_SEND and the mate rows. For every state in which the clause's
condition holds, exec answers exactly the state the clause writes out, with the window of the tick opened first where
the row acts inside the tick. Several outcomes of one form stand in clauses of their own. -/
def Obligations.DomainTimersAct : Prop :=
  ∀ s t : State,
    (∀ (path : Fin 5) (x : State), Running s t → pathUp t path.val ≠ pathNow t path.val → x = raise 0xB8 { t with
        dm := { t.dm with up := t.dm.up.set path.val (pathNow t path.val) } } → nbrUp x (nbrOf path.val) = true →
      exec (.pathTimeout path) s = .next (settle x)) ∧
    (∀ (path : Fin 5) (x : State), Running s t → pathUp t path.val ≠ pathNow t path.val → x = raise 0xB8 { t with
        dm := { t.dm with up := t.dm.up.set path.val (pathNow t path.val) } } → nbrUp x (nbrOf path.val) = false →
      exec (.pathTimeout path) s = .next (settle (updNbr (nbrOf path.val) (fun n => { n with
        skewSince := none, skewed := false, epoch := 0, epochSince := none, epochSkew := false }) x))) ∧
    (Running s t →
      exec .conflictFlagExpiry s = .next (settle { t with
        dm := { t.dm with conflict := t.dm.conflict.filter fun k => t.elapsed - k < 60 * tps } })) ∧
    (∀ (o : FlashOp) (rest : List FlashOp) (x : State), Running s t → t.flash.ops = o :: rest → o.kind = .domainRecord
      → domWrite t.dm.domain o.aux t = some x →
      exec (.domainRecordWritten true) s = .next (settle (flashEnded 0 (updDm (fun d => { d with
        recDomain := d.domain, recVersion := o.aux, adopt := d.adopt.map fun a => { a with
          due := some (x.elapsed + 8) } }) x)))) ∧
    (∀ (f : Fetch), Running s t → t.dm.fetch = some f → f.again < 3 → f.started + (f.again + 1) * (fetchTicks t / 4 /
      4) ≤ t.elapsed → t.elapsed ≤ f.started + fetchTicks t / 4 →
      exec .missingOffsetRequest s = .next (settle ((missingOffs f).foldl (fun s o => cfgReq f o s) { t with
        dm := { t.dm with fetch := some { f with again := f.again + 1 } } }))) ∧
    (∀ (f : Fetch) (x : State), Running s t → t.dm.fetch = some f → f.started + fetchTicks t ≤ t.elapsed → x = bump
      855 { t with dm := { t.dm with fetch := none } } → [(nbrOf f.path + 1) % 3, (nbrOf f.path + 2) % 3].find? (fun i
      => x.cfgVersion < (getNbr x i).version) = none →
      exec .fetchTimeout s = .next (settle x)) ∧
    (∀ (f : Fetch) (x : State) (i : Nat), Running s t → t.dm.fetch = some f → f.started + fetchTicks t ≤ t.elapsed → x
      = bump 855 { t with dm := { t.dm with fetch := none } } → [(nbrOf f.path + 1) % 3, (nbrOf f.path + 2) % 3].find?
      (fun i => x.cfgVersion < (getNbr x i).version) = some i →
      exec .fetchTimeout s = .next (settle (startFetch (pathTo x i) (getNbr x i).version x))) ∧
    (∀ (nb : Fin 3) (k : Nat), Running s t → (getNbr t nb.val).skewSince = some k → (getNbr t nb.val).skewed = false →
      (getNbr t nb.val).version ≠ t.cfgVersion → 30 * tps ≤ t.elapsed - k →
      exec (.cfgSkewTimeout nb) s = .next (settle (raise 0xB2 (updNbr nb.val (fun n => { n with skewed := true })
      t)))) ∧
    (∀ (c : Line) (k : Nat) (x : State), Running s t → x = epochCheck c.ix t → (getNbr x c.ix).epochSince = some k →
      (getNbr x c.ix).epochSkew = false → k + x.parN 0xB003 0 * tps < x.elapsed →
      exec (.epochGraceExpiry c) s = .next (settle (raise 0xB4 (updNbr c.ix (fun n => { n with epochSkew := true })
      x)))) ∧
    (∀ (c : Line), Running s t → t.dm.member = true → (∀ k, t.dm.whBeacon.getD c.ix none = some k → 5 * tps ≤
      t.elapsed - k) → pathSends t (2 + c.ix) = true →
      exec (.whisperBeaconSend c) s = .next (settle (dmSend 0x07 0xFFFF (identityBody t c) [2 + c.ix] { t with
        dm := { t.dm with whBeacon := t.dm.whBeacon.set c.ix (some t.elapsed) } }))) ∧
    (∀ (x : Bind), stopped t = false → (t.dm.binds.filter fun b => b.limit ≤ t.tick) = [x] →
      exec .callWaitLimit t = .next (settle (decide_ 0x0B08 x.crc x.p (cplOf t 0x0B08 x.p 0x1B07 0 0) false { t with
        dm := { t.dm with binds := t.dm.binds.erase x } }))) ∧
    (∀ (x : Adopt) (k : Nat), stopped t = false → t.dm.adopt = some x → x.due = some k → k ≤ t.elapsed →
      exec .cfgAdopt t = .next (settle (finishOpt x.owner .ok (raise 0xB1 { t with
        cfgVersion := x.version, dm := { t.dm with adopt := none, doc := x.doc } })))) ∧
    (∀ (lane : Fin 2), Running s t → (t.mate.lanes.getD lane.val {}).up = true → 5 ≤ (t.mate.lanes.getD lane.val
      {}).quiet →
      exec (.mateLaneDown lane) s = .next (settle (updLink (bump (858 + lane.val) { t with
        mate := { t.mate with lanes := lmod t.mate.lanes lane.val fun l => { l with up := false } } })))) ∧
    (∀ (lane : Fin 2) (frame : Bytes) (lag : BitVec 32), Running s t → mateValid frame = false →
      exec (.mateFrameRx lane frame lag) s = .next (settle (bump 860 { t with
        mate := { t.mate with lanes := lmod t.mate.lanes lane.val fun l => { l with good := 0 } } }))) ∧
    (∀ (lane : Fin 2) (frame : Bytes) (lag : BitVec 32), Running s t → mateValid frame = true → t.mate.seen = false →
      exec (.mateFrameRx lane frame lag) s = .next (settle (takeFrame frame lag.toInt { t with
        mate := { t.mate with
          lanes := lmod t.mate.lanes lane.val fun l => { l with
            good := min 3 (l.good + 1), quiet := 0, up := l.up || 2 ≤ l.good } } }))) ∧
    (∀ (k i : Nat) (x : State), stopped t = false → t.mate.activateAt = some k → t.mate.idleAt = some i → k ≤
      t.elapsed → i < t.elapsed → mateOn t = true → x = setRole true { t with
        mate := { t.mate with activateAt := none, want := none, idleAt := none } } → (x.mate.switch.map (·.done)).getD
      false = false →
      exec .mateActivate t = .next (settle x)) ∧
    (∀ (k i : Nat) (x : State), stopped t = false → t.mate.activateAt = some k → t.mate.idleAt = some i → k ≤
      t.elapsed → i < t.elapsed → mateOn t = true → x = setRole true { t with
        mate := { t.mate with activateAt := none, want := none, idleAt := none } } → (x.mate.switch.map (·.done)).getD
      false = true →
      exec .mateActivate t = .next (settle (updMate (fun m => { m with switch := none }) (answerSwitch .ok x)))) ∧
    (∀ (w : Switch), stopped t = false → t.mate.switch = some w → w.done = false → w.mine = true → w.acked = false →
      w.t ≤ t.tick + 8 →
      exec .mateSwitchTick t = .next (settle (bump 862 (updMate (fun m => { m with switch := none }) (answerSwitch
      (.st 0x1B05) t))))) ∧
    (∀ (w : Switch) (x : State), stopped t = false → t.mate.switch = some w → w.done = false → (w.mine = false ∨
      w.acked = true) → w.t ≤ t.tick → x = bump 861 { t with
        mate := { t.mate with switch := some { w with done := true } } } → x.mate.active = true → (setRole false
      x).mate.link = true →
      exec .mateSwitchTick t = .next (settle (setRole false x))) ∧
    (Running s t → 8 ≤ t.mate.healthRun → autoWanted t = true →
      exec .mateAutoSwitch s = .next (settle (startSwitch none t))) ∧
    (Running s t → afterHoldoff t = true → t.mate.probeAt = none →
      exec .mateHoldoffExpiry s = .next (settle (sendProbe 5 { t with
        mate := { t.mate with probeAt := some t.elapsed } }))) ∧
    (∀ (k : Nat), Running s t → t.mate.probeAt = some k → afterHoldoff t = true → k + probeWin t / 8 ≤ t.elapsed →
      exec .probeTimer s = .next (settle (sendProbe 5 { t with mate := { t.mate with probeAt := some t.elapsed } }))) ∧
    (stopped t = false → afterHoldoff t = true → t.mate.active = true → seniorNow t = false → (∀ g, t.mate.grantTick =
      some g → g + lambda t ≤ t.tick) →
      exec .juniorLeaseExpiry t = .next (settle (setRole false t))) ∧
    (stopped t = false → afterHoldoff t = true → t.mate.active = false → seniorNow t = true → inWindow t
      t.mate.heardAt = false → (∀ g, t.mate.grantTick = some g → g + lambda t + 1 ≤ t.tick) →
      exec .seniorTakeover t = .next (settle (setRole true t))) ∧
    (Running s t → afterHoldoff t = true → inWindow t t.mate.heardAt = false → t.mate.peer ≠ 2 →
      exec .peerLostTimeout s = .next (settle (raise 0xBC { t with mate := { t.mate with peer := 2 } }))) ∧
    (∀ (o : FlashOp) (rest : List FlashOp), Running s t → t.flash.ops = o :: rest → o.kind = .domainRecord →
      exec (.domainRecordWritten false) s = .next (settle (finishOpt ((t.dm.adopt.map (·.owner)).getD none) (.st
      0x1B06) (raise 0xBF (flashEnded 0x1B06 (updDm (fun d => { d with adopt := none }) t)))))) ∧
    (stopped t = false →
      exec .callWaitLimit t = .next (settle ((t.dm.binds.filter fun b => b.limit ≤ t.tick).foldl (fun s b => decide_
      0x0B08 b.crc b.p (cplOf s 0x0B08 b.p 0x1B07 0 0) false { s with
        dm := { s.dm with binds := s.dm.binds.erase b } }) t))) ∧
    (∀ (lane : Fin 2) (frame : Bytes) (lag : BitVec 32), Running s t → mateValid frame = true → t.mate.seen = true →
      exec (.mateFrameRx lane frame lag) s = .next (settle (updLink { t with
        mate := { t.mate with
          lanes := lmod t.mate.lanes lane.val fun l => { l with
            good := min 3 (l.good + 1), quiet := 0, up := l.up || 2 ≤ l.good } } }))) ∧
    (∀ (w : Switch) (x y : State), stopped t = false → t.mate.switch = some w → w.done = false → (w.mine = false ∨
      w.acked = true) → w.t ≤ t.tick → x = bump 861 { t with
        mate := { t.mate with switch := some { w with done := true } } } → y = (if x.mate.active then setRole false x
      else if x.mate.link then wantActive x.elapsed x else x) → y.mate.link = true →
      exec .mateSwitchTick t = .next (settle y)) ∧
    (∀ (w : Switch) (x y : State), stopped t = false → t.mate.switch = some w → w.done = false → (w.mine = false ∨
      w.acked = true) → w.t ≤ t.tick → x = bump 861 { t with
        mate := { t.mate with switch := some { w with done := true } } } → y = (if x.mate.active then setRole false x
      else if x.mate.link then wantActive x.elapsed x else x) → y.mate.link = false →
      exec .mateSwitchTick t = .next (settle { y with mate := { y.mate with switch := none } })) ∧
    (∀ (w : Switch), stopped t = false → t.mate.switch = some w → w.done = true → w.mine = false → t.mate.activateAt =
      none →
      exec .mateSwitchTick t = .next (settle { t with mate := { t.mate with switch := none } }))

/-- Measurements, foreground ends, spares, stores and temperatures. CAL_MEASUREMENT_DONE, FOREGROUND_CAL_DONE,
SPARE_CAL_DONE, SPARE_SWAP, CAL_STORE_WRITTEN, TEMP_SENSOR_READ. For every state in which the clause's condition
holds, exec answers exactly the state the clause writes out, with the window of the tick opened first where the row
acts inside the tick. Several outcomes of one form stand in clauses of their own. -/
def Obligations.CalibrationEventsAct : Prop :=
  ∀ s t : State,
    (∀ (cv : Fin 16) (res : Vector SliceCal 68) (x : State), Running s t → x = foreDone cv.val res.toList t →
      (bootDone x (convLine cv.val) && bit ((x.pwr.move.map (·.want)).getD 0) (convLine cv.val).ix) = false →
      exec (.foregroundCalDone cv res) s = .next (settle x)) ∧
    (∀ (cv : Fin 16) (res : Vector SliceCal 64) (r : CalRun), Running s t → t.cal.runs.find? (fun r => bit r.meas
      cv.val) = some r → r.start + measTicks cv.val ≤ t.elapsed →
      exec (.calMeasurementDone cv res) s = .next (settle (pumpSubs cv.val ((List.range 64).foldl (actOn cv.val
      res.toList) { t with
        cal := { t.cal with
          runs := t.cal.runs.map fun q => if q = r then { q with meas := setBit q.meas cv.val false } else q } })))) ∧
    (∀ (cv : Fin 16) (res : SliceCal) (w : List Int) (sub : Subst) (k : Nat) (x : State), Running s t → (getConv t
      cv.val).cur = some { sub := sub, spare := k, fade := none } → fitTrims res = some w → x = bump (convCnt cv.val
      2) t →
      exec (.spareCalDone cv res) s = .next (settle (updConv cv.val (fun y => { y with
        trims := y.trims.set k w, fore := y.fore.set k w, cur := some {
          sub := sub, spare := k, fade := some (0, x.parN 0xC003 0) } }) x))) ∧
    (∀ (cv : Fin 16) (sub : Subst) (k j n : Nat), Running s t → (getConv t cv.val).cur = some {
        sub := sub, spare := k, fade := some (j, n) } → n ≤ j →
      exec (.spareSwap cv) s = .next (settle (pumpSubs cv.val (markChanged cv.val (swapIn cv.val sub.pos k (updConv
      cv.val (fun x => { x with cur := none }) t)))))) ∧
    (∀ (o : FlashOp) (rest : List FlashOp) (x : State), Running s t → t.flash.ops = o :: rest → o.kind = .calStore →
      o.aux = 0 → calWrite o.data t = some x →
      exec (.calStoreWritten true) s = .next (settle (finishOpt o.owner .ok (raise 0xC7 (recovered .b (recovered .a
      (flashEnded 0 (bump 1008 x)))))))) ∧
    (∀ (o : FlashOp) (rest : List FlashOp), Running s t → t.flash.ops = o :: rest → o.kind = .calStore → o.aux = 0 →
      exec (.calStoreWritten false) s = .next (settle (finishOpt o.owner (.st 0x1C01) (flashEnded 0x1C01 (bump 1009
      (calCut o.data t)))))) ∧
    (∀ (cv : Fin 16) (v : BitVec 16) (x : State), Running s t → (getConv t cv.val).readIn ≠ some (t.tick / 500) → x =
      updConv cv.val (fun y => { y with temp := some v.toInt, readIn := some (t.tick / 500) }) t → calSt x (convLine
      cv.val) ≠ .off → (getConv x cv.val).calTemp = none →
      exec (.tempSensorRead cv v) s = .next (settle x)) ∧
    (∀ (cv : Fin 16) (res : Vector SliceCal 68) (m : PwrMove) (x y : State), Running s t → x = foreDone cv.val
      res.toList t → (bootDone x (convLine cv.val) && bit ((x.pwr.move.map (·.want)).getD 0) (convLine cv.val).ix) =
      true → y = carrierUp (convLine cv.val) (bootEnd (convLine cv.val) x) → y.pwr.move = some m →
      exec (.foregroundCalDone cv res) s = .next (settle (if runMask y = m.want then moveDone m y else y))) ∧
    (∀ (cv : Fin 16) (res : Vector SliceCal 64) (r : CalRun), Running s t → t.cal.runs.find? (fun r => bit r.meas
      cv.val) = some r → r.start + measTicks cv.val = t.elapsed + 1 →
      exec (.calMeasurementDone cv res) s = .next (settle (pumpSubs cv.val ((List.range 64).foldl (actOn cv.val
      res.toList) { t with
        cal := { t.cal with
          runs := t.cal.runs.map fun q => if q = r then { q with meas := setBit q.meas cv.val false } else q } })))) ∧
    (∀ (cv : Fin 16) (res : SliceCal) (sub : Subst) (k : Nat) (x y : State), Running s t → (getConv t cv.val).cur =
      some { sub := sub, spare := k, fade := none } → fitTrims res = none → x = bump (convCnt cv.val 2) t → y =
      markChanged cv.val (sliceFailed cv.val (updConv cv.val (fun z => { z with
        out := setBit z.out k true, cur := none, subs := sub :: z.subs }) x)) →
      exec (.spareCalDone cv res) s = .next (settle (pumpSubs cv.val (if (getConv y cv.val).spares.isEmpty then
      noSpare cv.val y else y)))) ∧
    (∀ (o : FlashOp) (rest : List FlashOp) (r : CalRun) (x y : State), Running s t → t.flash.ops = o :: rest → o.kind
      = .calStore → o.aux ≠ 0 → t.cal.runs.find? (fun r => r.storing && r.no == o.aux) = some r → calWrite o.data t =
      some x → y = finishOpt o.owner .ok (raise 0xC7 (recovered .b (recovered .a (flashEnded 0 (bump 1008 x))))) →
      exec (.calStoreWritten true) s = .next (settle (endRun r (if r.noSpare then .st 0x1C02 else .ok) y))) ∧
    (∀ (o : FlashOp) (rest : List FlashOp) (x : State), Running s t → t.flash.ops = o :: rest → o.kind = .calStore →
      t.cal.runs.find? (fun r => r.storing && r.no == o.aux) = none → calWrite o.data t = some x →
      exec (.calStoreWritten true) s = .next (settle (finishOpt o.owner .ok (raise 0xC7 (recovered .b (recovered .a
      (flashEnded 0 (bump 1008 x)))))))) ∧
    (∀ (o : FlashOp) (rest : List FlashOp) (r : CalRun), Running s t → t.flash.ops = o :: rest → o.kind = .calStore →
      o.aux ≠ 0 → t.cal.runs.find? (fun r => r.storing && r.no == o.aux) = some r →
      exec (.calStoreWritten false) s = .next (settle (endRun r (.st (if r.noSpare then 0x1C02 else 0x1C01))
      (finishOpt o.owner (.st 0x1C01) (flashEnded 0x1C01 (bump 1009 (calCut o.data t))))))) ∧
    (∀ (cv : Fin 16) (v : BitVec 16) (x : State) (u : Int), Running s t → (getConv t cv.val).readIn ≠ some (t.tick /
      500) → x = updConv cv.val (fun y => { y with temp := some v.toInt, readIn := some (t.tick / 500) }) t → calSt x
      (convLine cv.val) ≠ .off → (getConv x cv.val).calTemp = some u → (v.toInt - u).natAbs ≤ x.parN 0xC002 0 →
      exec (.tempSensorRead cv v) s = .next (settle x)) ∧
    (∀ (cv : Fin 16) (v : BitVec 16) (x : State) (u : Int), Running s t → (getConv t cv.val).readIn ≠ some (t.tick /
      500) → x = updConv cv.val (fun y => { y with temp := some v.toInt, readIn := some (t.tick / 500) }) t → calSt x
      (convLine cv.val) ≠ .off → (getConv x cv.val).calTemp = some u → x.parN 0xC002 0 < (v.toInt - u).natAbs → calSt
      x (convLine cv.val) = .service → (getConv x cv.val).drifted = false →
      exec (.tempSensorRead cv v) s = .next (settle (raise (lineEvt 0xC0 (convLine cv.val) 5) (updConv cv.val (fun y
      => { y with drifted := true }) x)))) ∧
    (∀ (cv : Fin 16) (v : BitVec 16) (x : State), Running s t → (getConv t cv.val).readIn ≠ some (t.tick / 500) → x =
      updConv cv.val (fun y => { y with temp := some v.toInt, readIn := some (t.tick / 500) }) t → calSt x (convLine
      cv.val) = .off →
      exec (.tempSensorRead cv v) s = .next (settle x)) ∧
    (∀ (cv : Fin 16) (v : BitVec 16), Running s t → (getConv t cv.val).readIn = some (t.tick / 500) →
      exec (.tempSensorRead cv v) s = .next (settle t))

/-- Run budgets, self-tests, page requests, descriptors, merge flushes, scrubs, quarantine tests and records.
RUN_BUDGET_EXPIRY, ENGINE_SELF_TEST, PAGE_REQUEST_TIMEOUT, DMA_DESCRIPTOR, DESCRIPTOR_COMPLETE, MERGE_FLUSH_TIMEOUT,
PERIODIC_SCRUB, QUARANTINE_TEST, ZEROISE_DONE, FALLOW_RECORD_WRITTEN, HARVEST_RECORD_WRITTEN. For every state in
which the clause's condition holds, exec answers exactly the state the clause writes out, with the window of the tick
opened first where the row acts inside the tick. Several outcomes of one form stand in clauses of their own. -/
def Obligations.EngineStoreEventsAct : Prop :=
  ∀ s t : State,
    (∀ (r : PageReq), Running s t → (t.stw.reqs.filter fun r => r.wait && 750000 ≤ t.elapsed - r.at_) = [r] →
      exec .pageRequestTimeout s = .next (settle (finish r.owner (.st stNoResource) (bump 1665 (dropReq r t))))) ∧
    (∀ (e : Fin 256) (r r2 : Run) (n : Nat) (w : EWord), Running s t → (getEng t e.val).run = some r → r.ended = none
      → nextWord t e.val = some (r2, n, w) → 5800 < issueAt w r + costOf w →
      exec (.runBudgetExpiry e) s = .next (settle (overrun e.val r t))) ∧
    (∀ (e : Fin 256) (pass : Bool), Running s t → engTestDue t e.val = true →
      exec (.engineSelfTest e pass) s = .next (settle (engTested e.val pass t))) ∧
    (∀ (page : Fin 32768), Running s t → (getPg t page.val).zero ≠ none → (getPg t page.val).marked = false →
      exec (.zeroiseDone page) s = .next (settle (setPg page.val {} { t with
        str := { t.str with
          mem := t.str.mem.filter (fun b => b.1 / 4096 != page.val), errs := SMap.del page.val t.str.errs, inject :=
            SMap.del page.val t.str.inject } }))) ∧
    (∀ (ch : Fin 16) (l : Bool) (data : HostRead Bytes) (u : State), Running s t → u = lateRead data (lateRead ({
        value := none, late := l } : HostRead (Vector Byte 32)) t) → (getCh u ch.val).run ≠ none → (getCh u
      ch.val).cur = none → (getCh u ch.val).abort = none →
      exec (.dmaDescriptor ch { value := none, late := l } data) s = .next (settle (chainError ch.val stTimeout u))) ∧
    (∀ (ch : Fin 16) (desc : Vector Byte 32) (l : Bool) (data : HostRead Bytes) (u : State), Running s t → u =
      lateRead data (lateRead { value := some desc, late := l } t) → (getCh u ch.val).run ≠ none → (getCh u
      ch.val).cur = none → (getCh u ch.val).abort = none → (getCh u ch.val).index < 4096 → descOk desc.toList = true →
      (descOf desc.toList).feed = false → descBad u ((getCh u ch.val).tenant.getD 64) (descOf desc.toList) = none →
      exec (.dmaDescriptor ch { value := some desc, late := l } data) s = .next (settle (updCh ch.val (fun x => { x
          with cur := some { desc := descOf desc.toList, data := data.value.getD [] }, pages := descPages (descOf
                 desc.toList) }) u))) ∧
    (∀ (ch : Fin 16) (x : DmaCur) (u : State), Running s t → u = moveRest ch.val t → (getCh u ch.val).cur = some x →
      x.desc.intr = false → (getCh u ch.val).abort = none → x.desc.next ≠ 0 →
      exec (.descriptorComplete ch) s = .next (settle (bump (chCnt ch.val 1) (updCh ch.val (fun y => { y with
        cur := none, pages := [], index := y.index + 1, next := x.desc.next }) u)))) ∧
    (Running s t →
      exec .mergeFlushTimeout s = .next (settle (((t.str.merge.filter fun e => e.at_ + 64 ≤ t.elapsed).map
      (·.page)).foldl (flushFor 1) t))) ∧
    (∀ (page : Fin 32768) (ones zs : Nat), Running s t → (getPg t page.val).quar ≠ none → t.parN 0xE003 0 = 1 → ones ≤
      pageT t page.val → ones < t.parN 0xE001 0 → zs ≤ pageT t page.val → zs < t.parN 0xE001 0 →
      exec (.quarantineTest page ones zs) s = .next (settle (raise 0xEC (bump 1739 (setPg page.val {
        zero := some t.elapsed } t))))) ∧
    (∀ (o : FlashOp) (rest : List FlashOp) (x : State), Running s t → t.flash.ops = o :: rest → o.kind = .fallowRecord
      → fallowWrite (t.str.fallowList ++ (chunks 2 o.data).map unle) t = some x →
      exec (.fallowRecordWritten true) s = .next (settle (finishOpt o.owner .ok (((chunks 2 o.data).map unle).foldl
      fallowed (flashEnded 0 x))))) ∧
    (∀ (o : FlashOp) (rest : List FlashOp), Running s t → t.flash.ops = o :: rest → o.kind = .fallowRecord →
      exec (.fallowRecordWritten false) s = .next (settle (finishOpt o.owner (.st 0x1E06) (((chunks 2 o.data).map
      unle).foldl (fun s g => setPg g { retired := true } s) (flashEnded 0x1E06 t))))) ∧
    (Running s t → t.parN 0xE002 0 ≠ 0 → t.str.periodic = none → t.str.lastScrub + t.parN 0xE002 0 * 500000 ≤
      t.elapsed →
      exec .periodicScrub s = .next (settle { t with
        str := { t.str with
          lastScrub := t.elapsed, periodic := some { owner := none, first := 0, count := 32768, began := t.tick } }
          })) ∧
    (∀ (x : State), Running s t → t.obs.harvWriting = true → byteAt (t.par 0xF002 0) 0 ≠ 0 → t.obs.harvLost = false →
      x = harvestPlace (t.par 0xF002 0) t.obs.harvRec t →
      exec .harvestRecordWritten s = .next (settle (raise 0xF0 (bump 1920 { x with
        obs := { x.obs with
          harvWriting := false, harvRec := [], harvTail := (x.obs.harvTail + 1) % max 1 (fld (t.par 0xF002 0) 4 2) }
          })))) ∧
    (Running s t →
      exec .pageRequestTimeout s = .next (settle ((t.stw.reqs.filter fun r => r.wait && 750000 ≤ t.elapsed -
      r.at_).foldl (fun s r => finish r.owner (.st stNoResource) (bump 1665 (dropReq r s))) t))) ∧
    (∀ (page : Fin 32768), Running s t → (getPg t page.val).zero ≠ none → (getPg t page.val).marked = true →
      exec (.zeroiseDone page) s = .next (settle ((startFallow none [page.val] (setPg page.val {} { t with
        str := { t.str with
          mem := t.str.mem.filter (fun b => b.1 / 4096 != page.val), errs := SMap.del page.val t.str.errs, inject :=
            SMap.del page.val t.str.inject } })).2))) ∧
    (∀ (ch : Fin 16) (desc : Vector Byte 32) (l : Bool) (data : HostRead Bytes) (u : State), Running s t → u =
      lateRead data (lateRead { value := some desc, late := l } t) → (getCh u ch.val).run ≠ none → (getCh u
      ch.val).cur = none → (getCh u ch.val).abort = none → (4096 ≤ (getCh u ch.val).index ∨ descOk desc.toList =
      false) →
      exec (.dmaDescriptor ch { value := some desc, late := l } data) s = .next (settle (chainError ch.val stBadParam
      u))) ∧
    (∀ (ch : Fin 16) (desc : Vector Byte 32) (l : Bool) (data : HostRead Bytes) (u : State) (n : Nat), Running s t → u
      = lateRead data (lateRead { value := some desc, late := l } t) → (getCh u ch.val).run ≠ none → (getCh u
      ch.val).cur = none → (getCh u ch.val).abort = none → (getCh u ch.val).index < 4096 → descOk desc.toList = true →
      (descOf desc.toList).feed = true → (getCrc u (descOf desc.toList).crc).claim = some n → n ≠ ch.val →
      exec (.dmaDescriptor ch { value := some desc, late := l } data) s = .next (settle (chainError ch.val 0x1E05 u))) ∧
    (∀ (ch : Fin 16) (desc : Vector Byte 32) (l : Bool) (data : HostRead Bytes) (u : State) (x : State), Running s t →
      u = lateRead data (lateRead { value := some desc, late := l } t) → (getCh u ch.val).run ≠ none → (getCh u
      ch.val).cur = none → (getCh u ch.val).abort = none → (getCh u ch.val).index < 4096 → descOk desc.toList = true →
      (descOf desc.toList).feed = true → ((getCrc u (descOf desc.toList).crc).claim = none ∨ (getCrc u (descOf
      desc.toList).crc).claim = some ch.val) → x = updCrc (descOf desc.toList).crc (fun c => { c with
        claim := some ch.val }) u → descBad x ((getCh u ch.val).tenant.getD 64) (descOf desc.toList) = none →
      exec (.dmaDescriptor ch { value := some desc, late := l } data) s = .next (settle (updCh ch.val (fun y => { y
          with cur := some { desc := descOf desc.toList, data := data.value.getD [] }, pages := descPages (descOf
                 desc.toList) }) x))) ∧
    (∀ (ch : Fin 16) (desc : Vector Byte 32) (l : Bool) (data : HostRead Bytes) (u : State) (a : Nat), Running s t → u
      = lateRead data (lateRead { value := some desc, late := l } t) → (getCh u ch.val).run ≠ none → (getCh u
      ch.val).cur = none → (getCh u ch.val).abort = none → (getCh u ch.val).index < 4096 → descOk desc.toList = true →
      (descOf desc.toList).feed = false → descBad u ((getCh u ch.val).tenant.getD 64) (descOf desc.toList) = some a →
      exec (.dmaDescriptor ch { value := some desc, late := l } data) s = .next (settle (chainEnd ch.val 0x1E02
      (countFault ((getCh u ch.val).tenant.getD 64) (raise 0xE9 (bump (chCnt ch.val 2) (updCh ch.val (fun x => { x
          with addr := a }) u))))))) ∧
    (∀ (ch : Fin 16) (z : DmaCur) (n : Nat) (u x y : State), Running s t → u = moveRest ch.val t → (getCh u
      ch.val).cur = some z → (getCh u ch.val).abort = some n → x = bump (chCnt ch.val 1) (updCh ch.val (fun y => { y
          with cur := none, pages := [], index := y.index + 1, next := z.desc.next }) u) → y = (if z.desc.intr then
      signal (byteAt (x.par 0xE011 0) ch.val % 64) x else x) →
      exec (.descriptorComplete ch) s = .next (settle (chainAborted ch.val n y))) ∧
    (∀ (ch : Fin 16) (z : DmaCur) (u x y : State), Running s t → u = moveRest ch.val t → (getCh u ch.val).cur = some z
      → (getCh u ch.val).abort = none → x = bump (chCnt ch.val 1) (updCh ch.val (fun y => { y with
        cur := none, pages := [], index := y.index + 1, next := z.desc.next }) u) → y = (if z.desc.intr then signal
      (byteAt (x.par 0xE011 0) ch.val % 64) x else x) →
      exec (.descriptorComplete ch) s = .next (settle (if z.desc.next = 0 then chainEnd ch.val 0 y else y))) ∧
    (∀ (ch : Fin 16), Running s t → (getCh (moveRest ch.val t) ch.val).cur = none →
      exec (.descriptorComplete ch) s = .next (settle (moveRest ch.val t))) ∧
    (∀ (page : Fin 32768) (ones zs : Nat), Running s t → (getPg t page.val).quar ≠ none → t.parN 0xE003 0 = 1 → (pageT
      t page.val < ones ∨ t.parN 0xE001 0 ≤ ones ∨ pageT t page.val < zs ∨ t.parN 0xE001 0 ≤ zs) →
      exec (.quarantineTest page ones zs) s = .next (settle ((startFallow none [page.val] (bump 1740 t)).2))) ∧
    (Running s t → t.obs.harvWriting = true → (byteAt (t.par 0xF002 0) 0 = 0 ∨ t.obs.harvLost = true) →
      exec .harvestRecordWritten s = .next (settle { t with
        obs := { t.obs with harvWriting := false, harvRec := [] } }))

/-- Ticks, freezes, executions, shadowed fields, Harvest, epochs and automatic switches. TICK, ENTRY_FREEZE,
TIMED_ACTION_EXECUTE, SHADOW_APPLY, HARVEST, EPOCH_BOUNDARY, AUTOMATIC_SWITCH. For every state in which the clause's
condition holds, exec answers exactly the state the clause writes out, with the window of the tick opened first where
the row acts inside the tick. Several outcomes of one form stand in clauses of their own. That each row does one due
item is log entry 11. -/
def Obligations.WindowRowsAct : Prop :=
  ∀ t : State,
    (∀ (e : Entry) (rest : List Entry), stopped t = false → freezesDue t = e :: rest →
      exec .entryFreeze t = .next (settle (freezeEntry e t))) ∧
    (∀ (e : Entry), stopped t = false → nextDue t = some e → e.isStep = false → e.frozen = true →
      exec .timedActionExecute t = .next (settle (runEntry e t))) ∧
    (∀ (e : Entry), stopped t = false → nextDue t = some e → e.isStep = true →
      exec .timedActionExecute t = .next (settle (stepNow e t))) ∧
    (∀ (w : Nat × BitVec 16), stopped t = false → t.sys.gpioWait.find? (fun w => w.1 ≤ t.elapsed) = some w →
      exec .shadowApply t = .next (settle { t with
        sys := { t.sys with gpioOut := w.2, gpioWait := t.sys.gpioWait.erase w } })) ∧
    (stopped t = false → harvestDue t = true →
      exec .harvest t = .next (settle (takeHarvest { t with harvestDone := true }))) ∧
    (∀ (c : Line) (x : State), stopped t = false → autoMask t c ≠ 0 → x = (saSet (autoMask t c)).foldl (fun s _ =>
      raise (lineEvt 0x80 c 7) s) (addInternal (.autoSwitch c (autoMask t c)) (roundUp 256 (t.tick + 256)) t) →
      (freezesDue x).find? (isAuto c) = none → (entriesDue x).find? (isAuto c) = none →
      exec (.automaticSwitch c) t = .next (settle x)) ∧
    (∀ (c : Line) (e : Entry), stopped t = false → autoMask t c = 0 → (freezesDue t).find? (isAuto c) = none →
      (entriesDue t).find? (isAuto c) = some e →
      exec (.automaticSwitch c) t = .next (settle (executeEntry e t))) ∧
    (stopped t = false → t.leaseDone = false → t.tick % 500 = 0 →
      exec .epochBoundary t = .next (settle (leases { t with leaseDone := true }))) ∧
    (∀ (i : TickIn), stopped t = false → stopped (openWindow t) = false →
      exec (.tick i) t = .next (settle (nextTick (workSpan i (openWindow t)))))

/-- Every instruction of a line-frame sequencer has its effect, and only listed ones are valid in each program. At
the program counter of a run each instruction has exactly the effect written; LDT with an immediate of 4 or more
reads a free value (the model's choice, log entry 57). The instructions allowed in the receive and transmit programs
are those listed. -/
def Obligations.SequencerInstructionsRun : Prop :=
  (∀ (d : Dir) (op : Nat), seqAllowed d op =
    (decide (op ∈ [0x00, 0x01, 0x02, 0x03, 0x04, 0x05, 0x06, 0x07, 0x08, 0x09, 0x0A, 0x0B, 0x0C, 0x0D, 0x10, 0x11, 0x12,
      0x13]) || decide (d = .rx ∧ op ∈ [0x0E, 0x14, 0x15]) || decide (d = .tx ∧ op = 0x0F))) ∧
  ∀ (s t : State) (c : Line) (d : Dir) (w : Nat), Running s t → seqWord t c d = some w →
    (seqOp w = 0x00 →
      exec (.seqEnd c d) s = .next (settle (seqStop c d (updSeq c d (fun q => { q with running := false }) t)))) ∧
    (seqOp w = 0x01 →
      exec (.seqLdi c d) s = .next (settle (seqStop c d (updSeq c d (fun q => (q.setReg (seqD w) (seqImm w)).skip 0)
      t)))) ∧
    (seqOp w = 0x02 →
      exec (.seqLdh c d) s = .next (settle (seqStop c d (updSeq c d (fun q => (q.setReg (seqD w) (q.reg (seqD w) % 2 ^
      16 + 2 ^ 16 * seqImm w)).skip 0) t)))) ∧
    (seqOp w = 0x03 →
      exec (.seqAdd c d) s = .next (settle (seqStop c d (updSeq c d (fun q => (q.setReg (seqD w) (q.reg (seqA w) +
      q.reg (seqB w))).skip 0) t)))) ∧
    (seqOp w = 0x04 →
      exec (.seqAddi c d) s = .next (settle (seqStop c d (updSeq c d (fun q => (q.setReg (seqD w) (q.reg (seqA w) + ux
      32 (sx 16 (seqImm w)))).skip 0) t)))) ∧
    (seqOp w = 0x05 →
      exec (.seqAnd c d) s = .next (settle (seqStop c d (updSeq c d (fun q => (q.setReg (seqD w) (q.reg (seqA w) &&&
      q.reg (seqB w))).skip 0) t)))) ∧
    (seqOp w = 0x06 →
      exec (.seqOr c d) s = .next (settle (seqStop c d (updSeq c d (fun q => (q.setReg (seqD w) (q.reg (seqA w) |||
      q.reg (seqB w))).skip 0) t)))) ∧
    (seqOp w = 0x07 →
      exec (.seqXor c d) s = .next (settle (seqStop c d (updSeq c d (fun q => (q.setReg (seqD w) (q.reg (seqA w) ^^^
      q.reg (seqB w))).skip 0) t)))) ∧
    (seqOp w = 0x08 →
      exec (.seqShl c d) s = .next (settle (seqStop c d (updSeq c d (fun q => (q.setReg (seqD w) (q.reg (seqA w) <<<
      (seqImm w % 32))).skip 0) t)))) ∧
    (seqOp w = 0x09 →
      exec (.seqShr c d) s = .next (settle (seqStop c d (updSeq c d (fun q => (q.setReg (seqD w) (q.reg (seqA w) >>>
      (seqImm w % 32))).skip 0) t)))) ∧
    (seqOp w = 0x0A → seqImm w = 0 →
      exec (.seqLdt c d) s = .next (settle (seqStop c d (updSeq c d (fun q =>
        (q.setReg (seqD w) q.tickLo).skip 0) t)))) ∧
    (seqOp w = 0x0A → seqImm w = 1 →
      exec (.seqLdt c d) s = .next (settle (seqStop c d (updSeq c d (fun q => (q.setReg (seqD w) q.mfc).skip 0) t)))) ∧
    (seqOp w = 0x0A → seqImm w = 2 →
      exec (.seqLdt c d) s = .next (settle (seqStop c d (updSeq c d (fun q =>
        (q.setReg (seqD w) (b2n q.valid)).skip 0) t)))) ∧
    (seqOp w = 0x0A → seqImm w = 3 →
      exec (.seqLdt c d) s = .next (settle (seqStop c d (updSeq c d (fun q =>
        (q.setReg (seqD w) c.inst).skip 0) t)))) ∧
    (seqOp w = 0x0A → 4 ≤ seqImm w →
      exec (.seqLdt c d) s = .next (settle (seqStop c d (updSeq c d (fun q =>
        (q.setReg (seqD w) t.fresh.1).skip 0) t.fresh.2)))) ∧
    (seqOp w = 0x0B →
      exec (.seqLdp c d) s = .next (settle (seqStop c d (updSeq c d (fun q => (q.setReg (seqD w) (fld (seqParm t c
      d) (4 * (seqImm w % 16)) 4)).skip 0) t)))) ∧
    (seqOp w = 0x0C →
      exec (.seqLds c d) s = .next (settle (seqStop c d (updSeq c d (fun q => (q.setReg (seqD w) (q.st.getD (seqImm w
      % 8) 0)).skip 0) t)))) ∧
    (seqOp w = 0x0D →
      exec (.seqSts c d) s = .next (settle (seqStop c d (updSeq c d (fun q => Seqr.skip 0 { q with
        st := q.st.set (seqImm w % 8) (q.reg (seqA w)) }) t)))) ∧
    (seqOp w = 0x0E →
      exec (.seqRdb c d) s = .next (settle (seqStop c d (updSeq c d (fun q => (q.setReg (seqD w) (if q.valid then
      byteAt q.bytes (seqImm w % 32) else 0)).skip 0) t)))) ∧
    (seqOp w = 0x0F →
      exec (.seqWrb c d) s = .next (settle (seqStop c d (updSeq c d (fun q => Seqr.skip 0 { q with
        bytes := q.bytes.set (seqImm w % 32) (byteOf (q.reg (seqA w))) }) t)))) ∧
    (seqOp w = 0x10 →
      exec (.seqCrc8 c d) s = .next (settle (seqStop c d (updSeq c d (fun q => (q.setReg (seqD w) (crcByteM 8 0x07
      (q.reg (seqD w) % 256) (byteOf (q.reg (seqA w))))).skip 0) t)))) ∧
    (seqOp w = 0x11 →
      exec (.seqSkeq c d) s = .next (settle (seqStop c d (updSeq c d (fun q => q.skip (if q.reg (seqA w) = q.reg (seqB
      w) then seqImm w % 64 else 0)) t)))) ∧
    (seqOp w = 0x12 →
      exec (.seqSkne c d) s = .next (settle (seqStop c d (updSeq c d (fun q => q.skip (if q.reg (seqA w) ≠ q.reg (seqB
      w) then seqImm w % 64 else 0)) t)))) ∧
    (seqOp w = 0x13 →
      exec (.seqSklt c d) s = .next (settle (seqStop c d (updSeq c d (fun q => q.skip (if q.reg (seqA w) < q.reg (seqB
      w) then seqImm w % 64 else 0)) t)))) ∧
    (seqOp w = 0x14 →
      exec (.seqCnt c d) s = .next (settle (seqStop c d (bump (frmCnt c (15 + seqImm w % 4)) (updSeq c d (fun q =>
      q.skip 0) t))))) ∧
    (seqOp w = 0x15 → (getSeq t c d).evt = none →
      exec (.seqEvt c d) s = .next (settle (seqStop c d (raise (lineEvt 0x60 c 7) (updSeq c d (fun q => Seqr.skip 0 {
          q with evt := some (seqImm w % 256) }) t))))) ∧
    (seqOp w = 0x15 → (getSeq t c d).evt ≠ none →
      exec (.seqEvt c d) s = .next (settle (seqStop c d (updSeq c d (fun q => q.skip 0) t))))

/-- Every instruction of a tick engine issues with its own operation. For every engine whose run is at an instruction
of class and function as listed, the row of that instruction issues it with its operation. What rows of other
instructions do then is log entry 114. -/
def Obligations.EngineInstructionsIssue : Prop :=
  ∀ (s t : State) (e : Fin 256) (r : Run) (code : Nat) (w : EWord), Running s t →
    nextWord t e.val = some (r, code, w) →
    (w.cls = 0 → w.fn = 0 →
      exec (.engEnd e) s = .next (settle (issue opEnd e.val code w r t))) ∧
    (w.cls = 0 → w.fn = 1 →
      exec (.engNop e) s = .next (settle (issue opNop e.val code w r t))) ∧
    (w.cls = 0 → w.fn = 2 →
      exec (.engBr e) s = .next (settle (issue opBr e.val code w r t))) ∧
    (w.cls = 0 → w.fn = 3 →
      exec (.engEvt e) s = .next (settle (issue opEvt e.val code w r t))) ∧
    (w.cls = 0 → w.fn = 4 →
      exec (.engSys e) s = .next (settle (issue opSys e.val code w r t))) ∧
    (w.cls = 1 → w.fn = 0 →
      exec (.engAdd e) s = .next (settle (issue opAdd e.val code w r t))) ∧
    (w.cls = 1 → w.fn = 1 →
      exec (.engSub e) s = .next (settle (issue opSub e.val code w r t))) ∧
    (w.cls = 1 → w.fn = 2 →
      exec (.engAnd e) s = .next (settle (issue opAnd e.val code w r t))) ∧
    (w.cls = 1 → w.fn = 3 →
      exec (.engOr e) s = .next (settle (issue opOr e.val code w r t))) ∧
    (w.cls = 1 → w.fn = 4 →
      exec (.engXor e) s = .next (settle (issue opXor e.val code w r t))) ∧
    (w.cls = 1 → w.fn = 5 →
      exec (.engShl e) s = .next (settle (issue opShl e.val code w r t))) ∧
    (w.cls = 1 → w.fn = 6 →
      exec (.engShr e) s = .next (settle (issue opShr e.val code w r t))) ∧
    (w.cls = 1 → w.fn = 7 →
      exec (.engSar e) s = .next (settle (issue opSar e.val code w r t))) ∧
    (w.cls = 1 → w.fn = 8 →
      exec (.engMovi e) s = .next (settle (issue opMovi e.val code w r t))) ∧
    (w.cls = 1 → w.fn = 9 →
      exec (.engAddi e) s = .next (settle (issue opAddi e.val code w r t))) ∧
    (w.cls = 1 → w.fn = 10 →
      exec (.engCmpeq e) s = .next (settle (issue opCmpeq e.val code w r t))) ∧
    (w.cls = 1 → w.fn = 11 →
      exec (.engCmplt e) s = .next (settle (issue opCmplt e.val code w r t))) ∧
    (w.cls = 1 → w.fn = 12 →
      exec (.engCmpltu e) s = .next (settle (issue opCmpltu e.val code w r t))) ∧
    (w.cls = 2 → w.fn = 0 →
      exec (.engMul e) s = .next (settle (issue opMul e.val code w r t))) ∧
    (w.cls = 2 → w.fn = 1 →
      exec (.engMulh e) s = .next (settle (issue opMulh e.val code w r t))) ∧
    (w.cls = 2 → w.fn = 2 →
      exec (.engMulhu e) s = .next (settle (issue opMulhu e.val code w r t))) ∧
    (w.cls = 3 → w.fn = 0 →
      exec (.engVadd e) s = .next (settle (issue opVadd e.val code w r t))) ∧
    (w.cls = 3 → w.fn = 1 →
      exec (.engVsub e) s = .next (settle (issue opVsub e.val code w r t))) ∧
    (w.cls = 3 → w.fn = 2 →
      exec (.engVadds e) s = .next (settle (issue opVadds e.val code w r t))) ∧
    (w.cls = 3 → w.fn = 3 →
      exec (.engVsubs e) s = .next (settle (issue opVsubs e.val code w r t))) ∧
    (w.cls = 3 → w.fn = 4 →
      exec (.engVmin e) s = .next (settle (issue opVmin e.val code w r t))) ∧
    (w.cls = 3 → w.fn = 5 →
      exec (.engVmax e) s = .next (settle (issue opVmax e.val code w r t))) ∧
    (w.cls = 3 → w.fn = 6 →
      exec (.engVand e) s = .next (settle (issue opVand e.val code w r t))) ∧
    (w.cls = 3 → w.fn = 7 →
      exec (.engVor e) s = .next (settle (issue opVor e.val code w r t))) ∧
    (w.cls = 3 → w.fn = 8 →
      exec (.engVxor e) s = .next (settle (issue opVxor e.val code w r t))) ∧
    (w.cls = 3 → w.fn = 9 →
      exec (.engVshl e) s = .next (settle (issue opVshl e.val code w r t))) ∧
    (w.cls = 3 → w.fn = 10 →
      exec (.engVshr e) s = .next (settle (issue opVshr e.val code w r t))) ∧
    (w.cls = 3 → w.fn = 11 →
      exec (.engVsar e) s = .next (settle (issue opVsar e.val code w r t))) ∧
    (w.cls = 3 → w.fn = 12 →
      exec (.engVcmpeq e) s = .next (settle (issue opVcmpeq e.val code w r t))) ∧
    (w.cls = 3 → w.fn = 13 →
      exec (.engVcmplt e) s = .next (settle (issue opVcmplt e.val code w r t))) ∧
    (w.cls = 4 → w.fn = 0 →
      exec (.engVmul e) s = .next (settle (issue opVmul e.val code w r t))) ∧
    (w.cls = 4 → w.fn = 1 →
      exec (.engMac e) s = .next (settle (issue opMac e.val code w r t))) ∧
    (w.cls = 4 → w.fn = 2 →
      exec (.engCmul e) s = .next (settle (issue opCmul e.val code w r t))) ∧
    (w.cls = 4 → w.fn = 3 →
      exec (.engCmac e) s = .next (settle (issue opCmac e.val code w r t))) ∧
    (w.cls = 4 → w.fn = 4 →
      exec (.engCmacc e) s = .next (settle (issue opCmacc e.val code w r t))) ∧
    (w.cls = 5 → w.fn = 0 →
      exec (.engBcast e) s = .next (settle (issue opBcast e.val code w r t))) ∧
    (w.cls = 5 → w.fn = 1 →
      exec (.engShuf e) s = .next (settle (issue opShuf e.val code w r t))) ∧
    (w.cls = 5 → w.fn = 2 →
      exec (.engRot e) s = .next (settle (issue opRot e.val code w r t))) ∧
    (w.cls = 5 → w.fn = 3 →
      exec (.engRedadd e) s = .next (settle (issue opRedadd e.val code w r t))) ∧
    (w.cls = 5 → w.fn = 4 →
      exec (.engIns e) s = .next (settle (issue opIns e.val code w r t))) ∧
    (w.cls = 5 → w.fn = 5 →
      exec (.engExt e) s = .next (settle (issue opExt e.val code w r t))) ∧
    (w.cls = 6 → w.fn = 0 →
      exec (.engPand e) s = .next (settle (issue opPand e.val code w r t))) ∧
    (w.cls = 6 → w.fn = 1 →
      exec (.engPor e) s = .next (settle (issue opPor e.val code w r t))) ∧
    (w.cls = 6 → w.fn = 2 →
      exec (.engPnot e) s = .next (settle (issue opPnot e.val code w r t))) ∧
    (w.cls = 6 → w.fn = 3 →
      exec (.engPmov e) s = .next (settle (issue opPmov e.val code w r t))) ∧
    (w.cls = 7 → w.fn = 0 →
      exec (.engLd e) s = .next (settle (issue opLd e.val code w r t))) ∧
    (w.cls = 7 → w.fn = 1 →
      exec (.engSt e) s = .next (settle (issue opSt e.val code w r t))) ∧
    (w.cls = 7 → w.fn = 2 →
      exec (.engVld e) s = .next (settle (issue opVld e.val code w r t))) ∧
    (w.cls = 7 → w.fn = 3 →
      exec (.engVst e) s = .next (settle (issue opVst e.val code w r t))) ∧
    (w.cls = 8 → w.fn = 0 →
      exec (.engVin e) s = .next (settle (issue opVin e.val code w r t))) ∧
    (w.cls = 8 → w.fn = 1 →
      exec (.engVout e) s = .next (settle (issue opVout e.val code w r t))) ∧
    (w.cls = 8 → w.fn = 2 →
      exec (.engSin e) s = .next (settle (issue opSin e.val code w r t))) ∧
    (w.cls = 8 → w.fn = 3 →
      exec (.engSout e) s = .next (settle (issue opSout e.val code w r t))) ∧
    (w.cls = 9 → w.fn = 0 →
      exec (.engSld e) s = .next (settle (issue opSld e.val code w r t))) ∧
    (w.cls = 9 → w.fn = 1 →
      exec (.engSst e) s = .next (settle (issue opSst e.val code w r t))) ∧
    (w.cls = 9 → w.fn = 2 →
      exec (.engSwait e) s = .next (settle (issue opSwait e.val code w r t)))

/-- Scalar arithmetic of engines: result, guard, frame and P0. For every run: without guard bit 0 nothing changes;
with it, Sd holds the result and every other register and the state are unchanged; P0 reads as ones and writes to it
are discarded. Shifts of 64 or more are free (log entry 107) and not claimed. -/
def Obligations.EngineScalarResults : Prop :=
  ∀ (i : Issue) (w : EWord) (r : Run) (s : State) (op : EngOp) (v : BitVec 64), r.sr.length = 16 → w.d < 16 →
    (op, v) ∈ [(opAdd, r.s w.a + r.s w.b), (opSub, r.s w.a - r.s w.b), (opAnd, r.s w.a &&& r.s w.b),
      (opOr, r.s w.a ||| r.s w.b), (opXor, r.s w.a ^^^ r.s w.b), (opMovi, w.imm.signExtend 64),
      (opAddi, r.s w.a + w.imm.signExtend 64), (opMul, r.s w.a * r.s w.b),
      (opMulhu, BitVec.ofNat 64 ((r.s w.a).toNat * (r.s w.b).toNat / 2 ^ 64)),
      (opMulh, BitVec.ofInt 64 (((r.s w.a).toInt * (r.s w.b).toInt).fdiv (2 ^ 64)))] ∨
    (op, v) ∈ [(opShl, r.s w.a <<< (r.s w.b).toNat), (opShr, r.s w.a >>> (r.s w.b).toNat),
      (opSar, (r.s w.a).sshiftRight (r.s w.b).toNat)] ∧ (r.s w.b).toNat < 64 →
    ((r.p w.guard).getLsbD 0 = false → op i w r s = (r, s)) ∧
    ((r.p w.guard).getLsbD 0 = true → (op i w r s).2 = s ∧ (op i w r s).1.s w.d = v ∧
      (∀ n, n ≠ w.d → (op i w r s).1.s n = r.s n) ∧ (op i w r s).1 = { r with sr := (op i w r s).1.sr }) ∧
    r.p 0 = BitVec.allOnes 64 ∧ r.setP 0 v = r

/-- Vector arithmetic of engines, lane by lane, at every width. For every run, guard and lane width: each guarded
lane of Vd holds the operation of the lanes of Va and Vb, each other lane what it held; no other vector register and
nothing else changes. That MIN, MAX, ADDS and SUBS are signed is the model's reading (log entry 108). -/
def Obligations.EngineVectorLanes : Prop :=
  ∀ (i : Issue) (w : EWord) (r : Run) (s : State) (k : Nat) (op : EngOp) (f : Nat → Nat → Nat), r.vr.length = 32 →
    w.d < 32 → w.width < 4 → k = laneW w →
    (op, f) ∈ [(opVadd, fun a b => a + b), (opVsub, fun a b => a + 2 ^ k - b),
      (opVadds, fun a b => satLane k (sx k a + sx k b)), (opVsubs, fun a b => satLane k (sx k a - sx k b)),
      (opVmin, fun a b => if sx k a ≤ sx k b then a else b), (opVmax, fun a b => if sx k a ≤ sx k b then b else a),
      (opVand, fun a b => a &&& b), (opVor, fun a b => a ||| b), (opVxor, fun a b => a ^^^ b),
      (opVmul, fun a b => a * b)] →
    (op i w r s).2 = s ∧
    (∀ j, j < 512 / k → (lanes k ((op i w r s).1.v w.d)).getD j 0 =
      if (r.p w.guard).getLsbD (j * (k / 8)) then f ((lanes k (r.v w.a)).getD j 0) ((lanes k (r.v w.b)).getD j 0) % 2 ^ k
      else (lanes k (r.v w.d)).getD j 0) ∧
    (∀ n, n ≠ w.d → (op i w r s).1.v n = r.v n) ∧ (op i w r s).1 = { r with vr := (op i w r s).1.vr }

/-- Engine stores and loads in local memory: the bytes written, the frame, and the abort outside the data region. ST
writes its bytes little-endian at the accessed address in its engine's memory and nothing else; LD reads them; an
access outside the region ends the run as refused. -/
def Obligations.EngineLocalMemory : Prop :=
  ∀ (i : Issue) (w : EWord) (r : Run) (s : State), SMap.wf ({} : Eng) s.stw.engs = true →
    SMap.wf (0 : Byte) (getEng s i.e).mem = true → (r.p w.guard).getLsbD 0 = true →
    (localBad i.code (accAddr w r) (2 ^ w.width) = none →
      (opSt i w r s).1 = r ∧ s = { (opSt i w r s).2 with stw := s.stw } ∧
      (opSt i w r s).2.stw = { s.stw with engs := (opSt i w r s).2.stw.engs } ∧
      (∀ e, e ≠ i.e → getEng (opSt i w r s).2 e = getEng s e) ∧
      (∀ a, SMap.get 0 (getEng (opSt i w r s).2 i.e).mem a =
        if accAddr w r ≤ a ∧ a < accAddr w r + 2 ^ w.width then
          (le (2 ^ w.width) (r.s w.b).toNat).getD (a - accAddr w r) 0
        else SMap.get 0 (getEng s i.e).mem a) ∧
      (opLd i w r s).2 = s ∧
      (opLd i w r s).1 = r.setS w.d (BitVec.ofNat 64 (unle (SMap.getAll 0 (getEng s i.e).mem (accAddr w r) (2 ^ w.width))))) ∧
    ∀ x, localBad i.code (accAddr w r) (2 ^ w.width) = some x →
      opSt i w r s = refused i 0 x r s ∧ opLd i w r s = refused i 0 x r s ∧ (refused i 0 x r s).1.ended = some 2

/-- A counter adds, or holds 2^48 − 1 and sets SAT. For every counter and increment: below the maximum it adds and
nothing else changes; beyond, it holds 2^48 − 1 with SAT set, COUNTER_SATURATED at most once per tick, and no other
counter below 1856 changes. -/
def Obligations.CountersHoldAtMaximum : Prop :=
  ∀ (n k : Nat) (s : State), SMap.wf 0 s.obs.cnt = true → SMap.wf false s.obs.sat = true →
    let t := bumpBy n k s
    (s.count n + k ≤ 2 ^ 48 - 1 →
      t.count n = s.count n + k ∧ t.ev = s.ev ∧ t.obs.sat = s.obs.sat ∧ ∀ x, x ≠ n → t.count x = s.count x) ∧
    (2 ^ 48 - 1 < s.count n + k →
      t.count n = 2 ^ 48 - 1 ∧ SMap.get false t.obs.sat n = true ∧ t.satTick = true ∧
      (∀ x, x ≠ n → x < 1856 → t.count x = s.count x) ∧ (s.satTick = true → t.ev = s.ev) ∧
      (s.satTick = false → s.ev.en.getLsbD 0xF3 = true → t.ev.stat.getLsbD 0xF3 = true))

/-- Raising an event: nothing when disabled, no bit and no signal when set, else its status bit, INT_N and one signal
of its vector. For every event: disabled, nothing changes; already set, nothing but the model's note that the tick
set it again; else its status bit sets; unmasked, INT_N is low and its vector is signalled once, or pends while the
vector is masked. -/
def Obligations.EventsSetAndSignal : Prop :=
  ∀ (e v : Nat) (s : State), e < 256 → v = SMap.get 0 s.ev.vec e → SMap.wf 0 s.ev.signals = true →
    let t := raiseStat e s
    (s.ev.en.getLsbD e = false → t = s) ∧
    (s.ev.en.getLsbD e = true → s.ev.stat.getLsbD e = true →
      t = { s with ev := { s.ev with tickSet := s.ev.tickSet ||| BitVec.ofNat 256 (2 ^ e) } }) ∧
    (s.ev.en.getLsbD e = true → s.ev.stat.getLsbD e = false →
      (∀ j, j < 256 → t.ev.stat.getLsbD j = (decide (j = e) || s.ev.stat.getLsbD j)) ∧
      (s.ev.mask.getLsbD e = true → t.ev.signals = s.ev.signals ∧ t.ev.msixPend = s.ev.msixPend) ∧
      (s.ev.mask.getLsbD e = false → (pinsOf t).intN = true ∧
        (msixMasked s v = false → t.ev.msixPend = s.ev.msixPend ∧
          ∀ u, SMap.get 0 t.ev.signals u = SMap.get 0 s.ev.signals u + if u = v then 1 else 0) ∧
        (msixMasked s v = true → v < 64 → t.ev.signals = s.ev.signals ∧
          ∀ u, u < 64 → t.ev.msixPend.getLsbD u = (decide (u = v) || s.ev.msixPend.getLsbD u))))

/-- The reference selected is the manual candidate, else the best candidate, else none. Candidates are the qualified
references with a priority and no wait to restore; in manual mode the manual one wins when it is a candidate; else
the lowest priority value and then the lowest ID. -/
def Obligations.ReferenceSelection : Prop :=
  ∀ s : State,
    (∀ r, r ∈ candidates s ↔ r < 9 ∧ (getRef s r).qualified = true ∧ (getRef s r).priority ≠ 0 ∧
      (getRef s r).wtrEnd = none) ∧
    (s.tm.auto = false → s.tm.manual ∈ candidates s → selectRef s = some s.tm.manual) ∧
    ((s.tm.auto = true ∨ s.tm.manual ∉ candidates s) →
      (candidates s = [] → selectRef s = none) ∧ (candidates s ≠ [] → ∃ r, selectRef s = some r) ∧
      ∀ r, selectRef s = some r → r ∈ candidates s ∧ ∀ x ∈ candidates s,
        (getRef s r).priority < (getRef s x).priority ∨ (getRef s r).priority = (getRef s x).priority ∧ r ≤ x)

/-- A renewed tenant's misses start over; the second miss reclaims its pages. For every tenant with pages at a lease
boundary: renewed sets missed to 0; a first miss sets it to 1 and keeps the pages; a second one reclaims all pages
and raises LEASE_EXPIRED. A tenant without pages has no lease (log entry 98). -/
def Obligations.PageLeases : Prop :=
  ∀ (noEng : Bool) (s : State) (t : Nat), t < s.stw.tenants.length → heldCount s t ≠ 0 →
    let renewed := (getTen s t).renewed || (noEng && tenN s 0xD008 t == 1)
    (renewed = true → (getTen (leaseOne noEng s t) t).missed = 0 ∧ heldPages (leaseOne noEng s t) t = heldPages s t ∧
      (leaseOne noEng s t).ev = s.ev) ∧
    (renewed = false → (getTen s t).missed = 0 → (getTen (leaseOne noEng s t) t).missed = 1 ∧
      heldPages (leaseOne noEng s t) t = heldPages s t ∧ (leaseOne noEng s t).ev = s.ev) ∧
    (renewed = false → 1 ≤ (getTen s t).missed → leaseOne noEng s t = raise 0xD6 (bump (tenCnt t 9) (reclaim t
      (updTen t (fun x => { x with refusals := 0, renewed := false, missed := x.missed + 1 }) s))))

/-- A decided completion enters the cache of 4,096 unless it is BUSY, and answers its resend. A BUSY completion
leaves the cache as it was; any other enters at its head, the oldest leaves beyond 4,096, and a resend with the same
check value is then answered from it. -/
def Obligations.CompletionCache : Prop :=
  ∀ (p : Packet) (op : Nat) (c : Cpl) (timed : Bool) (s : State), s.cmd.cache.length ≤ 4096 →
    let t := decide_ op (packetCrc op p) p c timed s
    (c.status = 0x32 → t.cmd.cache = s.cmd.cache) ∧
    (c.status ≠ 0x32 →
      t.cmd.cache = { key := packetKey p, crc := packetCrc op p, cpl := c } :: s.cmd.cache.take 4095 ∧
      t.cmd.cache.length ≤ 4096 ∧ dupOf t (packetKey p) (packetCrc op p) = .replay c)

/-- Where a completion goes in its CQ, and when it is held or dropped. Written at the write position with the present
phase, which inverts on the wrap, its 32 bytes laid out in host memory, when nothing waits and there is room; held
behind others, while the CQ is full or the firmware restarts; dropped when the queue is disabled. -/
def Obligations.CompletionsWriteInOrder : Prop :=
  ∀ (q : Nat) (c : Cpl) (timed : Bool) (s : State), q < 8 → s.cmd.queues.length = 8 →
    SMap.wf none (getQ s q).ring = true → SMap.wf (0 : Byte) s.hostMem = true →
    let u := getQ s q
    let t := post q c timed s
    ((s.sys.fwRunning = false ∨ u.enabled = true ∧ ((∃ h ∈ s.cmd.held, h.q = q) ∨ (u.cqTail + 1) % 2 ^ u.cqLog2 = u.cqHead)) →
      t = { s with cmd := { s.cmd with held := s.cmd.held ++ [{ q := q, cpl := c, timed := timed }] } }) ∧
    (s.sys.fwRunning = true → u.enabled = false → t = s) ∧
    (s.sys.fwRunning = true → u.enabled = true → (∀ h ∈ s.cmd.held, h.q ≠ q) →
      (u.cqTail + 1) % 2 ^ u.cqLog2 ≠ u.cqHead →
      t.cmd.held = s.cmd.held ∧ (getQ t q).cqTail = (u.cqTail + 1) % 2 ^ u.cqLog2 ∧ (getQ t q).cqHead = u.cqHead ∧
      (getQ t q).phase = (if u.cqTail + 1 = 2 ^ u.cqLog2 then !u.phase else u.phase) ∧
      (∀ i, SMap.get none (getQ t q).ring i = if i = u.cqTail then some { cpl := c, phase := u.phase, sqHead := u.sqHead }
        else SMap.get none u.ring i) ∧
      (∀ a, SMap.get 0 t.hostMem a = if u.cqBase + 32 * u.cqTail ≤ a ∧ a < u.cqBase + 32 * u.cqTail + 32 then
        (entBytes c u.phase u.sqHead).getD (a - (u.cqBase + 32 * u.cqTail)) 0 else SMap.get 0 s.hostMem a) ∧
      ∀ q', q' ≠ q → getQ t q' = getQ s q')

/-- The check values of the CRC algorithms. The nine digits give 0xE3069283, 0xCBF43926, 0x29B1 and
0x995DC9BBDF1939FA under the four algorithms, and 0xE3069283 as command CRC. -/
def Obligations.CrcCheckValues : Prop :=
  let m : Bytes := [0x31, 0x32, 0x33, 0x34, 0x35, 0x36, 0x37, 0x38, 0x39]
  crcResult 0 (crcRun 0 (crcInit 0) m) = 0xE3069283 ∧ crcResult 1 (crcRun 1 (crcInit 1) m) = 0xCBF43926 ∧
  crcResult 2 (crcRun 2 (crcInit 2) m) = 0x29B1 ∧ crcResult 3 (crcRun 3 (crcInit 3) m) = 0x995DC9BBDF1939FA ∧
  crc32c m = 0xE3069283
end

