-- ==== Sys2Proof/Laws/Command.lean ====
section
/-! SUPPORT. Laws/Command.lean: what the shared operations of Entry.lean and Command.lean do, said once: statements about a
command's effect cite these and unfold neither the commit window nor the pipeline. -/
namespace Sys2Proof.Machine

theorem need_eq_none (c : Bool) (r : Refuse) : need c r = none ↔ c = true := by
  cases c <;> simp [need]

theorem firstOf_nil : firstOf [] = none := rfl

theorem firstOf_cons (o : Option Refuse) (l : List (Option Refuse)) :
    firstOf (o :: l) = none ↔ o = none ∧ firstOf l = none := by
  cases o <;> simp [firstOf]

theorem firstOf_append (l k : List (Option Refuse)) :
    firstOf (l ++ k) = none ↔ firstOf l = none ∧ firstOf k = none := by
  induction l with
  | nil => simp [firstOf]
  | cons o l ih => simp only [List.cons_append, firstOf_cons, ih, and_assoc]

theorem clocked_running {f : State → State} {s t : State} (h : Running s t) : clocked f s = .next (settle (f t)) := by
  simp [clocked, h.window, h.clocks]

theorem live_awake {f : State → State} {s t : State} (h : Awake s t) : live f s = .next (settle (f t)) := by
  simp [live, h.window, h.untripped, h.released]

theorem within_running {f : State → State} {s : State} (h : stopped s = false) : within f s = .next (settle (f s)) := by
  simp [within, h]

theorem Taken.command_eq {op : Nat} {p : Packet} {s t : State} (h : Taken op p s t) {pre : State → Option Refuse}
    (hp : pre t = none) (act : State → State) : command op p pre act s = .next (settle (act t)) := by
  obtain ⟨u, hu, hd, hf, rfl⟩ := h.fetched
  have hc : (p.crcPresent && packetCrc op p != p.crc.toNat) = false := by
    cases hx : p.crcPresent
    · rfl
    · simp [h.check hx]
  have hf' : (noted p u).sys.deviceFault = false := hf
  simp [command, h.formed, clocked, h.clocks, hu, handle, h.length, hc, hd, hf', hp]

theorem Ready.checks_eq {i : CmdInfo} {p : Packet} {s t : State} (h : Ready i p s t) {chk : State → Option Refuse}
    (hc : chk t = none) : checks i p chk t = none := by
  simp [checks, firstOf_cons, firstOf_append, firstOf_nil, h.session, h.header, h.params, h.version, hc]

theorem runCmd_ready {i : CmdInfo} {p : Packet} {s t : State} (h : Ready i p s t) {chk : State → Option Refuse}
    (hc : chk t = none) (f : State → Reply × State) :
    runCmd i p chk f s = .next (settle (answer i p (f (accept p t)).1 (f (accept p t)).2)) :=
  h.taken.command_eq (h.checks_eq hc) _

/-- A new command that a check refuses is answered with that refusal. -/
theorem Taken.command_refuse {op : Nat} {p : Packet} {s t : State} (h : Taken op p s t) {pre : State → Option Refuse} {r : Refuse}
    (hp : pre t = some r) (act : State → State) : command op p pre act s = .next (settle (refuse op p r t)) := by
  obtain ⟨u, hu, hd, hf, rfl⟩ := h.fetched
  have hc : (p.crcPresent && packetCrc op p != p.crc.toNat) = false := by
    cases hx : p.crcPresent
    · rfl
    · simp [h.check hx]
  have hf' : (noted p u).sys.deviceFault = false := hf
  simp [command, h.formed, clocked, h.clocks, hu, handle, h.length, hc, hd, hf', hp]

/-- A command of a pool with a free place runs. -/
theorem runPool_ready {i : CmdInfo} {p : Packet} {s t : State} (h : Ready i p s t) {chk : State → Option Refuse}
    {free : State → Bool} (hc : chk t = none) (hf : free t = true) (f : State → Reply × State) :
    runPool i p chk free f s = .next (settle (answer i p (f (accept p t)).1 (f (accept p t)).2)) :=
  h.taken.command_eq (by simp [firstOf_cons, firstOf_nil, h.checks_eq hc, need, hf]) _

/-- A command of a pool without a free place is refused at step 12. -/
theorem runPool_full {i : CmdInfo} {p : Packet} {s t : State} (h : Ready i p s t) {chk : State → Option Refuse}
    {free : State → Bool} (hc : chk t = none) (hf : free t = false) (f : State → Reply × State) :
    runPool i p chk free f s = .next (settle (refuse i.op p { step := 12, st := stNoResource } t)) :=
  h.taken.command_refuse (by simp [firstOf, h.checks_eq hc, need, hf]) _

theorem Placed.checkTimed_eq {cls : ChangeClass} {p : Packet} {t : State} {x : Nat} {late : Bool}
    (h : Placed cls p t x late) : checkTimed cls p t = none := by
  have := h.allowed
  cases ha : p.allowHit <;> simp_all [checkTimed, h.place, need, h.room]

theorem Placed.schedule_eq {cls : ChangeClass} {p : Packet} {t : State} {x : Nat} {late : Bool}
    (h : Placed cls p t x late) (op : Nat) (a : Action) : schedule op p a cls t = scheduled op p a cls x late t := by
  simp [schedule, h.place, scheduled]

theorem runTimed_ready {i : CmdInfo} {p : Packet} {s t : State} (h : Ready i p s t) {chk : State → Option Refuse}
    (hc : chk t = none) {cls : State → ChangeClass} {x : Nat} {late : Bool} (ht : Placed (cls t) p t x late) :
    runTimed i p chk cls s = .next (settle (scheduled i.op p .cmd (cls t) x late t)) := by
  refine (h.taken.command_eq ?_ _).trans (by rw [ht.schedule_eq])
  simp [firstOf_cons, firstOf_nil, h.checks_eq hc, ht.checkTimed_eq]

theorem settle_windowDone (s : State) : (settle s).windowDone = s.windowDone := rfl

/-- A tick whose window is open stays as it is. -/
theorem openWindow_done {s : State} (h : s.windowDone = true) : openWindow s = s := by
  rw [openWindow, h, Bool.or_true, if_pos rfl]

/-- The window is opened once: opening it again changes nothing. -/
theorem openWindow_idem (s : State) : openWindow (openWindow s) = openWindow s := by
  rw [openWindow.eq_def s]
  split
  · rename_i h
    rw [openWindow, if_pos h]
  · generalize windowWork s = w
    exact openWindow_done (settle_windowDone _)

theorem settle_pins (s : State) : (settle s).pins = pinsOf (settle s) := rfl

theorem settle_settle (s : State) : settle (settle s) = settle s := rfl

end Sys2Proof.Machine
end

