-- ==== Sys2Proof/Laws/Frame.lean ====
section
/-! SUPPORT. Laws/Frame.lean: what raising an event, counting, posting a completion and refusing a command can change, said
once for each operation. -/
namespace Sys2Proof.Machine

/-- What raising events and counting can change between two states. -/
structure Reports (s t : State) : Prop where
  rest : s = { t with ev := s.ev, obs := s.obs, satTick := s.satTick }
  en : t.ev.en = s.ev.en
  mask : t.ev.mask = s.ev.mask
  vec : t.ev.vec = s.ev.vec

theorem Reports.refl (s : State) : Reports s s := ⟨rfl, rfl, rfl, rfl⟩

theorem Reports.trans {s t u : State} (h : Reports s t) (k : Reports t u) : Reports s u := by
  refine ⟨?_, k.en.trans h.en, k.mask.trans h.mask, k.vec.trans h.vec⟩
  have hr := h.rest
  have kr := k.rest
  rw [kr] at hr
  exact hr

theorem signal_reports (v : Nat) (s : State) : Reports s (signal v s) := by
  unfold signal; split <;> exact ⟨rfl, rfl, rfl, rfl⟩

theorem raiseStat_reports (e : Nat) (s : State) : Reports s (raiseStat e s) := by
  unfold raiseStat
  split
  · dsimp only
    split
    · exact Reports.trans (t := { s with ev := { s.ev with
        stat := s.ev.stat ||| BitVec.ofNat 256 (2 ^ e), tickSet := s.ev.tickSet ||| BitVec.ofNat 256 (2 ^ e) } })
        ⟨rfl, rfl, rfl, rfl⟩ (signal_reports _ _)
    · exact ⟨rfl, rfl, rfl, rfl⟩
  · exact Reports.refl s

theorem noteRaised_reports (e : Nat) (s : State) : Reports s (noteRaised e s) := ⟨rfl, rfl, rfl, rfl⟩

theorem bumpRaw_reports (n k : Nat) (s : State) : Reports s (bumpRaw n k s) := by
  unfold bumpRaw; dsimp only; split <;> exact ⟨rfl, rfl, rfl, rfl⟩

theorem foldl_reports {α : Type} (f : State → α → State) (h : ∀ s a, Reports s (f s a)) (l : List α) (s : State) :
    Reports s (l.foldl f s) := by
  induction l generalizing s with
  | nil => exact Reports.refl s
  | cons a l ih => exact (h s a).trans (ih _)

theorem raiseSaturated_reports (s : State) : Reports s (raiseSaturated s) := by
  unfold raiseSaturated
  split
  · exact Reports.refl s
  · refine Reports.trans ?_ (raiseStat_reports _ _)
    exact Reports.trans (t := noteRaised 0xF3 { s with satTick := true }) ⟨rfl, rfl, rfl, rfl⟩
      (foldl_reports _ (fun _ _ => bumpRaw_reports _ _ _) _ _)

theorem bumpBy_reports (n k : Nat) (s : State) : Reports s (bumpBy n k s) := by
  unfold bumpBy
  split
  · exact (bumpRaw_reports _ _ _).trans (raiseSaturated_reports _)
  · exact bumpRaw_reports _ _ _

theorem bump_reports (n : Nat) (s : State) : Reports s (bump n s) := bumpBy_reports n 1 s

theorem raise_reports (e : Nat) (s : State) : Reports s (raise e s) := by
  unfold raise
  exact ((noteRaised_reports e s).trans (foldl_reports _ (fun _ _ => bump_reports _ _) _ _)).trans (raiseStat_reports _ _)

theorem raiseIf_reports (c : Bool) (e : Nat) (s : State) : Reports s (raiseIf c e s) := by
  unfold raiseIf; split
  · exact raise_reports e s
  · exact Reports.refl s

/-- What writing or holding a completion can change between two states; what it writes in host memory, Laws/Memory.lean
says. -/
structure Posts (s t : State) : Prop where
  rest : s = { t with cmd := s.cmd, ev := s.ev, obs := s.obs, satTick := s.satTick, hostMem := s.hostMem }
  cmd : s.cmd = { t.cmd with queues := s.cmd.queues, mb := s.cmd.mb, held := s.cmd.held, cache := s.cmd.cache }
  en : t.ev.en = s.ev.en
  mask : t.ev.mask = s.ev.mask
  vec : t.ev.vec = s.ev.vec

theorem Posts.refl (s : State) : Posts s s := ⟨rfl, rfl, rfl, rfl, rfl⟩

theorem Posts.trans {s t u : State} (h : Posts s t) (k : Posts t u) : Posts s u := by
  refine ⟨?_, ?_, k.en.trans h.en, k.mask.trans h.mask, k.vec.trans h.vec⟩
  · have hr := h.rest
    rw [k.rest] at hr
    exact hr
  · have hr := h.cmd
    rw [k.cmd] at hr
    exact hr

theorem Reports.posts {s t : State} (h : Reports s t) : Posts s t := by
  have hc : s.cmd = t.cmd := by rw [h.rest]
  refine ⟨?_, by rw [hc], h.en, h.mask, h.vec⟩
  have hr := h.rest
  rw [← hc] at *
  rw [hr]

theorem updQ_posts (q : Nat) (f : Queue → Queue) (s : State) : Posts s (updQ q f s) := ⟨rfl, rfl, rfl, rfl, rfl⟩

theorem cqSignal_posts (q : Nat) (s : State) : Posts s (cqSignal q s) := by
  unfold cqSignal
  exact (updQ_posts _ _ _).trans (signal_reports _ _).posts

theorem hostWrite_posts (a : Nat) (bs : Bytes) (s : State) : Posts s (hostWrite a bs s) := ⟨rfl, rfl, rfl, rfl, rfl⟩

theorem cqWrite_posts (q : Nat) (c : Cpl) (s : State) : Posts s (cqWrite q c s) := by
  unfold cqWrite
  dsimp only
  refine Posts.trans ?_ (raiseIf_reports _ _ _).posts
  split
  · exact ((hostWrite_posts _ _ _).trans (updQ_posts _ _ _)).trans (cqSignal_posts _ _)
  · exact (hostWrite_posts _ _ _).trans (updQ_posts _ _ _)

theorem post_posts (q : Nat) (c : Cpl) (timed : Bool) (s : State) : Posts s (post q c timed s) := by
  unfold post
  split
  · exact ⟨rfl, rfl, rfl, rfl, rfl⟩
  split
  · unfold mailboxWrite
    refine Posts.trans ?_ (raise_reports _ _).posts
    exact ⟨rfl, rfl, rfl, rfl, rfl⟩
  split
  · exact Posts.refl s
  split
  · exact ⟨rfl, rfl, rfl, rfl, rfl⟩
  · exact cqWrite_posts _ _ _

theorem cacheAdd_posts (k : CmdKey) (crc : Nat) (c : Cpl) (s : State) : Posts s (cacheAdd k crc c s) := by
  unfold cacheAdd; split
  · exact Posts.refl s
  · exact ⟨rfl, rfl, rfl, rfl, rfl⟩

theorem decide_posts (op crc : Nat) (p : Packet) (c : Cpl) (timed : Bool) (s : State) :
    Posts s (decide_ op crc p c timed s) := (cacheAdd_posts _ _ _ _).trans (post_posts _ _ _ _)

theorem refuse_posts (op : Nat) (p : Packet) (r : Refuse) (s : State) : Posts s (refuse op p r s) := by
  have h : Posts s (bump (8 + r.step) (countSlotFit r.st r.detail s)) := by
    refine Posts.trans ?_ (bump_reports _ _).posts
    unfold countSlotFit; split
    · exact (bump_reports _ _).posts
    · exact Posts.refl s
  unfold refuse
  dsimp only
  split
  · exact h.trans (decide_posts _ _ _ _ _ _)
  · exact h.trans (post_posts _ _ _ _)

end Sys2Proof.Machine
end

