-- ==== Sys2Proof/Laws/SMap.lean ====
section
/-! SUPPORT. Laws/SMap.lean: the sparse map every memory and table is kept in: reading after writing, and its canonical form. -/
namespace Sys2Proof.Machine

theorem SMap.find_nil {α : Type} (k : Nat) : SMap.find ([] : SMap α) k = none := rfl

theorem SMap.find_cons {α : Type} (j : Nat) (v : α) (m : SMap α) (k : Nat) :
    SMap.find ((j, v) :: m) k = if k = j then some v else SMap.find m k := by
  by_cases h : k = j
  · subst h; simp [SMap.find, List.lookup_cons]
  · have hb : (k == j) = false := by simp [h]
    simp [SMap.find, List.lookup_cons, hb, h]

/-- All the keys of `m` are above `j`. -/
def SMap.above {α : Type} (j : Nat) (m : SMap α) : Prop := ∀ x ∈ m, j < x.1

theorem SMap.wf_cons {α : Type} [DecidableEq α] (d : α) (j : Nat) (v : α) (m : SMap α) :
    SMap.wf d ((j, v) :: m) = true ↔ v ≠ d ∧ SMap.above j m ∧ SMap.wf d m = true := by
  induction m generalizing j v with
  | nil => simp [SMap.wf, SMap.above]
  | cons x m ih =>
    obtain ⟨k, w⟩ := x
    rw [SMap.wf]
    simp only [Bool.and_eq_true, decide_eq_true_eq, ih, SMap.above, List.mem_cons, forall_eq_or_imp]
    constructor
    · rintro ⟨⟨h, hjk⟩, hw, ha, hm⟩
      exact ⟨h, ⟨hjk, fun x hx => Nat.lt_trans hjk (ha x hx)⟩, hw, ha, hm⟩
    · rintro ⟨h, ⟨hjk, _⟩, hw, ha, hm⟩
      exact ⟨⟨h, hjk⟩, hw, ha, hm⟩

theorem SMap.find_above {α : Type} {j k : Nat} {m : SMap α} (h : SMap.above j m) (hk : k ≤ j) : SMap.find m k = none := by
  induction m with
  | nil => rfl
  | cons x m ih =>
    obtain ⟨i, v⟩ := x
    have hi : j < i := h (i, v) (by simp)
    rw [SMap.find_cons, if_neg (by omega)]
    exact ih fun y hy => h y (by simp [hy])

theorem SMap.above_del {α : Type} {j k : Nat} {m : SMap α} (h : SMap.above j m) : SMap.above j (SMap.del k m) := by
  induction m with
  | nil => exact h
  | cons x m ih =>
    obtain ⟨i, v⟩ := x
    have ht : SMap.above j m := fun y hy => h y (by simp [hy])
    rw [SMap.del]
    split
    · exact ht
    · split
      · exact h
      · intro y hy
        rcases List.mem_cons.mp hy with rfl | hy
        · exact h _ (by simp)
        · exact ih ht y hy

theorem SMap.above_ins {α : Type} {j k : Nat} {x : α} {m : SMap α} (h : SMap.above j m) (hk : j < k) :
    SMap.above j (SMap.ins k x m) := by
  induction m with
  | nil => intro y hy; simp [SMap.ins] at hy; subst hy; exact hk
  | cons z m ih =>
    obtain ⟨i, v⟩ := z
    have ht : SMap.above j m := fun y hy => h y (by simp [hy])
    rw [SMap.ins]
    split
    · intro y hy
      rcases List.mem_cons.mp hy with rfl | hy
      · exact hk
      · exact h y hy
    · split
      · intro y hy
        rcases List.mem_cons.mp hy with rfl | hy
        · exact hk
        · exact ht y hy
      · intro y hy
        rcases List.mem_cons.mp hy with rfl | hy
        · exact h _ (by simp)
        · exact ih ht y hy

/-- Removing a key keeps the canonical form. -/
theorem SMap.wf_del {α : Type} [DecidableEq α] (d : α) (k : Nat) (m : SMap α) (h : SMap.wf d m = true) :
    SMap.wf d (SMap.del k m) = true := by
  induction m with
  | nil => exact h
  | cons x m ih =>
    obtain ⟨j, v⟩ := x
    obtain ⟨hv, ha, hm⟩ := (SMap.wf_cons d j v m).mp h
    rw [SMap.del]
    split
    · exact hm
    · split
      · exact h
      · exact (SMap.wf_cons d j v _).mpr ⟨hv, SMap.above_del ha, ih hm⟩

/-- Listing a key with a value that an unlisted key does not read as keeps the canonical form. -/
theorem SMap.wf_ins {α : Type} [DecidableEq α] (d : α) (k : Nat) (x : α) (m : SMap α) (hx : x ≠ d)
    (h : SMap.wf d m = true) : SMap.wf d (SMap.ins k x m) = true := by
  induction m with
  | nil => simp [SMap.ins, SMap.wf, hx]
  | cons y m ih =>
    obtain ⟨j, v⟩ := y
    obtain ⟨hv, ha, hm⟩ := (SMap.wf_cons d j v m).mp h
    rw [SMap.ins]
    split
    · refine (SMap.wf_cons d k x _).mpr ⟨hx, ?_, h⟩
      intro y hy
      rcases List.mem_cons.mp hy with rfl | hy
      · assumption
      · exact Nat.lt_trans ‹k < j› (ha y hy)
    · split
      · rename_i _ hkj
        subst hkj
        exact (SMap.wf_cons d k x _).mpr ⟨hx, ha, hm⟩
      · exact (SMap.wf_cons d j v _).mpr ⟨hv, SMap.above_ins ha (by omega), ih hm⟩

/-- A write keeps the canonical form. -/
theorem SMap.wf_put {α : Type} [DecidableEq α] (d : α) (m : SMap α) (k : Nat) (x : α) (h : SMap.wf d m = true) :
    SMap.wf d (SMap.put d m k x) = true := by
  rw [SMap.put]
  split
  · exact SMap.wf_del d k m h
  · exact SMap.wf_ins d k x m ‹_› h

/-- A write of consecutive keys keeps the canonical form. -/
theorem SMap.wf_putAll {α : Type} [DecidableEq α] (d : α) (m : SMap α) (k : Nat) (xs : List α)
    (h : SMap.wf d m = true) : SMap.wf d (SMap.putAll d m k xs) = true := by
  induction xs generalizing m k with
  | nil => exact h
  | cons x xs ih => exact ih _ _ (SMap.wf_put d m k x h)

/-- Dropping entries keeps the canonical form. -/
theorem SMap.wf_filter {α : Type} [DecidableEq α] (d : α) (f : Nat × α → Bool) (m : SMap α) (h : SMap.wf d m = true) :
    SMap.wf d (m.filter f) = true := by
  induction m with
  | nil => exact h
  | cons x m ih =>
    obtain ⟨j, v⟩ := x
    obtain ⟨hv, ha, hm⟩ := (SMap.wf_cons d j v m).mp h
    rw [List.filter_cons]
    split
    · exact (SMap.wf_cons d j v _).mpr ⟨hv, fun y hy => ha y (List.mem_filter.mp hy).1, ih hm⟩
    · exact ih hm

theorem SMap.find_ins {α : Type} (k : Nat) (x : α) (m : SMap α) (i : Nat) :
    SMap.find (SMap.ins k x m) i = if i = k then some x else SMap.find m i := by
  induction m with
  | nil => rw [SMap.ins, SMap.find_cons]
  | cons y m ih =>
    obtain ⟨j, v⟩ := y
    rw [SMap.ins]
    split
    · rw [SMap.find_cons]
    · split
      · rename_i _ hkj
        subst hkj
        simp only [SMap.find_cons]
        split <;> simp_all
      · simp only [SMap.find_cons, ih]
        split <;> split <;> first | rfl | omega

theorem SMap.find_del {α : Type} [DecidableEq α] (d : α) (k : Nat) (m : SMap α) (h : SMap.wf d m = true) (i : Nat) :
    SMap.find (SMap.del k m) i = if i = k then none else SMap.find m i := by
  induction m with
  | nil => simp [SMap.del, SMap.find_nil]
  | cons y m ih =>
    obtain ⟨j, v⟩ := y
    obtain ⟨hv, ha, hm⟩ := (SMap.wf_cons d j v m).mp h
    rw [SMap.del]
    split
    · rename_i hjk
      subst hjk
      rw [SMap.find_cons]
      split
      · rename_i hi
        subst hi
        exact SMap.find_above ha (Nat.le_refl _)
      · rfl
    · split
      · rename_i _ hkj
        split
        · rename_i hi
          subst hi
          rw [SMap.find_cons, if_neg (by omega)]
          exact SMap.find_above ha (by omega)
        · rfl
      · simp only [SMap.find_cons, ih hm]
        split <;> split <;> first | rfl | omega

/-- Reading after a write of one key: the value there, what was there before elsewhere. -/
theorem SMap.get_put {α : Type} [DecidableEq α] (d : α) (m : SMap α) (k : Nat) (x : α) (h : SMap.wf d m = true)
    (i : Nat) : SMap.get d (SMap.put d m k x) i = if i = k then x else SMap.get d m i := by
  rw [SMap.put]
  split
  · rename_i hx
    subst hx
    simp only [SMap.get, SMap.find_del _ k m h]
    split <;> rfl
  · simp only [SMap.get, SMap.find_ins]
    split <;> rfl

/-- Reading after a write of consecutive keys. -/
theorem SMap.get_putAll {α : Type} [DecidableEq α] (d : α) (m : SMap α) (k : Nat) (xs : List α)
    (h : SMap.wf d m = true) (i : Nat) :
    SMap.get d (SMap.putAll d m k xs) i = if k ≤ i ∧ i < k + xs.length then xs.getD (i - k) d else SMap.get d m i := by
  induction xs generalizing m k with
  | nil => rw [SMap.putAll, if_neg (by simp)]
  | cons x xs ih =>
    rw [SMap.putAll, ih _ _ (SMap.wf_put d m k x h), SMap.get_put d m k x h]
    simp only [List.length_cons]
    by_cases h1 : i = k
    · subst h1
      rw [if_neg (by omega), if_pos rfl, if_pos (by omega)]
      simp
    · by_cases h2 : k + 1 ≤ i ∧ i < k + 1 + xs.length
      · rw [if_pos h2, if_pos (by omega)]
        have : i - k = (i - (k + 1)) + 1 := by omega
        rw [this, List.getD_cons_succ]
      · rw [if_neg h2, if_neg h1, if_neg (by omega)]

end Sys2Proof.Machine
end

