-- ==== Sys2Proof/Laws/Counters.lean ====
section
/-! SUPPORT. Laws/Counters.lean: counting, saturating and raising, one field at a time. -/
namespace Sys2Proof.Machine

theorem count_bumpRaw (n k x : Nat) (s : State) (h : SMap.wf 0 s.obs.cnt = true) : (bumpRaw n k s).count x = if x = n then min (s.count n + k) cntMax else s.count x := by
  unfold bumpRaw; dsimp only
  split
  · simp only [State.count, SMap.get_put _ _ _ _ h]; split
    · have : cntMax ≤ SMap.get 0 s.obs.cnt n + k := by simp only [State.count] at *; omega
      exact (Nat.min_eq_right this).symm
    · rfl
  · simp only [State.count, SMap.get_put _ _ _ _ h]; split
    · have : SMap.get 0 s.obs.cnt n + k ≤ cntMax := by simp only [State.count] at *; omega
      exact (Nat.min_eq_left this).symm
    · rfl

theorem wf_bumpRaw (n k : Nat) (s : State) (h : SMap.wf 0 s.obs.cnt = true) (h2 : SMap.wf false s.obs.sat = true) : SMap.wf 0 (bumpRaw n k s).obs.cnt = true ∧ SMap.wf false (bumpRaw n k s).obs.sat = true := by
  unfold bumpRaw; dsimp only
  split
  · exact ⟨SMap.wf_put 0 _ n cntMax h, SMap.wf_put false _ n true h2⟩
  · exact ⟨SMap.wf_put _ _ _ _ h, h2⟩

theorem sat_bumpRaw (n k x : Nat) (s : State) (h2 : SMap.wf false s.obs.sat = true) (hx : SMap.get false s.obs.sat x = true) : SMap.get false (bumpRaw n k s).obs.sat x = true := by
  unfold bumpRaw; dsimp only
  split
  · simp only [SMap.get_put _ _ _ _ h2]; split
    · rfl
    · exact hx
  · exact hx

theorem obs_signal (v : Nat) (s : State) : (signal v s).obs = s.obs ∧ (signal v s).satTick = s.satTick ∧ (signal v s).ev.stat = s.ev.stat := by
  unfold signal; split <;> exact ⟨rfl, rfl, rfl⟩

theorem obs_raiseStat (e : Nat) (s : State) : (raiseStat e s).obs = s.obs ∧ (raiseStat e s).satTick = s.satTick := by
  unfold raiseStat; split
  · dsimp only; split
    · exact ⟨(obs_signal _ _).1, (obs_signal _ _).2.1⟩
    · exact ⟨rfl, rfl⟩
  · exact ⟨rfl, rfl⟩

theorem foldl_sel (l : List Nat) (n : Nat) (s : State) (h : SMap.wf 0 s.obs.cnt = true) (h2 : SMap.wf false s.obs.sat = true) :
    let t := l.foldl (fun s k => bumpRaw (1856 + k) 1 s) s
    (s.count n = cntMax → t.count n = cntMax) ∧ (n < 1856 → t.count n = s.count n) ∧ (SMap.get false s.obs.sat n = true → SMap.get false t.obs.sat n = true) ∧ t.ev = s.ev ∧ t.satTick = s.satTick := by
  induction l generalizing s with
  | nil => exact ⟨id, fun _ => rfl, id, rfl, rfl⟩
  | cons a l ih =>
    obtain ⟨w1, w2⟩ := wf_bumpRaw (1856 + a) 1 s h h2
    obtain ⟨i1, i2, i3, i4, i5⟩ := ih _ w1 w2
    simp only [List.foldl_cons]
    refine ⟨fun hc => i1 ?_, fun hn => (i2 hn).trans ?_, fun hs => i3 (sat_bumpRaw _ _ _ _ h2 hs), i4.trans ?_, i5.trans ?_⟩
    · rw [count_bumpRaw _ _ _ _ h]; split
      · rename_i e; subst e; rw [hc]; exact Nat.min_eq_right (Nat.le_add_right _ _)
      · exact hc
    · rw [count_bumpRaw _ _ _ _ h, if_neg (by omega)]
    · unfold bumpRaw; dsimp only; split <;> rfl
    · unfold bumpRaw; dsimp only; split <;> rfl

theorem ev_bumpRaw (n k : Nat) (s : State) : (bumpRaw n k s).ev = s.ev ∧ (bumpRaw n k s).satTick = s.satTick := by
  unfold bumpRaw; dsimp only; split <;> exact ⟨rfl, rfl⟩

theorem stat_raiseStat (e : Nat) (s : State) (he : e < 256) (h : s.ev.en.getLsbD e = true) : (raiseStat e s).ev.stat.getLsbD e = true := by
  unfold raiseStat
  cases hs : s.ev.stat.getLsbD e
  · simp only [h, Bool.not_false, if_true]
    have : (s.ev.stat ||| BitVec.ofNat 256 (2 ^ e)).getLsbD e = true := by
      rw [BitVec.getLsbD_or, BitVec.getLsbD_ofNat, Nat.testBit_two_pow_self, decide_eq_true he]
      simp only [Bool.and_self, Bool.or_true]
    split
    · rw [(obs_signal _ _).2.2]; exact this
    · exact this
  · simp [h, hs]

end Sys2Proof.Machine
end

