-- ==== Sys2Proof/Laws/Exec.lean ====
section
/-! SUPPORT. Laws/Exec.lean: the shape of every command's meaning, said once: it acts on the pins whatever holds the device,
or in the commit window, or after it on a device with its clocks running or out of reset, or it is a packet that runs
through the pipeline. What holds of every command follows from `exec_form` without unfolding a meaning. -/
namespace Sys2Proof.Machine

/-- The shapes a command's meaning can have. -/
inductive ExecForm (c : Instr) : Prop
  | pins (h : ofPins c = true) (f : State → State) (e : ∀ s, exec c s = .next (settle (f s)))
  | window (h : ofWindow c = true) (f : State → State) (e : ∀ s, exec c s = within f s)
  | clocked (h : ofPins c = false ∧ ofWindow c = false) (w : c.wf = true) (f : State → State) (e : ∀ s, exec c s = clocked f s)
  | live (h : ofPins c = false ∧ ofWindow c = false) (w : c.wf = true) (f : State → State) (e : ∀ s, exec c s = live f s)
  | packet (h : ofPins c = false ∧ ofWindow c = false) (op : Nat) (p : Packet) (w : c.wf = packetWf p)
      (pre : State → Option Refuse) (act : State → State) (e : ∀ s, exec c s = command op p pre act s)
  | foreign (h : ofPins c = false ∧ ofWindow c = false) (w : c.wf = false) (e : ∀ s, exec c s = .fault .illFormed)

theorem exec_form (c : Instr) : ExecForm c := by
  cases c with
  | nop op p =>
    by_cases h : op.toNat = 0
    · have hw : Instr.wf (.nop op p) = packetWf p := by
        have : (op == 0) = true := by simpa [BitVec.toNat_eq] using h
        simp only [Instr.wf, Instr.packet?, this, Bool.true_or, Bool.and_true, Option.all_some]
      by_cases ha : p.atTick = 0
      · exact .packet ⟨rfl, rfl⟩ _ p hw _ _ fun s => by
          show execNop op p s = _; unfold execNop runCmd; simp only [h, ha, if_true]; rfl
      · exact .packet ⟨rfl, rfl⟩ _ p hw _ _ fun s => by
          show execNop op p s = _; unfold execNop runTimed; simp only [h, ha, if_true, if_false]; rfl
    · have h0 : (op == 0) = false := by simpa [BitVec.toNat_eq] using h
      cases hm : assigned.contains op.toNat
      · exact .packet ⟨rfl, rfl⟩ _ p (by simp only [Instr.wf, Instr.packet?, h0, hm]; exact Bool.and_true _) _ _ fun s => by
          show execNop op p s = _; unfold execNop; simp only [h, hm, if_false, Bool.false_eq_true]; rfl
      · exact .foreign ⟨rfl, rfl⟩ (by simp only [Instr.wf, h0, hm]; exact Bool.and_false _) fun s => by
          show execNop op p s = _; unfold execNop; simp only [h, hm, if_false, if_true]
  | identify p =>
    exact .packet ⟨rfl, rfl⟩ _ p (Bool.and_true _) _ _ fun s => by
      show execIdentify p s = _; unfold execIdentify runCmd; rfl
  | stateGet p =>
    exact .packet ⟨rfl, rfl⟩ _ p (Bool.and_true _) _ _ fun s => by
      show execStateGet p s = _; unfold execStateGet runCmd; rfl
  | sessionOpen p =>
    exact .packet ⟨rfl, rfl⟩ _ p (Bool.and_true _) _ _ fun s => by
      show execSessionOpen p s = _; unfold execSessionOpen; rfl
  | sessionClose p =>
    exact .packet ⟨rfl, rfl⟩ _ p (Bool.and_true _) _ _ fun s => by
      show execSessionClose p s = _; unfold execSessionClose runCmd; rfl
  | expertEnable p =>
    exact .packet ⟨rfl, rfl⟩ _ p (Bool.and_true _) _ _ fun s => by
      show execExpertEnable p s = _; unfold execExpertEnable runCmd; rfl
  | paramGet p =>
    exact .packet ⟨rfl, rfl⟩ _ p (Bool.and_true _) _ _ fun s => by
      show execParamGet p s = _; unfold execParamGet runCmd; rfl
  | paramSet p =>
    exact .packet ⟨rfl, rfl⟩ _ p (Bool.and_true _) _ _ fun s => by
      show execParamSet p s = _; unfold execParamSet runCmd; rfl
  | commit p =>
    exact .packet ⟨rfl, rfl⟩ _ p (Bool.and_true _) _ _ fun s => by
      show execCommit p s = _; unfold execCommit; rfl
  | solsticePrepare p =>
    exact .packet ⟨rfl, rfl⟩ _ p (Bool.and_true _) _ _ fun s => by
      show execSolsticePrepare p s = _; unfold execSolsticePrepare; rfl
  | solsticeArm p =>
    exact .packet ⟨rfl, rfl⟩ _ p (Bool.and_true _) _ _ fun s => by
      show execSolsticeArm p s = _; unfold execSolsticeArm; rfl
  | solsticeCancel p =>
    exact .packet ⟨rfl, rfl⟩ _ p (Bool.and_true _) _ _ fun s => by
      show execSolsticeCancel p s = _; unfold execSolsticeCancel runCmd; rfl
  | timedList p =>
    exact .packet ⟨rfl, rfl⟩ _ p (Bool.and_true _) _ _ fun s => by
      show execTimedList p s = _; unfold execTimedList runCmd; rfl
  | fwUpdate p chunk =>
    exact .packet ⟨rfl, rfl⟩ _ p (Bool.and_true _) _ _ fun s => by
      show execFwUpdate p chunk s = _; unfold execFwUpdate runCmd; rfl
  | fwActivate p =>
    exact .packet ⟨rfl, rfl⟩ _ p (Bool.and_true _) _ _ fun s => by
      show execFwActivate p s = _; unfold execFwActivate runCmd; rfl
  | flashStatus p =>
    exact .packet ⟨rfl, rfl⟩ _ p (Bool.and_true _) _ _ fun s => by
      show execFlashStatus p s = _; unfold execFlashStatus runCmd; rfl
  | entryFreeze => exact .window rfl _ fun s => by show execEntryFreeze s = _; unfold execEntryFreeze; rfl
  | timedActionExecute =>
    exact .window rfl _ fun s => by
      show execTimedActionExecute s = _; unfold execTimedActionExecute; rfl
  | commandDeadline q tag seq =>
    exact .clocked ⟨rfl, rfl⟩ rfl _ fun s => by
      show execCommandDeadline q tag seq s = _; unfold execCommandDeadline; rfl
  | lateResult q tag seq =>
    exact .clocked ⟨rfl, rfl⟩ rfl _ fun s => by
      show execLateResult q tag seq s = _; unfold execLateResult; rfl
  | pcieReadTimeout q hdr again =>
    exact .clocked ⟨rfl, rfl⟩ rfl _ fun s => by
      show execPcieReadTimeout q hdr again s = _; unfold execPcieReadTimeout; rfl
  | pcieLateCpl q =>
    exact .clocked ⟨rfl, rfl⟩ rfl _ fun s => by
      show execPcieLateCpl q s = _; unfold execPcieLateCpl; rfl
  | cqCompletionWrite q =>
    exact .clocked ⟨rfl, rfl⟩ rfl _ fun s => by
      show execCqCompletionWrite q s = _; unfold execCqCompletionWrite; rfl
  | coalTimeExpiry q =>
    exact .clocked ⟨rfl, rfl⟩ rfl _ fun s => by
      show execCoalTimeExpiry q s = _; unfold execCoalTimeExpiry; rfl
  | watchdogExpiry core =>
    exact .clocked ⟨rfl, rfl⟩ rfl _ fun s => by
      show execWatchdogExpiry core s = _; unfold execWatchdogExpiry; rfl
  | fwRestartDone =>
    exact .clocked ⟨rfl, rfl⟩ rfl _ fun s => by
      show execFwRestartDone s = _; unfold execFwRestartDone; rfl
  | flashOpDone ok =>
    exact .clocked ⟨rfl, rfl⟩ rfl _ fun s => by
      show execFlashOpDone ok s = _; unfold execFlashOpDone; rfl
  | sqTail q v => exact .live ⟨rfl, rfl⟩ rfl _ fun s => by show execSqTail q v s = _; unfold execSqTail overPcie; rfl
  | cqHead q v => exact .live ⟨rfl, rfl⟩ rfl _ fun s => by show execCqHead q v s = _; unfold execCqHead overPcie; rfl
  | queueEnable q =>
    exact .live ⟨rfl, rfl⟩ rfl _ fun s => by
      show execQueueEnable q s = _; unfold execQueueEnable overPcie; rfl
  | queueDisable q =>
    exact .live ⟨rfl, rfl⟩ rfl _ fun s => by
      show execQueueDisable q s = _; unfold execQueueDisable overPcie; rfl
  | qCfg q v => exact .live ⟨rfl, rfl⟩ rfl _ fun s => by show execQCfg q v s = _; unfold execQCfg overPcie; rfl
  | stagingFieldWrite q cq v =>
    exact .live ⟨rfl, rfl⟩ rfl _ fun s => by
      show execStagingFieldWrite q cq v s = _; unfold execStagingFieldWrite overPcie; rfl
  | triggerFieldWrite q cq v =>
    exact .live ⟨rfl, rfl⟩ rfl _ fun s => by
      show execTriggerFieldWrite q cq v s = _; unfold execTriggerFieldWrite overPcie; rfl
  | sysLock v => exact .live ⟨rfl, rfl⟩ rfl _ fun s => by show execSysLock v s = _; unfold execSysLock overPcie; rfl
  | bootLoad v =>
    exact .live ⟨rfl, rfl⟩ rfl _ fun s => by
      show execBootLoad v s = _; unfold execBootLoad overPcie; rfl
  | gpioOut v => exact .live ⟨rfl, rfl⟩ rfl _ fun s => by show execGpioOut v s = _; unfold execGpioOut overPcie; rfl
  | shadowApply => exact .window rfl _ fun s => by show execShadowApply s = _; unfold execShadowApply; rfl
  | harvHead v =>
    exact .live ⟨rfl, rfl⟩ rfl _ fun s => by
      show execHarvHead v s = _; unfold execHarvHead overPcie; rfl
  | cntLoRead path n =>
    cases path
    · exact .live ⟨rfl, rfl⟩ rfl _ fun s => by show execCntLoRead .pcie n s = _; unfold execCntLoRead overPcie; rfl
    · exact .live ⟨rfl, rfl⟩ rfl _ fun s => by show execCntLoRead .spi n s = _; unfold execCntLoRead spiAccess; rfl
  | tickNowLoRead path =>
    cases path
    · exact .live ⟨rfl, rfl⟩ rfl _ fun s => by show execTickNowLoRead .pcie s = _; unfold execTickNowLoRead overPcie; rfl
    · exact .live ⟨rfl, rfl⟩ rfl _ fun s => by show execTickNowLoRead .spi s = _; unfold execTickNowLoRead spiAccess; rfl
  | evtMask k v =>
    exact .live ⟨rfl, rfl⟩ rfl _ fun s => by
      show execEvtMask k v s = _; unfold execEvtMask overPcie; rfl
  | evtVec k v => exact .live ⟨rfl, rfl⟩ rfl _ fun s => by show execEvtVec k v s = _; unfold execEvtVec overPcie; rfl
  | registerWrite addr size v =>
    exact .live ⟨rfl, rfl⟩ rfl _ fun s => by
      show execRegisterWrite addr size v s = _; unfold execRegisterWrite overPcie; rfl
  | spiWrite addr bytes =>
    exact .live ⟨rfl, rfl⟩ rfl _ fun s => by
      show execSpiWrite addr bytes s = _; unfold execSpiWrite spiAccess; rfl
  | spiRead addr n =>
    exact .live ⟨rfl, rfl⟩ rfl _ fun s => by
      show execSpiRead addr n s = _; unfold execSpiRead spiAccess; rfl
  | spiStatusRead =>
    exact .live ⟨rfl, rfl⟩ rfl _ fun s => by
      show execSpiStatusRead s = _; unfold execSpiStatusRead spiAccess; rfl
  | mailboxDoorbell =>
    exact .live ⟨rfl, rfl⟩ rfl _ fun s => by
      show execMailboxDoorbell s = _; unfold execMailboxDoorbell spiAccess; rfl
  | reset => exact .pins rfl (fun s => resetWith s.pwr.tripped s) fun _ => rfl
  | resetRelease strap =>
    refine .pins rfl (fun s => if s.boot.inReset && !s.pwr.tripped then
        updBoot (fun b => { b with inReset := false, strap := strap.toNat, stage := 1 }) s else s) fun s => ?_
    show execResetRelease strap s = _
    unfold execResetRelease
    split <;> rfl
  | xoFound => exact .live ⟨rfl, rfl⟩ rfl _ fun s => by show execXoFound s = _; unfold execXoFound; rfl
  | xoAbsent => exact .live ⟨rfl, rfl⟩ rfl _ fun s => by show execXoAbsent s = _; unfold execXoAbsent; rfl
  | pllLock => exact .live ⟨rfl, rfl⟩ rfl _ fun s => by show execPllLock s = _; unfold execPllLock; rfl
  | imageReadDone ok =>
    exact .live ⟨rfl, rfl⟩ rfl _ fun s => by
      show execImageReadDone ok s = _; unfold execImageReadDone; rfl
  | imageCheckDone =>
    exact .live ⟨rfl, rfl⟩ rfl _ fun s => by
      show execImageCheckDone s = _; unfold execImageCheckDone; rfl
  | standbyReady engFail coreFail =>
    exact .clocked ⟨rfl, rfl⟩ rfl _ fun s => by
      show execStandbyReady engFail coreFail s = _; unfold execStandbyReady; rfl
  | perstN => exact .pins rfl (fun s => if s.boot.inReset || s.pwr.tripped then { s with sys := { s.sys with perst := true } }
      else endpointReset { s with sys := { s.sys with perst := true } }) fun _ => rfl
  | perstNDeassert => exact .pins rfl (fun s => { s with sys := { s.sys with perst := false } }) fun _ => rfl
  | pcieFunctionReset =>
    exact .live ⟨rfl, rfl⟩ rfl _ fun s => by
      show execPcieFunctionReset s = _; unfold execPcieFunctionReset; rfl
  | powerLoss => exact .pins rfl (resetWith false) fun _ => rfl
  | xoInLoss => exact .live ⟨rfl, rfl⟩ rfl _ fun s => by show execXoInLoss s = _; unfold execXoInLoss; rfl
  | thermtrip =>
    refine .pins rfl (fun s => if s.boot.inReset then s else dacsHeld (updPwr (fun p => { p with tripped := true }) s)) fun s => ?_
    show execThermtrip s = _
    unfold execThermtrip
    split <;> rfl
  | tjReading t => exact .clocked ⟨rfl, rfl⟩ rfl _ fun s => by show execTjReading t s = _; unfold execTjReading; rfl
  | alertN faults => exact .clocked ⟨rfl, rfl⟩ rfl _ fun s => by show execAlertN faults s = _; unfold execAlertN; rfl
  | gpioWakeEdge gpio falling =>
    exact .live ⟨rfl, rfl⟩ rfl _ fun s => by
      show execGpioWakeEdge gpio falling s = _; unfold execGpioWakeEdge; rfl
  | wakeDone => exact .live ⟨rfl, rfl⟩ rfl _ fun s => by show execWakeDone s = _; unfold execWakeDone; rfl
  | pinContention pin =>
    exact .clocked ⟨rfl, rfl⟩ rfl _ fun s => by
      show execPinContention pin s = _; unfold execPinContention; rfl
  | openDrainStuck pin =>
    exact .clocked ⟨rfl, rfl⟩ rfl _ fun s => by
      show execOpenDrainStuck pin s = _; unfold execOpenDrainStuck; rfl
  | tick x => exact .window rfl _ fun s => by show execTick x s = _; unfold execTick; rfl
  | epochBoundary => exact .window rfl _ fun s => by show execEpochBoundary s = _; unfold execEpochBoundary; rfl
  | pwrStatus p =>
    exact .packet ⟨rfl, rfl⟩ _ p (Bool.and_true _) _ _ fun s => by
      show execPwrStatus p s = _; unfold execPwrStatus runCmd; rfl
  | pwrSet p =>
    exact .packet ⟨rfl, rfl⟩ _ p (Bool.and_true _) _ _ fun s => by
      show execPwrSet p s = _; unfold execPwrSet runCmd; rfl
  | pwrTransitionDone failed =>
    exact .window rfl _ fun s => by
      show execPwrTransitionDone failed s = _; unfold execPwrTransitionDone; rfl
  | pwrGate p =>
    exact .packet ⟨rfl, rfl⟩ _ p (Bool.and_true _) _ _ fun s => by
      show execPwrGate p s = _; unfold execPwrGate runCmd; rfl
  | gatingApply => exact .window rfl _ fun s => by show execGatingApply s = _; unfold execGatingApply; rfl
  | pinRearm p =>
    exact .packet ⟨rfl, rfl⟩ _ p (Bool.and_true _) _ _ fun s => by
      show execPinRearm p s = _; unfold execPinRearm runCmd; rfl
  | pmbusXfer p =>
    exact .packet ⟨rfl, rfl⟩ _ p (Bool.and_true _) _ _ fun s => by
      show execPmbusXfer p s = _; unfold execPmbusXfer runCmd; rfl
  | pmbusTransactionDone fails data =>
    exact .clocked ⟨rfl, rfl⟩ rfl _ fun s => by
      show execPmbusTransactionDone fails data s = _; unfold execPmbusTransactionDone; rfl
  | telemetryRead reads =>
    exact .clocked ⟨rfl, rfl⟩ rfl _ fun s => by
      show execTelemetryRead reads s = _; unfold execTelemetryRead; rfl
  | avsStep up down ok =>
    exact .clocked ⟨rfl, rfl⟩ rfl _ fun s => by
      show execAvsStep up down ok s = _; unfold execAvsStep; rfl
  | tmStatus p =>
    exact .packet ⟨rfl, rfl⟩ _ p (Bool.and_true _) _ _ fun s => by
      show execTmStatus p s = _; unfold execTmStatus runCmd; rfl
  | tmSelect p =>
    exact .packet ⟨rfl, rfl⟩ _ p (Bool.and_true _) _ _ fun s => by
      show execTmSelect p s = _; unfold execTmSelect runCmd; rfl
  | tmPriority p =>
    exact .packet ⟨rfl, rfl⟩ _ p (Bool.and_true _) _ _ fun s => by
      show execTmPriority p s = _; unfold execTmPriority runCmd; rfl
  | tmStep p =>
    exact .packet ⟨rfl, rfl⟩ _ p (Bool.and_true _) _ _ fun s => by
      show execTmStep p s = _; unfold execTmStep runTimed; rfl
  | tmPhaseAdj p =>
    exact .packet ⟨rfl, rfl⟩ _ p (Bool.and_true _) _ _ fun s => by
      show execTmPhaseAdj p s = _; unfold execTmPhaseAdj runCmd; rfl
  | tmSteer p =>
    exact .packet ⟨rfl, rfl⟩ _ p (Bool.and_true _) _ _ fun s => by
      show execTmSteer p s = _; unfold execTmSteer runCmd; rfl
  | ppsAlign p =>
    exact .packet ⟨rfl, rfl⟩ _ p (Bool.and_true _) _ _ fun s => by
      show execPpsAlign p s = _; unfold execPpsAlign runTimed; rfl
  | tmTodRead p =>
    exact .packet ⟨rfl, rfl⟩ _ p (Bool.and_true _) _ _ fun s => by
      show execTmTodRead p s = _; unfold execTmTodRead runCmd; rfl
  | tmForceHoldover p =>
    exact .packet ⟨rfl, rfl⟩ _ p (Bool.and_true _) _ _ fun s => by
      show execTmForceHoldover p s = _; unfold execTmForceHoldover runCmd; rfl
  | refQualify r =>
    exact .clocked ⟨rfl, rfl⟩ rfl _ fun s => by
      show execRefQualify r s = _; unfold execRefQualify; rfl
  | refDisqualify r =>
    exact .clocked ⟨rfl, rfl⟩ rfl _ fun s => by
      show execRefDisqualify r s = _; unfold execRefDisqualify; rfl
  | wtrExpiry r => exact .clocked ⟨rfl, rfl⟩ rfl _ fun s => by show execWtrExpiry r s = _; unfold execWtrExpiry; rfl
  | pllLocked => exact .clocked ⟨rfl, rfl⟩ rfl _ fun s => by show execPllLocked s = _; unfold execPllLocked; rfl
  | phaseAdjComplete =>
    exact .clocked ⟨rfl, rfl⟩ rfl _ fun s => by
      show execPhaseAdjComplete s = _; unfold execPhaseAdjComplete; rfl
  | ppsEdge o => exact .clocked ⟨rfl, rfl⟩ rfl _ fun s => by show execPpsEdge o s = _; unfold execPpsEdge; rfl
  | todTxMessage =>
    exact .clocked ⟨rfl, rfl⟩ rfl _ fun s => by
      show execTodTxMessage s = _; unfold execTodTxMessage; rfl
  | todRxMessage bytes =>
    exact .clocked ⟨rfl, rfl⟩ rfl _ fun s => by
      show execTodRxMessage bytes s = _; unfold execTodRxMessage; rfl
  | txStatus p =>
    exact .packet ⟨rfl, rfl⟩ _ p (Bool.and_true _) _ _ fun s => by
      show execTxStatus p s = _; unfold execTxStatus runCmd; rfl
  | txModePreset p =>
    exact .packet ⟨rfl, rfl⟩ _ p (Bool.and_true _) _ _ fun s => by
      show execTxModePreset p s = _; unfold execTxModePreset runCmd; rfl
  | txCapacity p =>
    exact .packet ⟨rfl, rfl⟩ _ p (Bool.and_true _) _ _ fun s => by
      show execTxCapacity p s = _; unfold execTxCapacity runCmd; rfl
  | converterRetuneDone c =>
    exact .clocked ⟨rfl, rfl⟩ rfl _ fun s => by
      show execConverterRetuneDone c s = _; unfold execConverterRetuneDone; rfl
  | automaticSwitch c =>
    exact .window rfl _ fun s => by
      show execAutomaticSwitch c s = _; unfold execAutomaticSwitch; rfl
  | rxStatus p =>
    exact .packet ⟨rfl, rfl⟩ _ p (Bool.and_true _) _ _ fun s => by
      show execRxStatus p s = _; unfold execRxStatus runCmd; rfl
  | rxAcquire p =>
    exact .packet ⟨rfl, rfl⟩ _ p (Bool.and_true _) _ _ fun s => by
      show execRxAcquire p s = _; unfold execRxAcquire runTimed; rfl
  | rxMeasure p =>
    exact .packet ⟨rfl, rfl⟩ _ p (Bool.and_true _) _ _ fun s => by
      show execRxMeasure p s = _; unfold execRxMeasure runCmd; rfl
  | rxTapDump p =>
    exact .packet ⟨rfl, rfl⟩ _ p (Bool.and_true _) _ _ fun s => by
      show execRxTapDump p s = _; unfold execRxTapDump runCmd; rfl
  | rxCapture p =>
    by_cases ha : p.atTick = 0
    · exact .packet ⟨rfl, rfl⟩ _ p (Bool.and_true _) _ _ fun s => by
        show execRxCapture p s = _; unfold execRxCapture runCmd; rw [if_pos ha]
    · exact .packet ⟨rfl, rfl⟩ _ p (Bool.and_true _) _ _ fun s => by
        show execRxCapture p s = _; unfold execRxCapture runTimed; rw [if_neg ha]
  | signalPresent c =>
    exact .clocked ⟨rfl, rfl⟩ rfl _ fun s => by
      show execSignalPresent c s = _; unfold execSignalPresent; rfl
  | signalLost c =>
    exact .clocked ⟨rfl, rfl⟩ rfl _ fun s => by
      show execSignalLost c s = _; unfold execSignalLost; rfl
  | cdScanDone c coarse best =>
    exact .clocked ⟨rfl, rfl⟩ rfl _ fun s => by
      show execCdScanDone c coarse best s = _; unfold execCdScanDone; rfl
  | timingLocked c =>
    exact .clocked ⟨rfl, rfl⟩ rfl _ fun s => by
      show execTimingLocked c s = _; unfold execTimingLocked; rfl
  | equaliserConverged c =>
    exact .clocked ⟨rfl, rfl⟩ rfl _ fun s => by
      show execEqualiserConverged c s = _; unfold execEqualiserConverged; rfl
  | timingTimeout c =>
    exact .clocked ⟨rfl, rfl⟩ rfl _ fun s => by
      show execTimingTimeout c s = _; unfold execTimingTimeout; rfl
  | equaliseTimeout c =>
    exact .clocked ⟨rfl, rfl⟩ rfl _ fun s => by
      show execEqualiseTimeout c s = _; unfold execEqualiseTimeout; rfl
  | acquisitionTimeout c =>
    exact .clocked ⟨rfl, rfl⟩ rfl _ fun s => by
      show execAcquisitionTimeout c s = _; unfold execAcquisitionTimeout; rfl
  | fasLock c => exact .clocked ⟨rfl, rfl⟩ rfl _ fun s => by show execFasLock c s = _; unfold execFasLock; rfl
  | lockLoss c => exact .clocked ⟨rfl, rfl⟩ rfl _ fun s => by show execLockLoss c s = _; unfold execLockLoss; rfl
  | modeRevertTimeout c =>
    exact .clocked ⟨rfl, rfl⟩ rfl _ fun s => by
      show execModeRevertTimeout c s = _; unfold execModeRevertTimeout; rfl
  | fecStatus p =>
    exact .packet ⟨rfl, rfl⟩ _ p (Bool.and_true _) _ _ fun s => by
      show execFecStatus p s = _; unfold execFecStatus runCmd; rfl
  | fecPool p =>
    exact .packet ⟨rfl, rfl⟩ _ p (Bool.and_true _) _ _ fun s => by
      show execFecPool p s = _; unfold execFecPool runCmd; rfl
  | fecCoreTest p =>
    exact .packet ⟨rfl, rfl⟩ _ p (Bool.and_true _) _ _ fun s => by
      show execFecCoreTest p s = _; unfold execFecCoreTest runCmd; rfl
  | decodeEnd c frame cw =>
    exact .clocked ⟨rfl, rfl⟩ rfl _ fun s => by
      show execDecodeEnd c frame cw s = _; unfold execDecodeEnd; rfl
  | redecodeStart c cw =>
    exact .clocked ⟨rfl, rfl⟩ rfl _ fun s => by
      show execRedecodeStart c cw s = _; unfold execRedecodeStart; rfl
  | codewordRelease c cw =>
    exact .clocked ⟨rfl, rfl⟩ rfl _ fun s => by
      show execCodewordRelease c cw s = _; unfold execCodewordRelease; rfl
  | coreSelfTest core pass =>
    exact .clocked ⟨rfl, rfl⟩ rfl _ fun s => by
      show execCoreSelfTest core pass s = _; unfold execCoreSelfTest; rfl
  | frmStatus p =>
    exact .packet ⟨rfl, rfl⟩ _ p (Bool.and_true _) _ _ fun s => by
      show execFrmStatus p s = _; unfold execFrmStatus runCmd; rfl
  | frmGccSend p =>
    exact .packet ⟨rfl, rfl⟩ _ p (Bool.and_true _) _ _ fun s => by
      show execFrmGccSend p s = _; unfold execFrmGccSend runPool; rfl
  | frmGccRecv p =>
    exact .packet ⟨rfl, rfl⟩ _ p (Bool.and_true _) _ _ fun s => by
      show execFrmGccRecv p s = _; unfold execFrmGccRecv runCmd; rfl
  | frmApsSet p =>
    exact .packet ⟨rfl, rfl⟩ _ p (Bool.and_true _) _ _ fun s => by
      show execFrmApsSet p s = _; unfold execFrmApsSet runCmd; rfl
  | frmOhCapture p =>
    exact .packet ⟨rfl, rfl⟩ _ p (Bool.and_true _) _ _ fun s => by
      show execFrmOhCapture p s = _; unfold execFrmOhCapture runCmd; rfl
  | lineFrameRx c lag =>
    exact .clocked ⟨rfl, rfl⟩ rfl _ fun s => by
      show execLineFrameRx c lag s = _; unfold execLineFrameRx; rfl
  | frameAlignmentGain c =>
    exact .clocked ⟨rfl, rfl⟩ rfl _ fun s => by
      show execFrameAlignmentGain c s = _; unfold execFrameAlignmentGain; rfl
  | frameAlignmentLoss c =>
    exact .clocked ⟨rfl, rfl⟩ rfl _ fun s => by
      show execFrameAlignmentLoss c s = _; unfold execFrameAlignmentLoss; rfl
  | lofTimer c => exact .clocked ⟨rfl, rfl⟩ rfl _ fun s => by show execLofTimer c s = _; unfold execLofTimer; rfl
  | lomTimer c => exact .clocked ⟨rfl, rfl⟩ rfl _ fun s => by show execLomTimer c s = _; unfold execLomTimer; rfl
  | gccMessageRx c =>
    exact .clocked ⟨rfl, rfl⟩ rfl _ fun s => by
      show execGccMessageRx c s = _; unfold execGccMessageRx; rfl
  | seqEnd c d => exact .clocked ⟨rfl, rfl⟩ rfl _ fun s => by show execSeqEnd c d s = _; unfold execSeqEnd; rfl
  | seqLdi c d => exact .clocked ⟨rfl, rfl⟩ rfl _ fun s => by show execSeqLdi c d s = _; unfold execSeqLdi; rfl
  | seqLdh c d => exact .clocked ⟨rfl, rfl⟩ rfl _ fun s => by show execSeqLdh c d s = _; unfold execSeqLdh; rfl
  | seqAdd c d => exact .clocked ⟨rfl, rfl⟩ rfl _ fun s => by show execSeqAdd c d s = _; unfold execSeqAdd; rfl
  | seqAddi c d => exact .clocked ⟨rfl, rfl⟩ rfl _ fun s => by show execSeqAddi c d s = _; unfold execSeqAddi; rfl
  | seqAnd c d => exact .clocked ⟨rfl, rfl⟩ rfl _ fun s => by show execSeqAnd c d s = _; unfold execSeqAnd; rfl
  | seqOr c d => exact .clocked ⟨rfl, rfl⟩ rfl _ fun s => by show execSeqOr c d s = _; unfold execSeqOr; rfl
  | seqXor c d => exact .clocked ⟨rfl, rfl⟩ rfl _ fun s => by show execSeqXor c d s = _; unfold execSeqXor; rfl
  | seqShl c d => exact .clocked ⟨rfl, rfl⟩ rfl _ fun s => by show execSeqShl c d s = _; unfold execSeqShl; rfl
  | seqShr c d => exact .clocked ⟨rfl, rfl⟩ rfl _ fun s => by show execSeqShr c d s = _; unfold execSeqShr; rfl
  | seqLdt c d => exact .clocked ⟨rfl, rfl⟩ rfl _ fun s => by show execSeqLdt c d s = _; unfold execSeqLdt; rfl
  | seqLdp c d => exact .clocked ⟨rfl, rfl⟩ rfl _ fun s => by show execSeqLdp c d s = _; unfold execSeqLdp; rfl
  | seqLds c d => exact .clocked ⟨rfl, rfl⟩ rfl _ fun s => by show execSeqLds c d s = _; unfold execSeqLds; rfl
  | seqSts c d => exact .clocked ⟨rfl, rfl⟩ rfl _ fun s => by show execSeqSts c d s = _; unfold execSeqSts; rfl
  | seqRdb c d => exact .clocked ⟨rfl, rfl⟩ rfl _ fun s => by show execSeqRdb c d s = _; unfold execSeqRdb; rfl
  | seqWrb c d => exact .clocked ⟨rfl, rfl⟩ rfl _ fun s => by show execSeqWrb c d s = _; unfold execSeqWrb; rfl
  | seqCrc8 c d => exact .clocked ⟨rfl, rfl⟩ rfl _ fun s => by show execSeqCrc8 c d s = _; unfold execSeqCrc8; rfl
  | seqSkeq c d => exact .clocked ⟨rfl, rfl⟩ rfl _ fun s => by show execSeqSkeq c d s = _; unfold execSeqSkeq; rfl
  | seqSkne c d => exact .clocked ⟨rfl, rfl⟩ rfl _ fun s => by show execSeqSkne c d s = _; unfold execSeqSkne; rfl
  | seqSklt c d => exact .clocked ⟨rfl, rfl⟩ rfl _ fun s => by show execSeqSklt c d s = _; unfold execSeqSklt; rfl
  | seqCnt c d => exact .clocked ⟨rfl, rfl⟩ rfl _ fun s => by show execSeqCnt c d s = _; unfold execSeqCnt; rfl
  | seqEvt c d => exact .clocked ⟨rfl, rfl⟩ rfl _ fun s => by show execSeqEvt c d s = _; unfold execSeqEvt; rfl
  | cliStatus p =>
    exact .packet ⟨rfl, rfl⟩ _ p (Bool.and_true _) _ _ fun s => by
      show execCliStatus p s = _; unfold execCliStatus runCmd; rfl
  | cliTsRead p =>
    exact .packet ⟨rfl, rfl⟩ _ p (Bool.and_true _) _ _ fun s => by
      show execCliTsRead p s = _; unfold execCliTsRead runCmd; rfl
  | clientBitslip p =>
    exact .packet ⟨rfl, rfl⟩ _ p (Bool.and_true _) _ _ fun s => by
      show execClientBitslip p s = _; unfold execClientBitslip runCmd; rfl
  | ingressAlignment cl aligned =>
    exact .clocked ⟨rfl, rfl⟩ rfl _ fun s => by
      show execIngressAlignment cl aligned s = _; unfold execIngressAlignment; rfl
  | laneClockChange lane ok =>
    exact .clocked ⟨rfl, rfl⟩ rfl _ fun s => by
      show execLaneClockChange lane ok s = _; unfold execLaneClockChange; rfl
  | laneRetuneDone cl =>
    exact .clocked ⟨rfl, rfl⟩ rfl _ fun s => by
      show execLaneRetuneDone cl s = _; unfold execLaneRetuneDone; rfl
  | squelchDelayExpiry cl =>
    exact .clocked ⟨rfl, rfl⟩ rfl _ fun s => by
      show execSquelchDelayExpiry cl s = _; unfold execSquelchDelayExpiry; rfl
  | tsPacket cl d ns frac pkt =>
    exact .clocked ⟨rfl, rfl⟩ rfl _ fun s => by
      show execTsPacket cl d ns frac pkt s = _; unfold execTsPacket; rfl
  | cryStatus p =>
    exact .packet ⟨rfl, rfl⟩ _ p (Bool.and_true _) _ _ fun s => by
      show execCryStatus p s = _; unfold execCryStatus runCmd; rfl
  | keyInstall p =>
    exact .packet ⟨rfl, rfl⟩ _ p (Bool.and_true _) _ _ fun s => by
      show execKeyInstall p s = _; unfold execKeyInstall runCmd; rfl
  | keyInstallApply => exact .window rfl _ fun s => by show execKeyInstallApply s = _; unfold execKeyInstallApply; rfl
  | keySwitch p =>
    exact .packet ⟨rfl, rfl⟩ _ p (Bool.and_true _) _ _ fun s => by
      show execKeySwitch p s = _; unfold execKeySwitch runTimed; rfl
  | keyZeroise p =>
    exact .packet ⟨rfl, rfl⟩ _ p (Bool.and_true _) _ _ fun s => by
      show execKeyZeroise p s = _; unfold execKeyZeroise runTimed; rfl
  | cryGcmTest p src =>
    exact .packet ⟨rfl, rfl⟩ _ p (Bool.and_true _) _ _ fun s => by
      show execCryGcmTest p src s = _; unfold execCryGcmTest runCmd; rfl
  | keStart p =>
    exact .packet ⟨rfl, rfl⟩ _ p (Bool.and_true _) _ _ fun s => by
      show execKeStart p s = _; unfold execKeStart runCmd; rfl
  | keStatus p =>
    exact .packet ⟨rfl, rfl⟩ _ p (Bool.and_true _) _ _ fun s => by
      show execKeStatus p s = _; unfold execKeStatus runCmd; rfl
  | keAbort p =>
    exact .packet ⟨rfl, rfl⟩ _ p (Bool.and_true _) _ _ fun s => by
      show execKeAbort p s = _; unfold execKeAbort runCmd; rfl
  | keSecretSet p =>
    exact .packet ⟨rfl, rfl⟩ _ p (Bool.and_true _) _ _ fun s => by
      show execKeSecretSet p s = _; unfold execKeSecretSet runCmd; rfl
  | pkVerify p =>
    exact .packet ⟨rfl, rfl⟩ _ p (Bool.and_true _) _ _ fun s => by
      show execPkVerify p s = _; unfold execPkVerify runPool; rfl
  | pkEcdh p =>
    exact .packet ⟨rfl, rfl⟩ _ p (Bool.and_true _) _ _ fun s => by
      show execPkEcdh p s = _; unfold execPkEcdh runPool; rfl
  | keEpochFloor p =>
    exact .packet ⟨rfl, rfl⟩ _ p (Bool.and_true _) _ _ fun s => by
      show execKeEpochFloor p s = _; unfold execKeEpochFloor runCmd; rfl
  | epochRecordWritten ok =>
    exact .clocked ⟨rfl, rfl⟩ rfl _ fun s => by
      show execEpochRecordWritten ok s = _; unfold execEpochRecordWritten; rfl
  | keyUseLimit c sa =>
    exact .clocked ⟨rfl, rfl⟩ rfl _ fun s => by
      show execKeyUseLimit c sa s = _; unfold execKeyUseLimit; rfl
  | retiredKeyZeroise c sa =>
    exact .clocked ⟨rfl, rfl⟩ rfl _ fun s => by
      show execRetiredKeyZeroise c sa s = _; unfold execRetiredKeyZeroise; rfl
  | rxKeyCheckLimit c sa =>
    exact .clocked ⟨rfl, rfl⟩ rfl _ fun s => by
      show execRxKeyCheckLimit c sa s = _; unfold execRxKeyCheckLimit; rfl
  | offer c => exact .clocked ⟨rfl, rfl⟩ rfl _ fun s => by show execOffer c s = _; unfold execOffer; rfl
  | answer c => exact .clocked ⟨rfl, rfl⟩ rfl _ fun s => by show execAnswer c s = _; unfold execAnswer; rfl
  | confirm c => exact .clocked ⟨rfl, rfl⟩ rfl _ fun s => by show execConfirm c s = _; unfold execConfirm; rfl
  | done c => exact .clocked ⟨rfl, rfl⟩ rfl _ fun s => by show execDone c s = _; unfold execDone; rfl
  | abort c => exact .clocked ⟨rfl, rfl⟩ rfl _ fun s => by show execAbort c s = _; unfold execAbort; rfl
  | keResendExpiry c =>
    exact .clocked ⟨rfl, rfl⟩ rfl _ fun s => by
      show execKeResendExpiry c s = _; unfold execKeResendExpiry; rfl
  | noPeerTimeout c =>
    exact .clocked ⟨rfl, rfl⟩ rfl _ fun s => by
      show execNoPeerTimeout c s = _; unfold execNoPeerTimeout; rfl
  | pkOpDone => exact .clocked ⟨rfl, rfl⟩ rfl _ fun s => by show execPkOpDone s = _; unfold execPkOpDone; rfl
  | drbgReseed ok =>
    exact .clocked ⟨rfl, rfl⟩ rfl _ fun s => by
      show execDrbgReseed ok s = _; unfold execDrbgReseed; rfl
  | whStatus p =>
    exact .packet ⟨rfl, rfl⟩ _ p (Bool.and_true _) _ _ fun s => by
      show execWhStatus p s = _; unfold execWhStatus runCmd; rfl
  | whSend p =>
    exact .packet ⟨rfl, rfl⟩ _ p (Bool.and_true _) _ _ fun s => by
      show execWhSend p s = _; unfold execWhSend runPool; rfl
  | whRecv p =>
    exact .packet ⟨rfl, rfl⟩ _ p (Bool.and_true _) _ _ fun s => by
      show execWhRecv p s = _; unfold execWhRecv runCmd; rfl
  | whConfig p =>
    exact .packet ⟨rfl, rfl⟩ _ p (Bool.and_true _) _ _ fun s => by
      show execWhConfig p s = _; unfold execWhConfig runCmd; rfl
  | whBankSwap p =>
    exact .packet ⟨rfl, rfl⟩ _ p (Bool.and_true _) _ _ fun s => by
      show execWhBankSwap p s = _; unfold execWhBankSwap runCmd; rfl
  | whBankSwapApply chain =>
    exact .window rfl _ fun s => by
      show execWhBankSwapApply chain s = _; unfold execWhBankSwapApply; rfl
  | whCapture p =>
    exact .packet ⟨rfl, rfl⟩ _ p (Bool.and_true _) _ _ fun s => by
      show execWhCapture p s = _; unfold execWhCapture runCmd; rfl
  | whFrameStart c => exact .window rfl _ fun s => by show execWhFrameStart c s = _; unfold execWhFrameStart; rfl
  | whFrameSent c => exact .window rfl _ fun s => by show execWhFrameSent c s = _; unfold execWhFrameSent; rfl
  | whSyncDetect c diffs =>
    exact .clocked ⟨rfl, rfl⟩ rfl _ fun s => by
      show execWhSyncDetect c diffs s = _; unfold execWhSyncDetect; rfl
  | whHeader c raw =>
    exact .clocked ⟨rfl, rfl⟩ rfl _ fun s => by
      show execWhHeader c raw s = _; unfold execWhHeader; rfl
  | whFrameRx c raw =>
    exact .clocked ⟨rfl, rfl⟩ rfl _ fun s => by
      show execWhFrameRx c raw s = _; unfold execWhFrameRx; rfl
  | whLightChange c present =>
    exact .clocked ⟨rfl, rfl⟩ rfl _ fun s => by
      show execWhLightChange c present s = _; unfold execWhLightChange; rfl
  | pilotLock c locked =>
    exact .clocked ⟨rfl, rfl⟩ rfl _ fun s => by
      show execPilotLock c locked s = _; unfold execPilotLock; rfl
  | dmStatus p =>
    exact .packet ⟨rfl, rfl⟩ _ p (Bool.and_true _) _ _ fun s => by
      show execDmStatus p s = _; unfold execDmStatus runCmd; rfl
  | dmJoin p =>
    exact .packet ⟨rfl, rfl⟩ _ p (Bool.and_true _) _ _ fun s => by
      show execDmJoin p s = _; unfold execDmJoin runCmd; rfl
  | dmLeave p =>
    exact .packet ⟨rfl, rfl⟩ _ p (Bool.and_true _) _ _ fun s => by
      show execDmLeave p s = _; unfold execDmLeave runCmd; rfl
  | dmPublish p =>
    exact .packet ⟨rfl, rfl⟩ _ p (Bool.and_true _) _ _ fun s => by
      show execDmPublish p s = _; unfold execDmPublish runCmd; rfl
  | dmCfgRead p =>
    exact .packet ⟨rfl, rfl⟩ _ p (Bool.and_true _) _ _ fun s => by
      show execDmCfgRead p s = _; unfold execDmCfgRead runCmd; rfl
  | dmSend p =>
    exact .packet ⟨rfl, rfl⟩ _ p (Bool.and_true _) _ _ fun s => by
      show execDmSend p s = _; unfold execDmSend runCmd; rfl
  | dmRecv p =>
    exact .packet ⟨rfl, rfl⟩ _ p (Bool.and_true _) _ _ fun s => by
      show execDmRecv p s = _; unfold execDmRecv runCmd; rfl
  | dmCall p =>
    exact .packet ⟨rfl, rfl⟩ _ p (Bool.and_true _) _ _ fun s => by
      show execDmCall p s = _; unfold execDmCall runCmd; rfl
  | dmCallBind p =>
    exact .packet ⟨rfl, rfl⟩ _ p (Bool.and_true _) _ _ fun s => by
      show execDmCallBind p s = _; unfold execDmCallBind; rfl
  | callWaitLimit => exact .window rfl _ fun s => by show execCallWaitLimit s = _; unfold execCallWaitLimit; rfl
  | cfgReq => exact .clocked ⟨rfl, rfl⟩ rfl _ fun s => by show execCfgReq s = _; unfold execCfgReq; rfl
  | cfgPart => exact .clocked ⟨rfl, rfl⟩ rfl _ fun s => by show execCfgPart s = _; unfold execCfgPart; rfl
  | call => exact .clocked ⟨rfl, rfl⟩ rfl _ fun s => by show execCall s = _; unfold execCall; rfl
  | host => exact .clocked ⟨rfl, rfl⟩ rfl _ fun s => by show execHost s = _; unfold execHost; rfl
  | probe => exact .clocked ⟨rfl, rfl⟩ rfl _ fun s => by show execProbe s = _; unfold execProbe; rfl
  | probeReply => exact .clocked ⟨rfl, rfl⟩ rfl _ fun s => by show execProbeReply s = _; unfold execProbeReply; rfl
  | beacon => exact .clocked ⟨rfl, rfl⟩ rfl _ fun s => by show execBeacon s = _; unfold execBeacon; rfl
  | domainRecordWritten ok =>
    exact .clocked ⟨rfl, rfl⟩ rfl _ fun s => by
      show execDomainRecordWritten ok s = _; unfold execDomainRecordWritten; rfl
  | cfgAdopt => exact .window rfl _ fun s => by show execCfgAdopt s = _; unfold execCfgAdopt; rfl
  | fetchTimeout =>
    exact .clocked ⟨rfl, rfl⟩ rfl _ fun s => by
      show execFetchTimeout s = _; unfold execFetchTimeout; rfl
  | cfgSkewTimeout nb =>
    exact .clocked ⟨rfl, rfl⟩ rfl _ fun s => by
      show execCfgSkewTimeout nb s = _; unfold execCfgSkewTimeout; rfl
  | epochGraceExpiry c =>
    exact .clocked ⟨rfl, rfl⟩ rfl _ fun s => by
      show execEpochGraceExpiry c s = _; unfold execEpochGraceExpiry; rfl
  | pathTimeout path =>
    exact .clocked ⟨rfl, rfl⟩ rfl _ fun s => by
      show execPathTimeout path s = _; unfold execPathTimeout; rfl
  | whisperBeaconSend c =>
    exact .clocked ⟨rfl, rfl⟩ rfl _ fun s => by
      show execWhisperBeaconSend c s = _; unfold execWhisperBeaconSend; rfl
  | mateStatus p =>
    exact .packet ⟨rfl, rfl⟩ _ p (Bool.and_true _) _ _ fun s => by
      show execMateStatus p s = _; unfold execMateStatus runCmd; rfl
  | mateSwitch p =>
    exact .packet ⟨rfl, rfl⟩ _ p (Bool.and_true _) _ _ fun s => by
      show execMateSwitch p s = _; unfold execMateSwitch runCmd; rfl
  | mateFrameRx lane frame lag =>
    exact .clocked ⟨rfl, rfl⟩ rfl _ fun s => by
      show execMateFrameRx lane frame lag s = _; unfold execMateFrameRx; rfl
  | mateLaneDown lane =>
    exact .clocked ⟨rfl, rfl⟩ rfl _ fun s => by
      show execMateLaneDown lane s = _; unfold execMateLaneDown; rfl
  | mateActivate => exact .window rfl _ fun s => by show execMateActivate s = _; unfold execMateActivate; rfl
  | mateSwitchTick => exact .window rfl _ fun s => by show execMateSwitchTick s = _; unfold execMateSwitchTick; rfl
  | mateAutoSwitch =>
    exact .clocked ⟨rfl, rfl⟩ rfl _ fun s => by
      show execMateAutoSwitch s = _; unfold execMateAutoSwitch; rfl
  | mateHoldoffExpiry =>
    exact .clocked ⟨rfl, rfl⟩ rfl _ fun s => by
      show execMateHoldoffExpiry s = _; unfold execMateHoldoffExpiry; rfl
  | probeTimer => exact .clocked ⟨rfl, rfl⟩ rfl _ fun s => by show execProbeTimer s = _; unfold execProbeTimer; rfl
  | juniorLeaseExpiry =>
    exact .window rfl _ fun s => by
      show execJuniorLeaseExpiry s = _; unfold execJuniorLeaseExpiry; rfl
  | seniorTakeover => exact .window rfl _ fun s => by show execSeniorTakeover s = _; unfold execSeniorTakeover; rfl
  | peerLostTimeout =>
    exact .clocked ⟨rfl, rfl⟩ rfl _ fun s => by
      show execPeerLostTimeout s = _; unfold execPeerLostTimeout; rfl
  | calStatus p =>
    exact .packet ⟨rfl, rfl⟩ _ p (Bool.and_true _) _ _ fun s => by
      show execCalStatus p s = _; unfold execCalStatus runCmd; rfl
  | calRun p =>
    exact .packet ⟨rfl, rfl⟩ _ p (Bool.and_true _) _ _ fun s => by
      show execCalRun p s = _; unfold execCalRun runCmd; rfl
  | calStore p =>
    exact .packet ⟨rfl, rfl⟩ _ p (Bool.and_true _) _ _ fun s => by
      show execCalStore p s = _; unfold execCalStore runCmd; rfl
  | calTest p =>
    exact .packet ⟨rfl, rfl⟩ _ p (Bool.and_true _) _ _ fun s => by
      show execCalTest p s = _; unfold execCalTest runCmd; rfl
  | calTrimSet p =>
    exact .packet ⟨rfl, rfl⟩ _ p (Bool.and_true _) _ _ fun s => by
      show execCalTrimSet p s = _; unfold execCalTrimSet runCmd; rfl
  | calSpareSet p =>
    exact .packet ⟨rfl, rfl⟩ _ p (Bool.and_true _) _ _ fun s => by
      show execCalSpareSet p s = _; unfold execCalSpareSet runCmd; rfl
  | calDump p =>
    exact .packet ⟨rfl, rfl⟩ _ p (Bool.and_true _) _ _ fun s => by
      show execCalDump p s = _; unfold execCalDump runCmd; rfl
  | foregroundCalDone cv res =>
    exact .clocked ⟨rfl, rfl⟩ rfl _ fun s => by
      show execForegroundCalDone cv res s = _; unfold execForegroundCalDone; rfl
  | calMeasurementDone cv res =>
    exact .clocked ⟨rfl, rfl⟩ rfl _ fun s => by
      show execCalMeasurementDone cv res s = _; unfold execCalMeasurementDone; rfl
  | spareCalDone cv res =>
    exact .clocked ⟨rfl, rfl⟩ rfl _ fun s => by
      show execSpareCalDone cv res s = _; unfold execSpareCalDone; rfl
  | spareSwap cv => exact .clocked ⟨rfl, rfl⟩ rfl _ fun s => by show execSpareSwap cv s = _; unfold execSpareSwap; rfl
  | calStoreWritten ok =>
    exact .clocked ⟨rfl, rfl⟩ rfl _ fun s => by
      show execCalStoreWritten ok s = _; unfold execCalStoreWritten; rfl
  | tempSensorRead cv t =>
    exact .clocked ⟨rfl, rfl⟩ rfl _ fun s => by
      show execTempSensorRead cv t s = _; unfold execTempSensorRead; rfl
  | stwStatus p =>
    exact .packet ⟨rfl, rfl⟩ _ p (Bool.and_true _) _ _ fun s => by
      show execStwStatus p s = _; unfold execStwStatus runCmd; rfl
  | tenStatus p =>
    exact .packet ⟨rfl, rfl⟩ _ p (Bool.and_true _) _ _ fun s => by
      show execTenStatus p s = _; unfold execTenStatus runCmd; rfl
  | engImageLoad p img =>
    exact .packet ⟨rfl, rfl⟩ _ p (Bool.and_true _) _ _ fun s => by
      show execEngImageLoad p img s = _; unfold execEngImageLoad runCmd; rfl
  | engImageFree p =>
    exact .packet ⟨rfl, rfl⟩ _ p (Bool.and_true _) _ _ fun s => by
      show execEngImageFree p s = _; unfold execEngImageFree runCmd; rfl
  | stwPageAlloc p =>
    exact .packet ⟨rfl, rfl⟩ _ p (Bool.and_true _) _ _ fun s => by
      show execStwPageAlloc p s = _; unfold execStwPageAlloc runCmd; rfl
  | pageRequestTimeout =>
    exact .clocked ⟨rfl, rfl⟩ rfl _ fun s => by
      show execPageRequestTimeout s = _; unfold execPageRequestTimeout; rfl
  | stwPageFree p =>
    exact .packet ⟨rfl, rfl⟩ _ p (Bool.and_true _) _ _ fun s => by
      show execStwPageFree p s = _; unfold execStwPageFree runCmd; rfl
  | stwRenew p =>
    exact .packet ⟨rfl, rfl⟩ _ p (Bool.and_true _) _ _ fun s => by
      show execStwRenew p s = _; unfold execStwRenew runCmd; rfl
  | stwDmaGrant p =>
    exact .packet ⟨rfl, rfl⟩ _ p (Bool.and_true _) _ _ fun s => by
      show execStwDmaGrant p s = _; unfold execStwDmaGrant runPool; rfl
  | stwDmaRelease p =>
    exact .packet ⟨rfl, rfl⟩ _ p (Bool.and_true _) _ _ fun s => by
      show execStwDmaRelease p s = _; unfold execStwDmaRelease runCmd; rfl
  | tenantRevoke p =>
    exact .packet ⟨rfl, rfl⟩ _ p (Bool.and_true _) _ _ fun s => by
      show execTenantRevoke p s = _; unfold execTenantRevoke runCmd; rfl
  | stwQuarantine p =>
    exact .packet ⟨rfl, rfl⟩ _ p (Bool.and_true _) _ _ fun s => by
      show execStwQuarantine p s = _; unfold execStwQuarantine runCmd; rfl
  | stwRelease p =>
    exact .packet ⟨rfl, rfl⟩ _ p (Bool.and_true _) _ _ fun s => by
      show execStwRelease p s = _; unfold execStwRelease runCmd; rfl
  | engTest p =>
    exact .packet ⟨rfl, rfl⟩ _ p (Bool.and_true _) _ _ fun s => by
      show execEngTest p s = _; unfold execEngTest runCmd; rfl
  | runBudgetExpiry e =>
    exact .clocked ⟨rfl, rfl⟩ rfl _ fun s => by
      show execRunBudgetExpiry e s = _; unfold execRunBudgetExpiry; rfl
  | engineSelfTest e pass =>
    exact .clocked ⟨rfl, rfl⟩ rfl _ fun s => by
      show execEngineSelfTest e pass s = _; unfold execEngineSelfTest; rfl
  | zeroiseDone page =>
    exact .clocked ⟨rfl, rfl⟩ rfl _ fun s => by
      show execZeroiseDone page s = _; unfold execZeroiseDone; rfl
  | engEnd e => exact .clocked ⟨rfl, rfl⟩ rfl _ fun s => by show execEngEnd e s = _; unfold execEngEnd engRow; rfl
  | engNop e => exact .clocked ⟨rfl, rfl⟩ rfl _ fun s => by show execEngNop e s = _; unfold execEngNop engRow; rfl
  | engBr e => exact .clocked ⟨rfl, rfl⟩ rfl _ fun s => by show execEngBr e s = _; unfold execEngBr engRow; rfl
  | engEvt e => exact .clocked ⟨rfl, rfl⟩ rfl _ fun s => by show execEngEvt e s = _; unfold execEngEvt engRow; rfl
  | engSys e => exact .clocked ⟨rfl, rfl⟩ rfl _ fun s => by show execEngSys e s = _; unfold execEngSys engRow; rfl
  | engAdd e => exact .clocked ⟨rfl, rfl⟩ rfl _ fun s => by show execEngAdd e s = _; unfold execEngAdd engRow; rfl
  | engSub e => exact .clocked ⟨rfl, rfl⟩ rfl _ fun s => by show execEngSub e s = _; unfold execEngSub engRow; rfl
  | engAnd e => exact .clocked ⟨rfl, rfl⟩ rfl _ fun s => by show execEngAnd e s = _; unfold execEngAnd engRow; rfl
  | engOr e => exact .clocked ⟨rfl, rfl⟩ rfl _ fun s => by show execEngOr e s = _; unfold execEngOr engRow; rfl
  | engXor e => exact .clocked ⟨rfl, rfl⟩ rfl _ fun s => by show execEngXor e s = _; unfold execEngXor engRow; rfl
  | engShl e => exact .clocked ⟨rfl, rfl⟩ rfl _ fun s => by show execEngShl e s = _; unfold execEngShl engRow; rfl
  | engShr e => exact .clocked ⟨rfl, rfl⟩ rfl _ fun s => by show execEngShr e s = _; unfold execEngShr engRow; rfl
  | engSar e => exact .clocked ⟨rfl, rfl⟩ rfl _ fun s => by show execEngSar e s = _; unfold execEngSar engRow; rfl
  | engMovi e => exact .clocked ⟨rfl, rfl⟩ rfl _ fun s => by show execEngMovi e s = _; unfold execEngMovi engRow; rfl
  | engAddi e => exact .clocked ⟨rfl, rfl⟩ rfl _ fun s => by show execEngAddi e s = _; unfold execEngAddi engRow; rfl
  | engCmpeq e =>
    exact .clocked ⟨rfl, rfl⟩ rfl _ fun s => by
      show execEngCmpeq e s = _; unfold execEngCmpeq engRow; rfl
  | engCmplt e =>
    exact .clocked ⟨rfl, rfl⟩ rfl _ fun s => by
      show execEngCmplt e s = _; unfold execEngCmplt engRow; rfl
  | engCmpltu e =>
    exact .clocked ⟨rfl, rfl⟩ rfl _ fun s => by
      show execEngCmpltu e s = _; unfold execEngCmpltu engRow; rfl
  | engMul e => exact .clocked ⟨rfl, rfl⟩ rfl _ fun s => by show execEngMul e s = _; unfold execEngMul engRow; rfl
  | engMulh e => exact .clocked ⟨rfl, rfl⟩ rfl _ fun s => by show execEngMulh e s = _; unfold execEngMulh engRow; rfl
  | engMulhu e =>
    exact .clocked ⟨rfl, rfl⟩ rfl _ fun s => by
      show execEngMulhu e s = _; unfold execEngMulhu engRow; rfl
  | engVadd e => exact .clocked ⟨rfl, rfl⟩ rfl _ fun s => by show execEngVadd e s = _; unfold execEngVadd engRow; rfl
  | engVsub e => exact .clocked ⟨rfl, rfl⟩ rfl _ fun s => by show execEngVsub e s = _; unfold execEngVsub engRow; rfl
  | engVadds e =>
    exact .clocked ⟨rfl, rfl⟩ rfl _ fun s => by
      show execEngVadds e s = _; unfold execEngVadds engRow; rfl
  | engVsubs e =>
    exact .clocked ⟨rfl, rfl⟩ rfl _ fun s => by
      show execEngVsubs e s = _; unfold execEngVsubs engRow; rfl
  | engVmin e => exact .clocked ⟨rfl, rfl⟩ rfl _ fun s => by show execEngVmin e s = _; unfold execEngVmin engRow; rfl
  | engVmax e => exact .clocked ⟨rfl, rfl⟩ rfl _ fun s => by show execEngVmax e s = _; unfold execEngVmax engRow; rfl
  | engVand e => exact .clocked ⟨rfl, rfl⟩ rfl _ fun s => by show execEngVand e s = _; unfold execEngVand engRow; rfl
  | engVor e => exact .clocked ⟨rfl, rfl⟩ rfl _ fun s => by show execEngVor e s = _; unfold execEngVor engRow; rfl
  | engVxor e => exact .clocked ⟨rfl, rfl⟩ rfl _ fun s => by show execEngVxor e s = _; unfold execEngVxor engRow; rfl
  | engVshl e => exact .clocked ⟨rfl, rfl⟩ rfl _ fun s => by show execEngVshl e s = _; unfold execEngVshl engRow; rfl
  | engVshr e => exact .clocked ⟨rfl, rfl⟩ rfl _ fun s => by show execEngVshr e s = _; unfold execEngVshr engRow; rfl
  | engVsar e => exact .clocked ⟨rfl, rfl⟩ rfl _ fun s => by show execEngVsar e s = _; unfold execEngVsar engRow; rfl
  | engVcmpeq e =>
    exact .clocked ⟨rfl, rfl⟩ rfl _ fun s => by
      show execEngVcmpeq e s = _; unfold execEngVcmpeq engRow; rfl
  | engVcmplt e =>
    exact .clocked ⟨rfl, rfl⟩ rfl _ fun s => by
      show execEngVcmplt e s = _; unfold execEngVcmplt engRow; rfl
  | engVmul e => exact .clocked ⟨rfl, rfl⟩ rfl _ fun s => by show execEngVmul e s = _; unfold execEngVmul engRow; rfl
  | engMac e => exact .clocked ⟨rfl, rfl⟩ rfl _ fun s => by show execEngMac e s = _; unfold execEngMac engRow; rfl
  | engCmul e => exact .clocked ⟨rfl, rfl⟩ rfl _ fun s => by show execEngCmul e s = _; unfold execEngCmul engRow; rfl
  | engCmac e => exact .clocked ⟨rfl, rfl⟩ rfl _ fun s => by show execEngCmac e s = _; unfold execEngCmac engRow; rfl
  | engCmacc e =>
    exact .clocked ⟨rfl, rfl⟩ rfl _ fun s => by
      show execEngCmacc e s = _; unfold execEngCmacc engRow; rfl
  | engBcast e =>
    exact .clocked ⟨rfl, rfl⟩ rfl _ fun s => by
      show execEngBcast e s = _; unfold execEngBcast engRow; rfl
  | engShuf e => exact .clocked ⟨rfl, rfl⟩ rfl _ fun s => by show execEngShuf e s = _; unfold execEngShuf engRow; rfl
  | engRot e => exact .clocked ⟨rfl, rfl⟩ rfl _ fun s => by show execEngRot e s = _; unfold execEngRot engRow; rfl
  | engRedadd e =>
    exact .clocked ⟨rfl, rfl⟩ rfl _ fun s => by
      show execEngRedadd e s = _; unfold execEngRedadd engRow; rfl
  | engIns e => exact .clocked ⟨rfl, rfl⟩ rfl _ fun s => by show execEngIns e s = _; unfold execEngIns engRow; rfl
  | engExt e => exact .clocked ⟨rfl, rfl⟩ rfl _ fun s => by show execEngExt e s = _; unfold execEngExt engRow; rfl
  | engPand e => exact .clocked ⟨rfl, rfl⟩ rfl _ fun s => by show execEngPand e s = _; unfold execEngPand engRow; rfl
  | engPor e => exact .clocked ⟨rfl, rfl⟩ rfl _ fun s => by show execEngPor e s = _; unfold execEngPor engRow; rfl
  | engPnot e => exact .clocked ⟨rfl, rfl⟩ rfl _ fun s => by show execEngPnot e s = _; unfold execEngPnot engRow; rfl
  | engPmov e => exact .clocked ⟨rfl, rfl⟩ rfl _ fun s => by show execEngPmov e s = _; unfold execEngPmov engRow; rfl
  | engLd e => exact .clocked ⟨rfl, rfl⟩ rfl _ fun s => by show execEngLd e s = _; unfold execEngLd engRow; rfl
  | engSt e => exact .clocked ⟨rfl, rfl⟩ rfl _ fun s => by show execEngSt e s = _; unfold execEngSt engRow; rfl
  | engVld e => exact .clocked ⟨rfl, rfl⟩ rfl _ fun s => by show execEngVld e s = _; unfold execEngVld engRow; rfl
  | engVst e => exact .clocked ⟨rfl, rfl⟩ rfl _ fun s => by show execEngVst e s = _; unfold execEngVst engRow; rfl
  | engVin e => exact .clocked ⟨rfl, rfl⟩ rfl _ fun s => by show execEngVin e s = _; unfold execEngVin engRow; rfl
  | engVout e => exact .clocked ⟨rfl, rfl⟩ rfl _ fun s => by show execEngVout e s = _; unfold execEngVout engRow; rfl
  | engSin e => exact .clocked ⟨rfl, rfl⟩ rfl _ fun s => by show execEngSin e s = _; unfold execEngSin engRow; rfl
  | engSout e => exact .clocked ⟨rfl, rfl⟩ rfl _ fun s => by show execEngSout e s = _; unfold execEngSout engRow; rfl
  | engSld e => exact .clocked ⟨rfl, rfl⟩ rfl _ fun s => by show execEngSld e s = _; unfold execEngSld engRow; rfl
  | engSst e => exact .clocked ⟨rfl, rfl⟩ rfl _ fun s => by show execEngSst e s = _; unfold execEngSst engRow; rfl
  | engSwait e =>
    exact .clocked ⟨rfl, rfl⟩ rfl _ fun s => by
      show execEngSwait e s = _; unfold execEngSwait engRow; rfl
  | storeStatus p =>
    exact .packet ⟨rfl, rfl⟩ _ p (Bool.and_true _) _ _ fun s => by
      show execStoreStatus p s = _; unfold execStoreStatus runCmd; rfl
  | storeScrub p =>
    exact .packet ⟨rfl, rfl⟩ _ p (Bool.and_true _) _ _ fun s => by
      show execStoreScrub p s = _; unfold execStoreScrub runCmd; rfl
  | storeFallow p =>
    exact .packet ⟨rfl, rfl⟩ _ p (Bool.and_true _) _ _ fun s => by
      show execStoreFallow p s = _; unfold execStoreFallow runCmd; rfl
  | storeFlush p =>
    exact .packet ⟨rfl, rfl⟩ _ p (Bool.and_true _) _ _ fun s => by
      show execStoreFlush p s = _; unfold execStoreFlush runCmd; rfl
  | dmaStart p =>
    exact .packet ⟨rfl, rfl⟩ _ p (Bool.and_true _) _ _ fun s => by
      show execDmaStart p s = _; unfold execDmaStart runCmd; rfl
  | dmaStatus p =>
    exact .packet ⟨rfl, rfl⟩ _ p (Bool.and_true _) _ _ fun s => by
      show execDmaStatus p s = _; unfold execDmaStatus runCmd; rfl
  | dmaAbort p =>
    exact .packet ⟨rfl, rfl⟩ _ p (Bool.and_true _) _ _ fun s => by
      show execDmaAbort p s = _; unfold execDmaAbort runCmd; rfl
  | crcUnit p =>
    exact .packet ⟨rfl, rfl⟩ _ p (Bool.and_true _) _ _ fun s => by
      show execCrcUnit p s = _; unfold execCrcUnit runCmd; rfl
  | storeInject p =>
    exact .packet ⟨rfl, rfl⟩ _ p (Bool.and_true _) _ _ fun s => by
      show execStoreInject p s = _; unfold execStoreInject runCmd; rfl
  | dmaDescriptor ch desc data =>
    exact .clocked ⟨rfl, rfl⟩ rfl _ fun s => by
      show execDmaDescriptor ch desc data s = _; unfold execDmaDescriptor; rfl
  | descriptorComplete ch =>
    exact .clocked ⟨rfl, rfl⟩ rfl _ fun s => by
      show execDescriptorComplete ch s = _; unfold execDescriptorComplete; rfl
  | mergeFlushTimeout =>
    exact .clocked ⟨rfl, rfl⟩ rfl _ fun s => by
      show execMergeFlushTimeout s = _; unfold execMergeFlushTimeout; rfl
  | quarantineTest page ones zeros =>
    exact .clocked ⟨rfl, rfl⟩ rfl _ fun s => by
      show execQuarantineTest page ones zeros s = _; unfold execQuarantineTest; rfl
  | fallowRecordWritten ok =>
    exact .clocked ⟨rfl, rfl⟩ rfl _ fun s => by
      show execFallowRecordWritten ok s = _; unfold execFallowRecordWritten; rfl
  | periodicScrub =>
    exact .clocked ⟨rfl, rfl⟩ rfl _ fun s => by
      show execPeriodicScrub s = _; unfold execPeriodicScrub; rfl
  | obsClear p =>
    exact .packet ⟨rfl, rfl⟩ _ p (Bool.and_true _) _ _ fun s => by
      show execObsClear p s = _; unfold execObsClear runTimed; rfl
  | obsHarvestNow p =>
    exact .packet ⟨rfl, rfl⟩ _ p (Bool.and_true _) _ _ fun s => by
      show execObsHarvestNow p s = _; unfold execObsHarvestNow runTimed; rfl
  | obsSampleRead p =>
    exact .packet ⟨rfl, rfl⟩ _ p (Bool.and_true _) _ _ fun s => by
      show execObsSampleRead p s = _; unfold execObsSampleRead runCmd; rfl
  | harvest => exact .window rfl _ fun s => by show execHarvest s = _; unfold execHarvest; rfl
  | harvestRecordWritten =>
    exact .clocked ⟨rfl, rfl⟩ rfl _ fun s => by
      show execHarvestRecordWritten s = _; unfold execHarvestRecordWritten; rfl
  | equaliserConvergenceLost c =>
    exact .clocked ⟨rfl, rfl⟩ rfl _ fun s => by
      show execEqualiserConvergenceLost c s = _; unfold execEqualiserConvergenceLost; rfl
  | exchangeRecordExpiry c =>
    exact .clocked ⟨rfl, rfl⟩ rfl _ fun s => by
      show execExchangeRecordExpiry c s = _; unfold execExchangeRecordExpiry; rfl
  | missingOffsetRequest =>
    exact .clocked ⟨rfl, rfl⟩ rfl _ fun s => by
      show execMissingOffsetRequest s = _; unfold execMissingOffsetRequest; rfl
  | conflictFlagExpiry =>
    exact .clocked ⟨rfl, rfl⟩ rfl _ fun s => by
      show execConflictFlagExpiry s = _; unfold execConflictFlagExpiry; rfl

theorem firstOf_head {x : Option Refuse} {l : List (Option Refuse)} {r : Refuse} (h : x = some r) :
    firstOf (x :: l) = some r := by
  subst h; rfl

theorem firstOf_prefix {l k : List (Option Refuse)} {r : Refuse} (h : firstOf l = some r) : firstOf (l ++ k) = some r := by
  induction l with
  | nil => cases h
  | cons x l ih =>
    cases x with
    | none => exact ih h
    | some y => exact h

/-- What steps 7 and 8 check alike for every command comes before the opcode's own checks. -/
theorem checks_common {i : CmdInfo} {p : Packet} {chk : State → Option Refuse} (t : State) (r : Refuse)
    (h : firstOf (checkSession i p t :: checkHeader i p ++ checkParams i p) = some r) : checks i p chk t = some r := by
  rw [checks]
  exact firstOf_prefix h

/-- A host command runs through the pipeline, and what is checked alike for every command decides first. -/
theorem exec_host (c : Instr) (i : CmdInfo) (p : Packet) (h : hostCommand c = some (i, p)) :
    ∃ pre act, (∀ s, exec c s = command i.op p pre act s) ∧
      ∀ t r, firstOf (checkSession i p t :: checkHeader i p ++ checkParams i p) = some r →
        pre t = if i.op = 0x0003 ∧ (getSess t p.q.val).isSome then some { step := 7, st := 0x31 } else some r := by
  cases c with
  | nop op p =>
    rw [hostCommand] at h
    split at h
    · rename_i h0
      cases h
      subst h0
      by_cases ha : p.atTick = 0
      · exact ⟨_, _, fun s => by show execNop 0 p s = _; unfold execNop runCmd; simp only [ha]; rfl, fun t r e => checks_common t r e⟩
      · exact ⟨_, _, fun s => by show execNop 0 p s = _; unfold execNop runTimed; simp only [ha]; rfl,
          fun t r e => firstOf_head (checks_common t r e)⟩
    · cases h
  | identify p =>
    cases h
    exact ⟨_, _, fun s => by show execIdentify p s = _; unfold execIdentify runCmd; rfl, fun t r e => checks_common t r e⟩
  | stateGet p =>
    cases h
    exact ⟨_, _, fun s => by show execStateGet p s = _; unfold execStateGet runCmd; rfl, fun t r e => checks_common t r e⟩
  | sessionOpen p =>
    cases h
    refine ⟨_, _, fun s => by show execSessionOpen p s = _; unfold execSessionOpen; rfl, fun t r e => ?_⟩
    cases hs : getSess t p.q.val with
    | none =>
      have hk := checks_common (i := infoSessionOpen) (chk := fun _ => none) t r e
      rw [hk]
      rfl
    | some x => rfl
  | sessionClose p =>
    cases h
    exact ⟨_, _, fun s => by show execSessionClose p s = _; unfold execSessionClose runCmd; rfl, fun t r e => checks_common t r e⟩
  | expertEnable p =>
    cases h
    exact ⟨_, _, fun s => by show execExpertEnable p s = _; unfold execExpertEnable runCmd; rfl, fun t r e => checks_common t r e⟩
  | paramGet p =>
    cases h
    exact ⟨_, _, fun s => by show execParamGet p s = _; unfold execParamGet runCmd; rfl, fun t r e => checks_common t r e⟩
  | paramSet p =>
    cases h
    exact ⟨_, _, fun s => by show execParamSet p s = _; unfold execParamSet runCmd; rfl, fun t r e => checks_common t r e⟩
  | commit p =>
    cases h
    exact ⟨_, _, fun s => by show execCommit p s = _; unfold execCommit; rfl, fun t r e => firstOf_head (checks_common t r e)⟩
  | solsticePrepare p =>
    cases h
    exact ⟨_, _, fun s => by show execSolsticePrepare p s = _; unfold execSolsticePrepare; rfl, fun t r e => firstOf_head (checks_common t r e)⟩
  | solsticeArm p =>
    cases h
    exact ⟨_, _, fun s => by show execSolsticeArm p s = _; unfold execSolsticeArm; rfl, fun t r e => firstOf_head (checks_common t r e)⟩
  | solsticeCancel p =>
    cases h
    exact ⟨_, _, fun s => by show execSolsticeCancel p s = _; unfold execSolsticeCancel runCmd; rfl, fun t r e => checks_common t r e⟩
  | timedList p =>
    cases h
    exact ⟨_, _, fun s => by show execTimedList p s = _; unfold execTimedList runCmd; rfl, fun t r e => checks_common t r e⟩
  | fwUpdate p chunk =>
    cases h
    exact ⟨_, _, fun s => by show execFwUpdate p chunk s = _; unfold execFwUpdate runCmd; rfl, fun t r e => checks_common t r e⟩
  | fwActivate p =>
    cases h
    exact ⟨_, _, fun s => by show execFwActivate p s = _; unfold execFwActivate runCmd; rfl, fun t r e => checks_common t r e⟩
  | flashStatus p =>
    cases h
    exact ⟨_, _, fun s => by show execFlashStatus p s = _; unfold execFlashStatus runCmd; rfl, fun t r e => checks_common t r e⟩
  | pwrStatus p =>
    cases h
    exact ⟨_, _, fun s => by show execPwrStatus p s = _; unfold execPwrStatus runCmd; rfl, fun t r e => checks_common t r e⟩
  | pwrSet p =>
    cases h
    exact ⟨_, _, fun s => by show execPwrSet p s = _; unfold execPwrSet runCmd; rfl, fun t r e => checks_common t r e⟩
  | pwrGate p =>
    cases h
    exact ⟨_, _, fun s => by show execPwrGate p s = _; unfold execPwrGate runCmd; rfl, fun t r e => checks_common t r e⟩
  | pinRearm p =>
    cases h
    exact ⟨_, _, fun s => by show execPinRearm p s = _; unfold execPinRearm runCmd; rfl, fun t r e => checks_common t r e⟩
  | pmbusXfer p =>
    cases h
    exact ⟨_, _, fun s => by show execPmbusXfer p s = _; unfold execPmbusXfer runCmd; rfl, fun t r e => checks_common t r e⟩
  | tmStatus p =>
    cases h
    exact ⟨_, _, fun s => by show execTmStatus p s = _; unfold execTmStatus runCmd; rfl, fun t r e => checks_common t r e⟩
  | tmSelect p =>
    cases h
    exact ⟨_, _, fun s => by show execTmSelect p s = _; unfold execTmSelect runCmd; rfl, fun t r e => checks_common t r e⟩
  | tmPriority p =>
    cases h
    exact ⟨_, _, fun s => by show execTmPriority p s = _; unfold execTmPriority runCmd; rfl, fun t r e => checks_common t r e⟩
  | tmStep p =>
    cases h
    exact ⟨_, _, fun s => by show execTmStep p s = _; unfold execTmStep runTimed; rfl, fun t r e => firstOf_head (checks_common t r e)⟩
  | tmPhaseAdj p =>
    cases h
    exact ⟨_, _, fun s => by show execTmPhaseAdj p s = _; unfold execTmPhaseAdj runCmd; rfl, fun t r e => checks_common t r e⟩
  | tmSteer p =>
    cases h
    exact ⟨_, _, fun s => by show execTmSteer p s = _; unfold execTmSteer runCmd; rfl, fun t r e => checks_common t r e⟩
  | ppsAlign p =>
    cases h
    exact ⟨_, _, fun s => by show execPpsAlign p s = _; unfold execPpsAlign runTimed; rfl, fun t r e => firstOf_head (checks_common t r e)⟩
  | tmTodRead p =>
    cases h
    exact ⟨_, _, fun s => by show execTmTodRead p s = _; unfold execTmTodRead runCmd; rfl, fun t r e => checks_common t r e⟩
  | tmForceHoldover p =>
    cases h
    exact ⟨_, _, fun s => by show execTmForceHoldover p s = _; unfold execTmForceHoldover runCmd; rfl, fun t r e => checks_common t r e⟩
  | txStatus p =>
    cases h
    exact ⟨_, _, fun s => by show execTxStatus p s = _; unfold execTxStatus runCmd; rfl, fun t r e => checks_common t r e⟩
  | txModePreset p =>
    cases h
    exact ⟨_, _, fun s => by show execTxModePreset p s = _; unfold execTxModePreset runCmd; rfl, fun t r e => checks_common t r e⟩
  | txCapacity p =>
    cases h
    exact ⟨_, _, fun s => by show execTxCapacity p s = _; unfold execTxCapacity runCmd; rfl, fun t r e => checks_common t r e⟩
  | rxStatus p =>
    cases h
    exact ⟨_, _, fun s => by show execRxStatus p s = _; unfold execRxStatus runCmd; rfl, fun t r e => checks_common t r e⟩
  | rxAcquire p =>
    cases h
    exact ⟨_, _, fun s => by show execRxAcquire p s = _; unfold execRxAcquire runTimed; rfl, fun t r e => firstOf_head (checks_common t r e)⟩
  | rxMeasure p =>
    cases h
    exact ⟨_, _, fun s => by show execRxMeasure p s = _; unfold execRxMeasure runCmd; rfl, fun t r e => checks_common t r e⟩
  | rxTapDump p =>
    cases h
    exact ⟨_, _, fun s => by show execRxTapDump p s = _; unfold execRxTapDump runCmd; rfl, fun t r e => checks_common t r e⟩
  | rxCapture p =>
    cases h
    by_cases ha : p.atTick = 0
    · exact ⟨_, _, fun s => by show execRxCapture p s = _; unfold execRxCapture runCmd; rw [if_pos ha], fun t r e => checks_common t r e⟩
    · exact ⟨_, _, fun s => by show execRxCapture p s = _; unfold execRxCapture runTimed; rw [if_neg ha],
        fun t r e => firstOf_head (checks_common t r e)⟩
  | fecStatus p =>
    cases h
    exact ⟨_, _, fun s => by show execFecStatus p s = _; unfold execFecStatus runCmd; rfl, fun t r e => checks_common t r e⟩
  | fecPool p =>
    cases h
    exact ⟨_, _, fun s => by show execFecPool p s = _; unfold execFecPool runCmd; rfl, fun t r e => checks_common t r e⟩
  | fecCoreTest p =>
    cases h
    exact ⟨_, _, fun s => by show execFecCoreTest p s = _; unfold execFecCoreTest runCmd; rfl, fun t r e => checks_common t r e⟩
  | frmStatus p =>
    cases h
    exact ⟨_, _, fun s => by show execFrmStatus p s = _; unfold execFrmStatus runCmd; rfl, fun t r e => checks_common t r e⟩
  | frmGccSend p =>
    cases h
    exact ⟨_, _, fun s => by show execFrmGccSend p s = _; unfold execFrmGccSend runPool; rfl, fun t r e => firstOf_head (checks_common t r e)⟩
  | frmGccRecv p =>
    cases h
    exact ⟨_, _, fun s => by show execFrmGccRecv p s = _; unfold execFrmGccRecv runCmd; rfl, fun t r e => checks_common t r e⟩
  | frmApsSet p =>
    cases h
    exact ⟨_, _, fun s => by show execFrmApsSet p s = _; unfold execFrmApsSet runCmd; rfl, fun t r e => checks_common t r e⟩
  | frmOhCapture p =>
    cases h
    exact ⟨_, _, fun s => by show execFrmOhCapture p s = _; unfold execFrmOhCapture runCmd; rfl, fun t r e => checks_common t r e⟩
  | cliStatus p =>
    cases h
    exact ⟨_, _, fun s => by show execCliStatus p s = _; unfold execCliStatus runCmd; rfl, fun t r e => checks_common t r e⟩
  | cliTsRead p =>
    cases h
    exact ⟨_, _, fun s => by show execCliTsRead p s = _; unfold execCliTsRead runCmd; rfl, fun t r e => checks_common t r e⟩
  | clientBitslip p =>
    cases h
    exact ⟨_, _, fun s => by show execClientBitslip p s = _; unfold execClientBitslip runCmd; rfl, fun t r e => checks_common t r e⟩
  | cryStatus p =>
    cases h
    exact ⟨_, _, fun s => by show execCryStatus p s = _; unfold execCryStatus runCmd; rfl, fun t r e => checks_common t r e⟩
  | keyInstall p =>
    cases h
    exact ⟨_, _, fun s => by show execKeyInstall p s = _; unfold execKeyInstall runCmd; rfl, fun t r e => checks_common t r e⟩
  | keySwitch p =>
    cases h
    exact ⟨_, _, fun s => by show execKeySwitch p s = _; unfold execKeySwitch runTimed; rfl, fun t r e => firstOf_head (checks_common t r e)⟩
  | keyZeroise p =>
    cases h
    exact ⟨_, _, fun s => by show execKeyZeroise p s = _; unfold execKeyZeroise runTimed; rfl, fun t r e => firstOf_head (checks_common t r e)⟩
  | cryGcmTest p src =>
    cases h
    exact ⟨_, _, fun s => by show execCryGcmTest p src s = _; unfold execCryGcmTest runCmd; rfl, fun t r e => checks_common t r e⟩
  | keStart p =>
    cases h
    exact ⟨_, _, fun s => by show execKeStart p s = _; unfold execKeStart runCmd; rfl, fun t r e => checks_common t r e⟩
  | keStatus p =>
    cases h
    exact ⟨_, _, fun s => by show execKeStatus p s = _; unfold execKeStatus runCmd; rfl, fun t r e => checks_common t r e⟩
  | keAbort p =>
    cases h
    exact ⟨_, _, fun s => by show execKeAbort p s = _; unfold execKeAbort runCmd; rfl, fun t r e => checks_common t r e⟩
  | keSecretSet p =>
    cases h
    exact ⟨_, _, fun s => by show execKeSecretSet p s = _; unfold execKeSecretSet runCmd; rfl, fun t r e => checks_common t r e⟩
  | pkVerify p =>
    cases h
    exact ⟨_, _, fun s => by show execPkVerify p s = _; unfold execPkVerify runPool; rfl, fun t r e => firstOf_head (checks_common t r e)⟩
  | pkEcdh p =>
    cases h
    exact ⟨_, _, fun s => by show execPkEcdh p s = _; unfold execPkEcdh runPool; rfl, fun t r e => firstOf_head (checks_common t r e)⟩
  | keEpochFloor p =>
    cases h
    exact ⟨_, _, fun s => by show execKeEpochFloor p s = _; unfold execKeEpochFloor runCmd; rfl, fun t r e => checks_common t r e⟩
  | whStatus p =>
    cases h
    exact ⟨_, _, fun s => by show execWhStatus p s = _; unfold execWhStatus runCmd; rfl, fun t r e => checks_common t r e⟩
  | whSend p =>
    cases h
    exact ⟨_, _, fun s => by show execWhSend p s = _; unfold execWhSend runPool; rfl, fun t r e => firstOf_head (checks_common t r e)⟩
  | whRecv p =>
    cases h
    exact ⟨_, _, fun s => by show execWhRecv p s = _; unfold execWhRecv runCmd; rfl, fun t r e => checks_common t r e⟩
  | whConfig p =>
    cases h
    exact ⟨_, _, fun s => by show execWhConfig p s = _; unfold execWhConfig runCmd; rfl, fun t r e => checks_common t r e⟩
  | whBankSwap p =>
    cases h
    exact ⟨_, _, fun s => by show execWhBankSwap p s = _; unfold execWhBankSwap runCmd; rfl, fun t r e => checks_common t r e⟩
  | whCapture p =>
    cases h
    exact ⟨_, _, fun s => by show execWhCapture p s = _; unfold execWhCapture runCmd; rfl, fun t r e => checks_common t r e⟩
  | dmStatus p =>
    cases h
    exact ⟨_, _, fun s => by show execDmStatus p s = _; unfold execDmStatus runCmd; rfl, fun t r e => checks_common t r e⟩
  | dmJoin p =>
    cases h
    exact ⟨_, _, fun s => by show execDmJoin p s = _; unfold execDmJoin runCmd; rfl, fun t r e => checks_common t r e⟩
  | dmLeave p =>
    cases h
    exact ⟨_, _, fun s => by show execDmLeave p s = _; unfold execDmLeave runCmd; rfl, fun t r e => checks_common t r e⟩
  | dmPublish p =>
    cases h
    exact ⟨_, _, fun s => by show execDmPublish p s = _; unfold execDmPublish runCmd; rfl, fun t r e => checks_common t r e⟩
  | dmCfgRead p =>
    cases h
    exact ⟨_, _, fun s => by show execDmCfgRead p s = _; unfold execDmCfgRead runCmd; rfl, fun t r e => checks_common t r e⟩
  | dmSend p =>
    cases h
    exact ⟨_, _, fun s => by show execDmSend p s = _; unfold execDmSend runCmd; rfl, fun t r e => checks_common t r e⟩
  | dmRecv p =>
    cases h
    exact ⟨_, _, fun s => by show execDmRecv p s = _; unfold execDmRecv runCmd; rfl, fun t r e => checks_common t r e⟩
  | dmCall p =>
    cases h
    exact ⟨_, _, fun s => by show execDmCall p s = _; unfold execDmCall runCmd; rfl, fun t r e => checks_common t r e⟩
  | dmCallBind p =>
    cases h
    exact ⟨_, _, fun s => by show execDmCallBind p s = _; unfold execDmCallBind; rfl, fun t r e => firstOf_head (checks_common t r e)⟩
  | mateStatus p =>
    cases h
    exact ⟨_, _, fun s => by show execMateStatus p s = _; unfold execMateStatus runCmd; rfl, fun t r e => checks_common t r e⟩
  | mateSwitch p =>
    cases h
    exact ⟨_, _, fun s => by show execMateSwitch p s = _; unfold execMateSwitch runCmd; rfl, fun t r e => checks_common t r e⟩
  | calStatus p =>
    cases h
    exact ⟨_, _, fun s => by show execCalStatus p s = _; unfold execCalStatus runCmd; rfl, fun t r e => checks_common t r e⟩
  | calRun p =>
    cases h
    exact ⟨_, _, fun s => by show execCalRun p s = _; unfold execCalRun runCmd; rfl, fun t r e => checks_common t r e⟩
  | calStore p =>
    cases h
    exact ⟨_, _, fun s => by show execCalStore p s = _; unfold execCalStore runCmd; rfl, fun t r e => checks_common t r e⟩
  | calTest p =>
    cases h
    exact ⟨_, _, fun s => by show execCalTest p s = _; unfold execCalTest runCmd; rfl, fun t r e => checks_common t r e⟩
  | calTrimSet p =>
    cases h
    exact ⟨_, _, fun s => by show execCalTrimSet p s = _; unfold execCalTrimSet runCmd; rfl, fun t r e => checks_common t r e⟩
  | calSpareSet p =>
    cases h
    exact ⟨_, _, fun s => by show execCalSpareSet p s = _; unfold execCalSpareSet runCmd; rfl, fun t r e => checks_common t r e⟩
  | calDump p =>
    cases h
    exact ⟨_, _, fun s => by show execCalDump p s = _; unfold execCalDump runCmd; rfl, fun t r e => checks_common t r e⟩
  | stwStatus p =>
    cases h
    exact ⟨_, _, fun s => by show execStwStatus p s = _; unfold execStwStatus runCmd; rfl, fun t r e => checks_common t r e⟩
  | tenStatus p =>
    cases h
    exact ⟨_, _, fun s => by show execTenStatus p s = _; unfold execTenStatus runCmd; rfl, fun t r e => checks_common t r e⟩
  | engImageLoad p img =>
    cases h
    exact ⟨_, _, fun s => by show execEngImageLoad p img s = _; unfold execEngImageLoad runCmd; rfl, fun t r e => checks_common t r e⟩
  | engImageFree p =>
    cases h
    exact ⟨_, _, fun s => by show execEngImageFree p s = _; unfold execEngImageFree runCmd; rfl, fun t r e => checks_common t r e⟩
  | stwPageAlloc p =>
    cases h
    exact ⟨_, _, fun s => by show execStwPageAlloc p s = _; unfold execStwPageAlloc runCmd; rfl, fun t r e => checks_common t r e⟩
  | stwPageFree p =>
    cases h
    exact ⟨_, _, fun s => by show execStwPageFree p s = _; unfold execStwPageFree runCmd; rfl, fun t r e => checks_common t r e⟩
  | stwRenew p =>
    cases h
    exact ⟨_, _, fun s => by show execStwRenew p s = _; unfold execStwRenew runCmd; rfl, fun t r e => checks_common t r e⟩
  | stwDmaGrant p =>
    cases h
    exact ⟨_, _, fun s => by show execStwDmaGrant p s = _; unfold execStwDmaGrant runPool; rfl, fun t r e => firstOf_head (checks_common t r e)⟩
  | stwDmaRelease p =>
    cases h
    exact ⟨_, _, fun s => by show execStwDmaRelease p s = _; unfold execStwDmaRelease runCmd; rfl, fun t r e => checks_common t r e⟩
  | tenantRevoke p =>
    cases h
    exact ⟨_, _, fun s => by show execTenantRevoke p s = _; unfold execTenantRevoke runCmd; rfl, fun t r e => checks_common t r e⟩
  | stwQuarantine p =>
    cases h
    exact ⟨_, _, fun s => by show execStwQuarantine p s = _; unfold execStwQuarantine runCmd; rfl, fun t r e => checks_common t r e⟩
  | stwRelease p =>
    cases h
    exact ⟨_, _, fun s => by show execStwRelease p s = _; unfold execStwRelease runCmd; rfl, fun t r e => checks_common t r e⟩
  | engTest p =>
    cases h
    exact ⟨_, _, fun s => by show execEngTest p s = _; unfold execEngTest runCmd; rfl, fun t r e => checks_common t r e⟩
  | storeStatus p =>
    cases h
    exact ⟨_, _, fun s => by show execStoreStatus p s = _; unfold execStoreStatus runCmd; rfl, fun t r e => checks_common t r e⟩
  | storeScrub p =>
    cases h
    exact ⟨_, _, fun s => by show execStoreScrub p s = _; unfold execStoreScrub runCmd; rfl, fun t r e => checks_common t r e⟩
  | storeFallow p =>
    cases h
    exact ⟨_, _, fun s => by show execStoreFallow p s = _; unfold execStoreFallow runCmd; rfl, fun t r e => checks_common t r e⟩
  | storeFlush p =>
    cases h
    exact ⟨_, _, fun s => by show execStoreFlush p s = _; unfold execStoreFlush runCmd; rfl, fun t r e => checks_common t r e⟩
  | dmaStart p =>
    cases h
    exact ⟨_, _, fun s => by show execDmaStart p s = _; unfold execDmaStart runCmd; rfl, fun t r e => checks_common t r e⟩
  | dmaStatus p =>
    cases h
    exact ⟨_, _, fun s => by show execDmaStatus p s = _; unfold execDmaStatus runCmd; rfl, fun t r e => checks_common t r e⟩
  | dmaAbort p =>
    cases h
    exact ⟨_, _, fun s => by show execDmaAbort p s = _; unfold execDmaAbort runCmd; rfl, fun t r e => checks_common t r e⟩
  | crcUnit p =>
    cases h
    exact ⟨_, _, fun s => by show execCrcUnit p s = _; unfold execCrcUnit runCmd; rfl, fun t r e => checks_common t r e⟩
  | storeInject p =>
    cases h
    exact ⟨_, _, fun s => by show execStoreInject p s = _; unfold execStoreInject runCmd; rfl, fun t r e => checks_common t r e⟩
  | obsClear p =>
    cases h
    exact ⟨_, _, fun s => by show execObsClear p s = _; unfold execObsClear runTimed; rfl, fun t r e => firstOf_head (checks_common t r e)⟩
  | obsHarvestNow p =>
    cases h
    exact ⟨_, _, fun s => by show execObsHarvestNow p s = _; unfold execObsHarvestNow runTimed; rfl, fun t r e => firstOf_head (checks_common t r e)⟩
  | obsSampleRead p =>
    cases h
    exact ⟨_, _, fun s => by show execObsSampleRead p s = _; unfold execObsSampleRead runCmd; rfl, fun t r e => checks_common t r e⟩
  | _ => cases h

end Sys2Proof.Machine
end

