-- ==== Sys2Proof/Laws/Lists.lean ====
section
/-! SUPPORT. Laws/Lists.lean: lists changed at one place, lists cut into bytes, and the queues and tenants kept in such lists. -/
namespace Sys2Proof.Machine

theorem list_getD_all {α} (l : List α) (d : α) (P : α → Prop) (hd : P d) (h : ∀ x ∈ l, P x) (n : Nat) : P (l.getD n d) := by
  rw [List.getD_eq_getElem?_getD]
  cases hn : l[n]? with
  | none => exact hd
  | some x => exact h x (List.mem_of_getElem? hn)

theorem list_getD_set {α} (l : List α) (n m : Nat) (x d : α) : (l.set n x).getD m d = if m = n ∧ n < l.length then x else l.getD m d := by
  rw [List.getD_eq_getElem?_getD, List.getD_eq_getElem?_getD, List.getElem?_set]
  by_cases h : n = m
  · subst h
    by_cases h2 : n < l.length
    · simp [h2]
    · simp [h2]
  · have : ¬ m = n := fun e => h e.symm
    simp [h, this]

theorem tenants_getD_lmod (l : List Tenant) (t : Nat) (f) (h : t < l.length) : (lmod l t f).getD t {} = f (l.getD t {}) := by
  simp [lmod, List.getD_eq_getElem?_getD, List.getElem?_modify_eq, h]

theorem lmod_length {α} (l : List α) (t : Nat) (f) : (lmod l t f).length = l.length := by simp [lmod]

theorem zeros_length (n) : (zeros n).length = n := by simp [zeros]

theorem le_length (k n) : (le k n).length = k := by induction k generalizing n <;> simp [le, *]

theorem firstOf_map_none {α} (l : List α) (f : α → Option Refuse) (h : ∀ x ∈ l, f x = none) : firstOf (l.map f) = none := by
  induction l with
  | nil => rfl
  | cons a l ih => rw [List.map_cons, firstOf_cons]; exact ⟨h a (by simp), ih fun x hx => h x (by simp [hx])⟩

theorem heldPages_updTen (t u : Nat) (f) (s : State) : heldPages (updTen u f s) t = heldPages s t := rfl

theorem getQ_updQ (q q' : Nat) (f : Queue → Queue) (s : State) (h : q < s.cmd.queues.length) : getQ (updQ q f s) q' = if q' = q then f (getQ s q) else getQ s q' := by
  simp only [getQ, updQ, lmod, List.getD_eq_getElem?_getD, List.getElem?_modify]
  by_cases hq : q = q'
  · subst hq; simp [h]
  · have : ¬ q' = q := fun x => hq x.symm
    simp [hq, this]

end Sys2Proof.Machine
end

