-- ==== Sys2Proof/Laws/Lanes.lean ====
section
/-! SUPPORT. Laws/Lanes.lean: lanes of a vector register and the scalar registers of a run. -/
namespace Sys2Proof.Machine

theorem lanes_length (k : Nat) (v : BitVec 512) : (lanes k v).length = 512 / k := by simp [lanes]

theorem lanes_getD (k : Nat) (v : BitVec 512) (j : Nat) (h : j < 512 / k) : (lanes k v).getD j 0 = v.toNat / 2 ^ (j * k) % 2 ^ k := by
  simp [lanes, List.getD_eq_getElem?_getD, h, Nat.shiftRight_eq_div_pow]

theorem unlanes_foldr_lt (k : Nat) (xs : List Nat) : xs.foldr (fun x acc => acc * 2 ^ k + x % 2 ^ k) 0 < 2 ^ (k * xs.length) := by
  induction xs with
  | nil => simp
  | cons x xs ih =>
    simp only [List.foldr_cons, List.length_cons, Nat.mul_succ, Nat.pow_add]
    have : x % 2 ^ k < 2 ^ k := Nat.mod_lt _ (Nat.two_pow_pos k)
    calc _ < xs.foldr (fun x acc => acc * 2 ^ k + x % 2 ^ k) 0 * 2 ^ k + 2 ^ k := by omega
      _ = (xs.foldr (fun x acc => acc * 2 ^ k + x % 2 ^ k) 0 + 1) * 2 ^ k := by rw [Nat.succ_mul]
      _ ≤ 2 ^ (k * xs.length) * 2 ^ k := Nat.mul_le_mul_right _ ih

theorem unlanes_foldr_getD (k : Nat) (xs : List Nat) (j : Nat) : xs.foldr (fun x acc => acc * 2 ^ k + x % 2 ^ k) 0 / 2 ^ (j * k) % 2 ^ k = xs.getD j 0 % 2 ^ k := by
  induction xs generalizing j with
  | nil => simp
  | cons x xs ih =>
    cases j with
    | zero => simp [Nat.add_comm, Nat.add_mul_mod_self_right]
    | succ j =>
      rw [List.getD_cons_succ, ← ih j]
      simp only [List.foldr_cons]
      have : (j + 1) * k = k + j * k := by rw [Nat.succ_mul, Nat.add_comm]
      rw [this, Nat.pow_add, ← Nat.div_div_eq_div_mul]
      congr 2
      rw [Nat.add_comm, Nat.add_mul_div_right _ _ (Nat.two_pow_pos k), Nat.div_eq_of_lt (Nat.mod_lt _ (Nat.two_pow_pos k)), Nat.zero_add]

theorem lanes_unlanes (k : Nat) (xs : List Nat) (hx : k * xs.length ≤ 512) (j : Nat) (h : j < 512 / k) : (lanes k (unlanes k xs)).getD j 0 = xs.getD j 0 % 2 ^ k := by
  have hlt : xs.foldr (fun x acc => acc * 2 ^ k + x % 2 ^ k) 0 < 2 ^ 512 := Nat.lt_of_lt_of_le (unlanes_foldr_lt k xs) (Nat.pow_le_pow_right (by decide) hx)
  rw [lanes_getD _ _ _ h, unlanes, BitVec.toNat_ofNat, Nat.mod_eq_of_lt hlt, unlanes_foldr_getD]

theorem setS_get (r : Run) (d n : Nat) (x : BitVec 64) (h : r.sr.length = 16) (hd : d < 16) : (r.setS d x).s n = if n = d then x else r.s n := by
  simp only [Run.setS, Run.s, list_getD_set]; by_cases hn : n = d <;> simp [hn, h, hd]

end Sys2Proof.Machine
end

