-- ==== Sys2Proof/Laws/Memory.lean ====
section
/-! SUPPORT. Laws/Memory.lean: every operation that writes a byte memory keeps the canonical form of all of them. -/
namespace Sys2Proof.Machine

theorem Memory.wf_iff (s : State) : Memory.wf s = true ↔ SMap.wf (0 : Byte) s.hostMem = true ∧
    SMap.wf (0 : Byte) s.str.mem = true ∧ SMap.wf (0xFF : Byte) s.flash.mem = true ∧
    SMap.wf (0 : Byte) s.boot.staging = true ∧ SMap.wf (0 : Byte) s.cmd.mb.req = true ∧
    SMap.wf (0 : Byte) s.cmd.mb.res = true := by
  simp only [Memory.wf, Bool.and_eq_true, and_assoc]

theorem reset_memory_wf : Memory.wf State.reset = true := by decide

/-- Two states hold the same bytes in their memories. -/
structure SameMem (s t : State) : Prop where
  host : t.hostMem = s.hostMem
  store : t.str.mem = s.str.mem
  flash : t.flash.mem = s.flash.mem
  staging : t.boot.staging = s.boot.staging
  req : t.cmd.mb.req = s.cmd.mb.req
  res : t.cmd.mb.res = s.cmd.mb.res

theorem SameMem.refl (s : State) : SameMem s s := ⟨rfl, rfl, rfl, rfl, rfl, rfl⟩

theorem SameMem.trans {s t u : State} (h : SameMem s t) (k : SameMem t u) : SameMem s u :=
  ⟨k.host.trans h.host, k.store.trans h.store, k.flash.trans h.flash, k.staging.trans h.staging, k.req.trans h.req,
    k.res.trans h.res⟩

theorem SameMem.wf {s t : State} (h : SameMem s t) (w : Memory.wf s = true) : Memory.wf t = true := by
  rw [Memory.wf_iff, h.host, h.store, h.flash, h.staging, h.req, h.res]
  exact (Memory.wf_iff s).mp w

theorem Reports.sameMem {s t : State} (h : Reports s t) : SameMem s t := by
  have hr := h.rest
  refine ⟨?_, ?_, ?_, ?_, ?_, ?_⟩ <;> rw [hr]

/-! ## Host memory, flash, boot staging and the mailbox -/

theorem hostWrite_wf (a : Nat) (bs : Bytes) (s : State) (h : Memory.wf s = true) : Memory.wf (hostWrite a bs s) = true := by
  obtain ⟨h1, hr⟩ := (Memory.wf_iff s).mp h
  exact (Memory.wf_iff _).mpr ⟨SMap.wf_putAll _ _ _ _ h1, hr⟩

theorem flashProgram_wf (a : Nat) (bs : Bytes) (s : State) (h : Memory.wf s = true) :
    Memory.wf (flashProgram a bs s) = true := by
  obtain ⟨h1, h2, h3, hr⟩ := (Memory.wf_iff s).mp h
  exact (Memory.wf_iff _).mpr ⟨h1, h2, SMap.wf_putAll _ _ _ _ h3, hr⟩

theorem flashErase_wf (a n : Nat) (s : State) (h : Memory.wf s = true) : Memory.wf (flashErase a n s) = true := by
  obtain ⟨h1, h2, h3, hr⟩ := (Memory.wf_iff s).mp h
  exact (Memory.wf_iff _).mpr ⟨h1, h2, SMap.wf_filter _ _ _ h3, hr⟩

/-- What a register write to the staging area does to boot staging. -/
theorem staging_wf (a : Nat) (bs : Bytes) (s : State) (h : Memory.wf s = true) :
    Memory.wf { s with boot := { s.boot with staging := SMap.putAll (0 : Byte) s.boot.staging a bs } } = true := by
  obtain ⟨h1, h2, h3, h4, hr⟩ := (Memory.wf_iff s).mp h
  exact (Memory.wf_iff _).mpr ⟨h1, h2, h3, SMap.wf_putAll _ _ _ _ h4, hr⟩

theorem mailboxStore_wf (o : Nat) (bs : Bytes) (s : State) (h : Memory.wf s = true) :
    Memory.wf (mailboxStore o bs s) = true := by
  obtain ⟨h1, h2, h3, h4, h5, h6⟩ := (Memory.wf_iff s).mp h
  unfold mailboxStore
  split
  · exact (Memory.wf_iff _).mpr ⟨h1, h2, h3, h4, SMap.wf_putAll _ _ _ _ h5, h6⟩
  · split
    · unfold mailboxDoorbell spiErr; split <;> exact (Memory.wf_iff _).mpr ⟨h1, h2, h3, h4, h5, h6⟩
    · exact (Memory.wf_iff _).mpr ⟨h1, h2, h3, h4, h5, h6⟩

theorem putResult_wf (p : Packet) (bs : Bytes) (s : State) (h : Memory.wf s = true) :
    Memory.wf (putResult p bs s).2 = true := by
  obtain ⟨h1, h2, h3, h4, h5, h6⟩ := (Memory.wf_iff s).mp h
  unfold putResult
  split
  · exact (Memory.wf_iff _).mpr ⟨h1, h2, h3, h4, h5, SMap.wf_putAll _ _ _ _ h6⟩
  · exact hostWrite_wf _ _ _ h

theorem cqSignal_sameMem (q : Nat) (s : State) : SameMem s (cqSignal q s) := by
  unfold cqSignal
  have h : SameMem s (updQ q (fun u => { u with unsignalled := 0, coalStart := none }) s) := ⟨rfl, rfl, rfl, rfl, rfl, rfl⟩
  exact h.trans (signal_reports _ _).sameMem

/-- Writing a completion changes no memory but the 32 bytes of its entry in host memory (R79). -/
theorem cqWrite_sameMem (q : Nat) (c : Cpl) (s : State) :
    SameMem (hostWrite ((getQ s q).cqBase + 32 * (getQ s q).cqTail) (entBytes c (getQ s q).phase (getQ s q).sqHead) s)
      (cqWrite q c s) := by
  unfold cqWrite
  dsimp only
  refine SameMem.trans ?_ (raiseIf_reports _ _ _).sameMem
  split
  · refine SameMem.trans ?_ (cqSignal_sameMem _ _)
    exact ⟨rfl, rfl, rfl, rfl, rfl, rfl⟩
  · exact ⟨rfl, rfl, rfl, rfl, rfl, rfl⟩

theorem post_wf (q : Nat) (c : Cpl) (timed : Bool) (s : State) (h : Memory.wf s = true) :
    Memory.wf (post q c timed s) = true := by
  unfold post
  repeat' split
  · exact h
  · exact SameMem.wf (Reports.sameMem (raise_reports _ _)) h
  · exact h
  · exact h
  · exact (cqWrite_sameMem q c s).wf (hostWrite_wf _ _ _ h)

/-! ## The Store -/

theorem applyInject_sameMem (g : Nat) (s : State) : SameMem s (applyInject g s) := by
  unfold applyInject; split <;> exact ⟨rfl, rfl, rfl, rfl, rfl, rfl⟩

theorem foldl_sameMem {α : Type} (f : State → α → State) (h : ∀ s a, SameMem s (f s a)) (l : List α) (s : State) :
    SameMem s (l.foldl f s) := by
  induction l generalizing s with
  | nil => exact SameMem.refl s
  | cons a l ih => exact (h s a).trans (ih _)

/-- An update of the Store's other fields. -/
theorem updStr_sameMem (f : Str → Str) (s : State) (h : (f s.str).mem = s.str.mem) : SameMem s (updStr f s) :=
  ⟨rfl, h, rfl, rfl, rfl, rfl⟩

theorem setPg_sameMem (g : Nat) (p : Pg) (s : State) : SameMem s (setPg g p s) := ⟨rfl, rfl, rfl, rfl, rfl, rfl⟩

theorem strOnce_sameMem (e : Nat) (s : State) : SameMem s (strOnce e s) := by
  unfold strOnce
  split
  · exact SameMem.refl s
  · exact (updStr_sameMem _ s rfl).trans (raise_reports _ _).sameMem

theorem poisonPage_sameMem (g : Nat) (s : State) : SameMem s (poisonPage g s) := by
  have h0 : SameMem s (if ((mergeOf s g).map (·.bytes.length)).getD 0 = 0 then s
      else bumpBy 1733 (((mergeOf s g).map (·.bytes.length)).getD 0) s) := by
    split
    · exact SameMem.refl s
    · exact (bumpBy_reports _ _ _).sameMem
  unfold poisonPage
  dsimp only
  generalize (if ((mergeOf s g).map (·.bytes.length)).getD 0 = 0 then s
      else bumpBy 1733 (((mergeOf s g).map (·.bytes.length)).getD 0) s) = t at h0
  exact h0.trans (((updStr_sameMem _ t rfl).trans (setPg_sameMem g _ _)).trans
    ((updStr_sameMem _ _ rfl).trans ((bump_reports _ _).trans (raise_reports _ _)).sameMem))

theorem decodePg_sameMem (g : Nat) (s : State) : SameMem s (decodePg g s).2 := by
  have h0 : SameMem s (bump 1728 (applyInject g s)) := (applyInject_sameMem g s).trans (bump_reports _ _).sameMem
  unfold decodePg
  dsimp only
  generalize bump 1728 (applyInject g s) = t at h0
  generalize SMap.get 0 t.str.errs g = e
  split
  · exact h0.trans (poisonPage_sameMem _ _)
  · have h1 : SameMem s (if e = 0 then t else bumpBy 1730 e t) := by
      split
      · exact h0
      · exact h0.trans (bumpBy_reports _ _ _).sameMem
    generalize (if e = 0 then t else bumpBy 1730 e t) = u at h1
    split
    · exact h1.trans (((updStr_sameMem _ u rfl).trans (bump_reports _ _).sameMem).trans (strOnce_sameMem _ _))
    · exact h1

theorem foldl_put_wf (g : Nat) (l : List (Nat × Byte)) (m : SMap Byte) (h : SMap.wf (0 : Byte) m = true) :
    SMap.wf (0 : Byte) (l.foldl (fun m b => SMap.put (0 : Byte) m (g * 4096 + b.1) b.2) m) = true := by
  induction l generalizing m with
  | nil => exact h
  | cons b l ih => exact ih _ (SMap.wf_put _ _ _ _ h)

theorem flushPg_wf (g : Nat) (s : State) (h : Memory.wf s = true) : Memory.wf (flushPg g s) = true := by
  unfold flushPg
  split
  · exact h
  · rename_i e _
    dsimp only
    have put : ∀ t : State, Memory.wf t = true → Memory.wf (updStr (fun x => { x with
        mem := e.bytes.foldl (fun m b => SMap.put (0 : Byte) m (g * 4096 + b.1) b.2) x.mem,
        errs := SMap.del g x.errs, merge := x.merge.filter (·.page != g) }) t) = true := by
      intro t ht
      obtain ⟨h1, h2, hr⟩ := (Memory.wf_iff t).mp ht
      exact (Memory.wf_iff _).mpr ⟨h1, foldl_put_wf _ _ _ h2, hr⟩
    have hd := (decodePg_sameMem g s).wf h
    split
    · exact (applyInject_sameMem _ _).wf (put s h)
    · split
      · exact put _ hd
      · exact hd

theorem flushFor_wf (cause g : Nat) (s : State) (h : Memory.wf s = true) : Memory.wf (flushFor cause s g) = true :=
  flushPg_wf _ _ ((bump_reports _ _).sameMem.wf h)

theorem writePg_wf (g off : Nat) (bs : Bytes) (s : State) (h : Memory.wf s = true) :
    Memory.wf (writePg g off bs s) = true := by
  unfold writePg
  split
  · exact (bumpBy_reports _ _ _).sameMem.wf h
  · lift_lets
    extract_lets s1 old new s2
    have room : Memory.wf s1 = true := by
      dsimp only [s1]
      split
      · exact h
      · split
        · split
          · exact h
          · exact ((bump_reports _ _).sameMem.trans (strOnce_sameMem _ _)).wf (flushPg_wf _ _ h)
        · exact h
    have h2 : Memory.wf s2 = true := SameMem.wf (updStr_sameMem _ s1 rfl) room
    clear_value s2
    split
    · exact flushFor_wf _ _ _ h2
    · exact h2

theorem storeWrite_wf (a : Nat) (bs : Bytes) (s : State) (h : Memory.wf s = true) : Memory.wf (storeWrite a bs s) = true := by
  unfold storeWrite
  generalize pageParts a bs.length = l
  induction l generalizing s with
  | nil => exact h
  | cons p l ih => exact ih _ (writePg_wf _ _ _ _ h)

theorem startFallow_sameMem (o : Option CmdKey) (gs : List Nat) (s : State) : SameMem s (startFallow o gs s).2 := by
  have drop : ∀ (g : Nat) (p : Pg) (t : State), SameMem t (setPg g p (dropCopies g t)) :=
    fun _ _ _ => ⟨rfl, rfl, rfl, rfl, rfl, rfl⟩
  have low : ∀ t : State, SameMem t (lowCheck t) := by
    intro t
    have h : SameMem t (updStw (fun x => { x with low := decide (freePages t < t.parN 0xD010 0) }) t) :=
      ⟨rfl, rfl, rfl, rfl, rfl, rfl⟩
    exact h.trans (raiseIf_reports _ _ _).sameMem
  have add : ∀ (b : Bool) (f : FlashOp) (t : State), SameMem t (if b then t else flashAdd f t) := by
    intro b f t
    cases b
    · exact ⟨rfl, rfl, rfl, rfl, rfl, rfl⟩
    · exact SameMem.refl t
  exact SameMem.trans (SameMem.trans (foldl_sameMem _ (fun t g => drop g _ t) _ _)
    (foldl_sameMem _ (fun t g => (drop g _ t).trans (raise_reports _ _).sameMem) _ _)) ((add _ _ _).trans (low _))

theorem zeroiseDone_wf (g : Nat) (s : State) (h : Memory.wf s = true) : Memory.wf (zeroiseDone g s) = true := by
  unfold zeroiseDone
  split
  · dsimp only
    obtain ⟨h1, h2, hr⟩ := (Memory.wf_iff s).mp h
    have w : Memory.wf (setPg g {} (updStr (fun x => { x with
        mem := x.mem.filter fun b => b.1 / 4096 != g, errs := SMap.del g x.errs, inject := SMap.del g x.inject }) s)) = true :=
      (Memory.wf_iff _).mpr ⟨h1, SMap.wf_filter _ _ _ h2, hr⟩
    split
    · exact (startFallow_sameMem _ _ _).wf w
    · exact w
  · exact h

/-! ## Local memories of engines -/

theorem localWrite_wf (e a : Nat) (bs : Bytes) (s : State) (hs : SMap.wf ({} : Eng) s.stw.engs = true)
    (h : SMap.wf (0 : Byte) (getEng s e).mem = true) :
    SMap.wf (0 : Byte) (getEng (localWrite e a bs s) e).mem = true ∧ SMap.wf ({} : Eng) (localWrite e a bs s).stw.engs = true := by
  refine ⟨?_, SMap.wf_put _ _ _ _ hs⟩
  have hg : getEng (localWrite e a bs s) e = { getEng s e with mem := SMap.putAll (0 : Byte) (getEng s e).mem a bs } :=
    (SMap.get_put _ _ _ _ hs e).trans (if_pos rfl)
  rw [hg]
  exact SMap.wf_putAll _ _ _ _ h

end Sys2Proof.Machine
end

