-- ==== Sys2Proof/Laws/Registers.lean ====
section
/-! SUPPORT. Laws/Registers.lean: reads of the counter windows. -/
namespace Sys2Proof.Machine

theorem readBytes_four (path : Path) (a : Nat) (s : State) (h : a % 4 = 0) : readBytes path a 4 s = (slice (le 4 (regValue path a s)) 0 4, regLatch path a s) := by
  unfold readBytes
  have h1 : (a + 4 - 1) / 4 + 1 - a / 4 = 1 := by omega
  have h2 : 4 * (a / 4) = a := by omega
  simp only [show ¬ (4:Nat)=0 by decide, show ¬ (8:Nat)=0 by decide, reduceIte, h1]
  simp only [List.range_succ, List.range_zero, List.nil_append, List.foldl_cons, List.foldl_nil, Nat.add_zero, h2, h, reduceIte, show ¬ (4:Nat) = 0 by decide]

theorem readBytes_eight (path : Path) (a : Nat) (s : State) (h : a % 4 = 0) : readBytes path a 8 s = (slice (le 4 (regValue path a s) ++ le 4 (regValue path (a+4) (regLatch path a s))) 0 8, regLatch path (a+4) (regLatch path a s)) := by
  unfold readBytes
  have h1 : (a + 8 - 1) / 4 + 1 - a / 4 = 2 := by omega
  have h2 : 4 * (a / 4) = a := by omega
  have h3 : 4 * (a / 4 + 1) = a + 4 := by omega
  simp only [show ¬ (4:Nat)=0 by decide, show ¬ (8:Nat)=0 by decide, reduceIte, h1]
  simp only [List.range_succ, List.range_zero, List.nil_append, List.foldl_cons, List.foldl_nil, Nat.add_zero, h2, h3, h, reduceIte, show ¬ (8:Nat) = 0 by decide, List.foldl_append]

theorem regValue_cntLo (path) (n : Fin 2048) (s) : regValue path (0x10000 + 8*n.val) s = s.count n.val % 2^32 := by
  have := n.isLt
  unfold regValue
  repeat rw [if_neg (by omega)]
  rw [if_pos (by simp; omega), if_pos (by omega), show (65536 + 8*n.val - 65536)/8 = n.val by omega]

theorem regValue_cntHi (path) (n : Fin 2048) (s) : regValue path (0x10000 + 8*n.val + 4) s = cntLatchWord s path := by
  have := n.isLt
  unfold regValue
  repeat rw [if_neg (by omega)]
  rw [if_pos (by simp; omega), if_neg (by omega)]

theorem regLatch_cntHi (path) (n : Fin 2048) (s) : regLatch path (0x10000 + 8*n.val + 4) s = s := by
  have := n.isLt
  unfold regLatch
  rw [if_neg (by omega), if_neg (by simp; omega)]

end Sys2Proof.Machine
end

