-- ==== Sys2Proof/Laws/Rows.lean ====
section
/-! SUPPORT. Laws/Rows.lean: rows of sequencers and engines at the program counter, refusals before a command's own checks, Solstice checks. -/
namespace Sys2Proof.Machine

theorem seqStep_hit {k : Nat} {c : Line} {d : Dir} {f : Nat → State → State} {t : State} {w : Nat} (h : seqWord t c d = some w) (ho : seqOp w = k) : seqStep k c d f t = seqStop c d (f w t) := by
  simp [seqStep, h, ho]

theorem engRow_hit {cls fn : Nat} {op : EngOp} {e : Fin 256} {s t : State} {r : Run} {code : Nat} {w : EWord} (h : Running s t) (hw : nextWord t e.val = some (r, code, w)) (h1 : w.cls = cls) (h2 : w.fn = fn) : engRow cls fn op e s = .next (settle (issue op e.val code w r t)) := by
  refine (clocked_running h).trans ?_
  simp [hw, h1, h2]

theorem pre_refuses {c : Instr} {i : CmdInfo} {p : Packet} {s t : State} {r : Refuse} {pre act}
    (e : ∀ s, exec c s = command i.op p pre act s) (ht : Taken i.op p s t) (this : pre t = some r) :
    exec c s = .next (settle (refuse i.op p r t)) := by
  rw [e]
  obtain ⟨u, hu, hd, hf, rfl⟩ := ht.fetched
  have hcrc : (p.crcPresent && packetCrc i.op p != p.crc.toNat) = false := by
    cases hx : p.crcPresent
    · rfl
    · simp [ht.check hx]
  have hf' : (noted p u).sys.deviceFault = false := hf
  simp [command, ht.formed, clocked, ht.clocks, hu, handle, ht.length, hcrc, hd, hf', this]

theorem checkHandle_of_find {t : State} {h q : Nat} {y : Solstice} (h1 : findSol t h = some y) (h2 : y.owner = some q) : checkHandle h q t = none := by
  simp [checkHandle, h1, need, h2]

theorem checkPrepared_of_state {t : State} {h : Nat} {y : Solstice} (h1 : findSol t h = some y) (h2 : y.st = .prepared) : checkPrepared h t = none := by
  simp [checkPrepared, need, h1, h2]

theorem infos_session (c : Instr) (i : CmdInfo) (p : Packet) (h : hostCommand c = some (i, p)) : 
    i.op ∉ [0x0000, 0x0001, 0x0002, 0x0003, 0x0030] → i.session = true := by
  cases c with
  | nop op p => rw [hostCommand] at h; split at h <;> cases h; decide
  | _ => first | (cases h; done) | (cases h; decide) | (cases h; intro _; rfl)

theorem sessionOpen_of_opcode (c : Instr) (i : CmdInfo) (p : Packet) (h : hostCommand c = some (i, p)) (h3 : i.op = 3) : c = .sessionOpen p := by
  cases c with
  | nop op p => rw [hostCommand] at h; split at h <;> cases h; cases h3
  | sessionOpen p => cases h; rfl
  | _ => first | (cases h; done) | (cases h; cases h3)

theorem checkTimed_disruptive_refused {p : Packet} {t : State} {x : Nat} {late : Bool} (ha : p.allowHit = false) (hp : placeAt .disruptive p t.tick = .ok (x, late)) : checkTimed .disruptive p t = some { step := 11, st := 0x82 } := by
    simp [checkTimed, hp, ha, stDisruptive]

theorem refuse_frame (op : Nat) (p : Packet) (r : Refuse) (t : State) : (refuse op p r t).cmd.entries = t.cmd.entries ∧ (refuse op p r t).cmd.sess = t.cmd.sess ∧
      (refuse op p r t).cmd.sols = t.cmd.sols ∧ (refuse op p r t).params = t.params ∧
      (refuse op p r t).tick = t.tick ∧ (refuse op p r t).rx = t.rx := by
  have hp := refuse_posts op p r t
  have hc := hp.cmd
  have hr := hp.rest
  exact ⟨(congrArg Cmd.entries hc).symm, (congrArg Cmd.sess hc).symm, (congrArg Cmd.sols hc).symm, (congrArg State.params hr).symm, (congrArg State.tick hr).symm, (congrArg State.rx hr).symm⟩

theorem packet_of_wf {p : Packet} {c : Instr} (op : Nat) (pre act) (s : State) (w : c.wf = packetWf p) (e : ∀ s, exec c s = command op p pre act s) :
    (c.wf = true → ∃ t, exec c s = .next t) ∧ (c.wf = false → exec c s = .fault .illFormed) := by
  rw [w, e, command]
  cases hp : packetWf p
  · simp
  · refine ⟨fun _ => ?_, by simp⟩
    rw [if_pos rfl, clocked]; (try dsimp only); split <;> exact ⟨_, rfl⟩

theorem ofPins_wf (c : Instr) (h : ofPins c = true) : c.wf = true := by
  cases c <;> first | rfl | cases h

theorem ofWindow_wf (c : Instr) (h : ofWindow c = true) : c.wf = true := by
  cases c <;> first | rfl | cases h

end Sys2Proof.Machine
end

