-- ==== Sys2Proof/Laws/State.lean ====
section
/-! SUPPORT. Laws/State.lean: one lemma for each field of State and each update of one part of it, so that no later proof
unfolds a record update; and the canonical form of the memories at reset. -/
namespace Sys2Proof.Machine

@[simp] theorem updBoot_tick (f : Boot → Boot) (s : State) : (updBoot f s).tick = s.tick := rfl
@[simp] theorem updBoot_elapsed (f : Boot → Boot) (s : State) : (updBoot f s).elapsed = s.elapsed := rfl
@[simp] theorem updBoot_windowDone (f : Boot → Boot) (s : State) : (updBoot f s).windowDone = s.windowDone := rfl
@[simp] theorem updBoot_harvestDone (f : Boot → Boot) (s : State) : (updBoot f s).harvestDone = s.harvestDone := rfl
@[simp] theorem updBoot_leaseDone (f : Boot → Boot) (s : State) : (updBoot f s).leaseDone = s.leaseDone := rfl
@[simp] theorem updBoot_satTick (f : Boot → Boot) (s : State) : (updBoot f s).satTick = s.satTick := rfl
@[simp] theorem updBoot_params (f : Boot → Boot) (s : State) : (updBoot f s).params = s.params := rfl
@[simp] theorem updBoot_cfgVersion (f : Boot → Boot) (s : State) : (updBoot f s).cfgVersion = s.cfgVersion := rfl
@[simp] theorem updBoot_cmd (f : Boot → Boot) (s : State) : (updBoot f s).cmd = s.cmd := rfl
@[simp] theorem updBoot_flash (f : Boot → Boot) (s : State) : (updBoot f s).flash = s.flash := rfl
@[simp] theorem updBoot_boot (f : Boot → Boot) (s : State) : (updBoot f s).boot = f s.boot := rfl
@[simp] theorem updBoot_sys (f : Boot → Boot) (s : State) : (updBoot f s).sys = s.sys := rfl
@[simp] theorem updBoot_ev (f : Boot → Boot) (s : State) : (updBoot f s).ev = s.ev := rfl
@[simp] theorem updBoot_obs (f : Boot → Boot) (s : State) : (updBoot f s).obs = s.obs := rfl
@[simp] theorem updBoot_pwr (f : Boot → Boot) (s : State) : (updBoot f s).pwr = s.pwr := rfl
@[simp] theorem updBoot_tm (f : Boot → Boot) (s : State) : (updBoot f s).tm = s.tm := rfl
@[simp] theorem updBoot_tx (f : Boot → Boot) (s : State) : (updBoot f s).tx = s.tx := rfl
@[simp] theorem updBoot_rx (f : Boot → Boot) (s : State) : (updBoot f s).rx = s.rx := rfl
@[simp] theorem updBoot_fec (f : Boot → Boot) (s : State) : (updBoot f s).fec = s.fec := rfl
@[simp] theorem updBoot_frm (f : Boot → Boot) (s : State) : (updBoot f s).frm = s.frm := rfl
@[simp] theorem updBoot_lag (f : Boot → Boot) (s : State) : (updBoot f s).lag = s.lag := rfl
@[simp] theorem updBoot_cli (f : Boot → Boot) (s : State) : (updBoot f s).cli = s.cli := rfl
@[simp] theorem updBoot_cry (f : Boot → Boot) (s : State) : (updBoot f s).cry = s.cry := rfl
@[simp] theorem updBoot_wh (f : Boot → Boot) (s : State) : (updBoot f s).wh = s.wh := rfl
@[simp] theorem updBoot_dm (f : Boot → Boot) (s : State) : (updBoot f s).dm = s.dm := rfl
@[simp] theorem updBoot_mate (f : Boot → Boot) (s : State) : (updBoot f s).mate = s.mate := rfl
@[simp] theorem updBoot_cal (f : Boot → Boot) (s : State) : (updBoot f s).cal = s.cal := rfl
@[simp] theorem updBoot_stw (f : Boot → Boot) (s : State) : (updBoot f s).stw = s.stw := rfl
@[simp] theorem updBoot_str (f : Boot → Boot) (s : State) : (updBoot f s).str = s.str := rfl
@[simp] theorem updBoot_pins (f : Boot → Boot) (s : State) : (updBoot f s).pins = s.pins := rfl
@[simp] theorem updBoot_hostMem (f : Boot → Boot) (s : State) : (updBoot f s).hostMem = s.hostMem := rfl
@[simp] theorem updBoot_free (f : Boot → Boot) (s : State) : (updBoot f s).free = s.free := rfl
@[simp] theorem updBoot_pending (f : Boot → Boot) (s : State) : (updBoot f s).pending = s.pending := rfl

@[simp] theorem updPwr_tick (f : Pwr → Pwr) (s : State) : (updPwr f s).tick = s.tick := rfl
@[simp] theorem updPwr_elapsed (f : Pwr → Pwr) (s : State) : (updPwr f s).elapsed = s.elapsed := rfl
@[simp] theorem updPwr_windowDone (f : Pwr → Pwr) (s : State) : (updPwr f s).windowDone = s.windowDone := rfl
@[simp] theorem updPwr_harvestDone (f : Pwr → Pwr) (s : State) : (updPwr f s).harvestDone = s.harvestDone := rfl
@[simp] theorem updPwr_leaseDone (f : Pwr → Pwr) (s : State) : (updPwr f s).leaseDone = s.leaseDone := rfl
@[simp] theorem updPwr_satTick (f : Pwr → Pwr) (s : State) : (updPwr f s).satTick = s.satTick := rfl
@[simp] theorem updPwr_params (f : Pwr → Pwr) (s : State) : (updPwr f s).params = s.params := rfl
@[simp] theorem updPwr_cfgVersion (f : Pwr → Pwr) (s : State) : (updPwr f s).cfgVersion = s.cfgVersion := rfl
@[simp] theorem updPwr_cmd (f : Pwr → Pwr) (s : State) : (updPwr f s).cmd = s.cmd := rfl
@[simp] theorem updPwr_flash (f : Pwr → Pwr) (s : State) : (updPwr f s).flash = s.flash := rfl
@[simp] theorem updPwr_boot (f : Pwr → Pwr) (s : State) : (updPwr f s).boot = s.boot := rfl
@[simp] theorem updPwr_sys (f : Pwr → Pwr) (s : State) : (updPwr f s).sys = s.sys := rfl
@[simp] theorem updPwr_ev (f : Pwr → Pwr) (s : State) : (updPwr f s).ev = s.ev := rfl
@[simp] theorem updPwr_obs (f : Pwr → Pwr) (s : State) : (updPwr f s).obs = s.obs := rfl
@[simp] theorem updPwr_pwr (f : Pwr → Pwr) (s : State) : (updPwr f s).pwr = f s.pwr := rfl
@[simp] theorem updPwr_tm (f : Pwr → Pwr) (s : State) : (updPwr f s).tm = s.tm := rfl
@[simp] theorem updPwr_tx (f : Pwr → Pwr) (s : State) : (updPwr f s).tx = s.tx := rfl
@[simp] theorem updPwr_rx (f : Pwr → Pwr) (s : State) : (updPwr f s).rx = s.rx := rfl
@[simp] theorem updPwr_fec (f : Pwr → Pwr) (s : State) : (updPwr f s).fec = s.fec := rfl
@[simp] theorem updPwr_frm (f : Pwr → Pwr) (s : State) : (updPwr f s).frm = s.frm := rfl
@[simp] theorem updPwr_lag (f : Pwr → Pwr) (s : State) : (updPwr f s).lag = s.lag := rfl
@[simp] theorem updPwr_cli (f : Pwr → Pwr) (s : State) : (updPwr f s).cli = s.cli := rfl
@[simp] theorem updPwr_cry (f : Pwr → Pwr) (s : State) : (updPwr f s).cry = s.cry := rfl
@[simp] theorem updPwr_wh (f : Pwr → Pwr) (s : State) : (updPwr f s).wh = s.wh := rfl
@[simp] theorem updPwr_dm (f : Pwr → Pwr) (s : State) : (updPwr f s).dm = s.dm := rfl
@[simp] theorem updPwr_mate (f : Pwr → Pwr) (s : State) : (updPwr f s).mate = s.mate := rfl
@[simp] theorem updPwr_cal (f : Pwr → Pwr) (s : State) : (updPwr f s).cal = s.cal := rfl
@[simp] theorem updPwr_stw (f : Pwr → Pwr) (s : State) : (updPwr f s).stw = s.stw := rfl
@[simp] theorem updPwr_str (f : Pwr → Pwr) (s : State) : (updPwr f s).str = s.str := rfl
@[simp] theorem updPwr_pins (f : Pwr → Pwr) (s : State) : (updPwr f s).pins = s.pins := rfl
@[simp] theorem updPwr_hostMem (f : Pwr → Pwr) (s : State) : (updPwr f s).hostMem = s.hostMem := rfl
@[simp] theorem updPwr_free (f : Pwr → Pwr) (s : State) : (updPwr f s).free = s.free := rfl
@[simp] theorem updPwr_pending (f : Pwr → Pwr) (s : State) : (updPwr f s).pending = s.pending := rfl

@[simp] theorem updTm_tick (f : Tm → Tm) (s : State) : (updTm f s).tick = s.tick := rfl
@[simp] theorem updTm_elapsed (f : Tm → Tm) (s : State) : (updTm f s).elapsed = s.elapsed := rfl
@[simp] theorem updTm_windowDone (f : Tm → Tm) (s : State) : (updTm f s).windowDone = s.windowDone := rfl
@[simp] theorem updTm_harvestDone (f : Tm → Tm) (s : State) : (updTm f s).harvestDone = s.harvestDone := rfl
@[simp] theorem updTm_leaseDone (f : Tm → Tm) (s : State) : (updTm f s).leaseDone = s.leaseDone := rfl
@[simp] theorem updTm_satTick (f : Tm → Tm) (s : State) : (updTm f s).satTick = s.satTick := rfl
@[simp] theorem updTm_params (f : Tm → Tm) (s : State) : (updTm f s).params = s.params := rfl
@[simp] theorem updTm_cfgVersion (f : Tm → Tm) (s : State) : (updTm f s).cfgVersion = s.cfgVersion := rfl
@[simp] theorem updTm_cmd (f : Tm → Tm) (s : State) : (updTm f s).cmd = s.cmd := rfl
@[simp] theorem updTm_flash (f : Tm → Tm) (s : State) : (updTm f s).flash = s.flash := rfl
@[simp] theorem updTm_boot (f : Tm → Tm) (s : State) : (updTm f s).boot = s.boot := rfl
@[simp] theorem updTm_sys (f : Tm → Tm) (s : State) : (updTm f s).sys = s.sys := rfl
@[simp] theorem updTm_ev (f : Tm → Tm) (s : State) : (updTm f s).ev = s.ev := rfl
@[simp] theorem updTm_obs (f : Tm → Tm) (s : State) : (updTm f s).obs = s.obs := rfl
@[simp] theorem updTm_pwr (f : Tm → Tm) (s : State) : (updTm f s).pwr = s.pwr := rfl
@[simp] theorem updTm_tm (f : Tm → Tm) (s : State) : (updTm f s).tm = f s.tm := rfl
@[simp] theorem updTm_tx (f : Tm → Tm) (s : State) : (updTm f s).tx = s.tx := rfl
@[simp] theorem updTm_rx (f : Tm → Tm) (s : State) : (updTm f s).rx = s.rx := rfl
@[simp] theorem updTm_fec (f : Tm → Tm) (s : State) : (updTm f s).fec = s.fec := rfl
@[simp] theorem updTm_frm (f : Tm → Tm) (s : State) : (updTm f s).frm = s.frm := rfl
@[simp] theorem updTm_lag (f : Tm → Tm) (s : State) : (updTm f s).lag = s.lag := rfl
@[simp] theorem updTm_cli (f : Tm → Tm) (s : State) : (updTm f s).cli = s.cli := rfl
@[simp] theorem updTm_cry (f : Tm → Tm) (s : State) : (updTm f s).cry = s.cry := rfl
@[simp] theorem updTm_wh (f : Tm → Tm) (s : State) : (updTm f s).wh = s.wh := rfl
@[simp] theorem updTm_dm (f : Tm → Tm) (s : State) : (updTm f s).dm = s.dm := rfl
@[simp] theorem updTm_mate (f : Tm → Tm) (s : State) : (updTm f s).mate = s.mate := rfl
@[simp] theorem updTm_cal (f : Tm → Tm) (s : State) : (updTm f s).cal = s.cal := rfl
@[simp] theorem updTm_stw (f : Tm → Tm) (s : State) : (updTm f s).stw = s.stw := rfl
@[simp] theorem updTm_str (f : Tm → Tm) (s : State) : (updTm f s).str = s.str := rfl
@[simp] theorem updTm_pins (f : Tm → Tm) (s : State) : (updTm f s).pins = s.pins := rfl
@[simp] theorem updTm_hostMem (f : Tm → Tm) (s : State) : (updTm f s).hostMem = s.hostMem := rfl
@[simp] theorem updTm_free (f : Tm → Tm) (s : State) : (updTm f s).free = s.free := rfl
@[simp] theorem updTm_pending (f : Tm → Tm) (s : State) : (updTm f s).pending = s.pending := rfl

@[simp] theorem updFec_tick (f : Fec → Fec) (s : State) : (updFec f s).tick = s.tick := rfl
@[simp] theorem updFec_elapsed (f : Fec → Fec) (s : State) : (updFec f s).elapsed = s.elapsed := rfl
@[simp] theorem updFec_windowDone (f : Fec → Fec) (s : State) : (updFec f s).windowDone = s.windowDone := rfl
@[simp] theorem updFec_harvestDone (f : Fec → Fec) (s : State) : (updFec f s).harvestDone = s.harvestDone := rfl
@[simp] theorem updFec_leaseDone (f : Fec → Fec) (s : State) : (updFec f s).leaseDone = s.leaseDone := rfl
@[simp] theorem updFec_satTick (f : Fec → Fec) (s : State) : (updFec f s).satTick = s.satTick := rfl
@[simp] theorem updFec_params (f : Fec → Fec) (s : State) : (updFec f s).params = s.params := rfl
@[simp] theorem updFec_cfgVersion (f : Fec → Fec) (s : State) : (updFec f s).cfgVersion = s.cfgVersion := rfl
@[simp] theorem updFec_cmd (f : Fec → Fec) (s : State) : (updFec f s).cmd = s.cmd := rfl
@[simp] theorem updFec_flash (f : Fec → Fec) (s : State) : (updFec f s).flash = s.flash := rfl
@[simp] theorem updFec_boot (f : Fec → Fec) (s : State) : (updFec f s).boot = s.boot := rfl
@[simp] theorem updFec_sys (f : Fec → Fec) (s : State) : (updFec f s).sys = s.sys := rfl
@[simp] theorem updFec_ev (f : Fec → Fec) (s : State) : (updFec f s).ev = s.ev := rfl
@[simp] theorem updFec_obs (f : Fec → Fec) (s : State) : (updFec f s).obs = s.obs := rfl
@[simp] theorem updFec_pwr (f : Fec → Fec) (s : State) : (updFec f s).pwr = s.pwr := rfl
@[simp] theorem updFec_tm (f : Fec → Fec) (s : State) : (updFec f s).tm = s.tm := rfl
@[simp] theorem updFec_tx (f : Fec → Fec) (s : State) : (updFec f s).tx = s.tx := rfl
@[simp] theorem updFec_rx (f : Fec → Fec) (s : State) : (updFec f s).rx = s.rx := rfl
@[simp] theorem updFec_fec (f : Fec → Fec) (s : State) : (updFec f s).fec = f s.fec := rfl
@[simp] theorem updFec_frm (f : Fec → Fec) (s : State) : (updFec f s).frm = s.frm := rfl
@[simp] theorem updFec_lag (f : Fec → Fec) (s : State) : (updFec f s).lag = s.lag := rfl
@[simp] theorem updFec_cli (f : Fec → Fec) (s : State) : (updFec f s).cli = s.cli := rfl
@[simp] theorem updFec_cry (f : Fec → Fec) (s : State) : (updFec f s).cry = s.cry := rfl
@[simp] theorem updFec_wh (f : Fec → Fec) (s : State) : (updFec f s).wh = s.wh := rfl
@[simp] theorem updFec_dm (f : Fec → Fec) (s : State) : (updFec f s).dm = s.dm := rfl
@[simp] theorem updFec_mate (f : Fec → Fec) (s : State) : (updFec f s).mate = s.mate := rfl
@[simp] theorem updFec_cal (f : Fec → Fec) (s : State) : (updFec f s).cal = s.cal := rfl
@[simp] theorem updFec_stw (f : Fec → Fec) (s : State) : (updFec f s).stw = s.stw := rfl
@[simp] theorem updFec_str (f : Fec → Fec) (s : State) : (updFec f s).str = s.str := rfl
@[simp] theorem updFec_pins (f : Fec → Fec) (s : State) : (updFec f s).pins = s.pins := rfl
@[simp] theorem updFec_hostMem (f : Fec → Fec) (s : State) : (updFec f s).hostMem = s.hostMem := rfl
@[simp] theorem updFec_free (f : Fec → Fec) (s : State) : (updFec f s).free = s.free := rfl
@[simp] theorem updFec_pending (f : Fec → Fec) (s : State) : (updFec f s).pending = s.pending := rfl

@[simp] theorem updDm_tick (f : Dm → Dm) (s : State) : (updDm f s).tick = s.tick := rfl
@[simp] theorem updDm_elapsed (f : Dm → Dm) (s : State) : (updDm f s).elapsed = s.elapsed := rfl
@[simp] theorem updDm_windowDone (f : Dm → Dm) (s : State) : (updDm f s).windowDone = s.windowDone := rfl
@[simp] theorem updDm_harvestDone (f : Dm → Dm) (s : State) : (updDm f s).harvestDone = s.harvestDone := rfl
@[simp] theorem updDm_leaseDone (f : Dm → Dm) (s : State) : (updDm f s).leaseDone = s.leaseDone := rfl
@[simp] theorem updDm_satTick (f : Dm → Dm) (s : State) : (updDm f s).satTick = s.satTick := rfl
@[simp] theorem updDm_params (f : Dm → Dm) (s : State) : (updDm f s).params = s.params := rfl
@[simp] theorem updDm_cfgVersion (f : Dm → Dm) (s : State) : (updDm f s).cfgVersion = s.cfgVersion := rfl
@[simp] theorem updDm_cmd (f : Dm → Dm) (s : State) : (updDm f s).cmd = s.cmd := rfl
@[simp] theorem updDm_flash (f : Dm → Dm) (s : State) : (updDm f s).flash = s.flash := rfl
@[simp] theorem updDm_boot (f : Dm → Dm) (s : State) : (updDm f s).boot = s.boot := rfl
@[simp] theorem updDm_sys (f : Dm → Dm) (s : State) : (updDm f s).sys = s.sys := rfl
@[simp] theorem updDm_ev (f : Dm → Dm) (s : State) : (updDm f s).ev = s.ev := rfl
@[simp] theorem updDm_obs (f : Dm → Dm) (s : State) : (updDm f s).obs = s.obs := rfl
@[simp] theorem updDm_pwr (f : Dm → Dm) (s : State) : (updDm f s).pwr = s.pwr := rfl
@[simp] theorem updDm_tm (f : Dm → Dm) (s : State) : (updDm f s).tm = s.tm := rfl
@[simp] theorem updDm_tx (f : Dm → Dm) (s : State) : (updDm f s).tx = s.tx := rfl
@[simp] theorem updDm_rx (f : Dm → Dm) (s : State) : (updDm f s).rx = s.rx := rfl
@[simp] theorem updDm_fec (f : Dm → Dm) (s : State) : (updDm f s).fec = s.fec := rfl
@[simp] theorem updDm_frm (f : Dm → Dm) (s : State) : (updDm f s).frm = s.frm := rfl
@[simp] theorem updDm_lag (f : Dm → Dm) (s : State) : (updDm f s).lag = s.lag := rfl
@[simp] theorem updDm_cli (f : Dm → Dm) (s : State) : (updDm f s).cli = s.cli := rfl
@[simp] theorem updDm_cry (f : Dm → Dm) (s : State) : (updDm f s).cry = s.cry := rfl
@[simp] theorem updDm_wh (f : Dm → Dm) (s : State) : (updDm f s).wh = s.wh := rfl
@[simp] theorem updDm_dm (f : Dm → Dm) (s : State) : (updDm f s).dm = f s.dm := rfl
@[simp] theorem updDm_mate (f : Dm → Dm) (s : State) : (updDm f s).mate = s.mate := rfl
@[simp] theorem updDm_cal (f : Dm → Dm) (s : State) : (updDm f s).cal = s.cal := rfl
@[simp] theorem updDm_stw (f : Dm → Dm) (s : State) : (updDm f s).stw = s.stw := rfl
@[simp] theorem updDm_str (f : Dm → Dm) (s : State) : (updDm f s).str = s.str := rfl
@[simp] theorem updDm_pins (f : Dm → Dm) (s : State) : (updDm f s).pins = s.pins := rfl
@[simp] theorem updDm_hostMem (f : Dm → Dm) (s : State) : (updDm f s).hostMem = s.hostMem := rfl
@[simp] theorem updDm_free (f : Dm → Dm) (s : State) : (updDm f s).free = s.free := rfl
@[simp] theorem updDm_pending (f : Dm → Dm) (s : State) : (updDm f s).pending = s.pending := rfl

@[simp] theorem updMate_tick (f : Mate → Mate) (s : State) : (updMate f s).tick = s.tick := rfl
@[simp] theorem updMate_elapsed (f : Mate → Mate) (s : State) : (updMate f s).elapsed = s.elapsed := rfl
@[simp] theorem updMate_windowDone (f : Mate → Mate) (s : State) : (updMate f s).windowDone = s.windowDone := rfl
@[simp] theorem updMate_harvestDone (f : Mate → Mate) (s : State) : (updMate f s).harvestDone = s.harvestDone := rfl
@[simp] theorem updMate_leaseDone (f : Mate → Mate) (s : State) : (updMate f s).leaseDone = s.leaseDone := rfl
@[simp] theorem updMate_satTick (f : Mate → Mate) (s : State) : (updMate f s).satTick = s.satTick := rfl
@[simp] theorem updMate_params (f : Mate → Mate) (s : State) : (updMate f s).params = s.params := rfl
@[simp] theorem updMate_cfgVersion (f : Mate → Mate) (s : State) : (updMate f s).cfgVersion = s.cfgVersion := rfl
@[simp] theorem updMate_cmd (f : Mate → Mate) (s : State) : (updMate f s).cmd = s.cmd := rfl
@[simp] theorem updMate_flash (f : Mate → Mate) (s : State) : (updMate f s).flash = s.flash := rfl
@[simp] theorem updMate_boot (f : Mate → Mate) (s : State) : (updMate f s).boot = s.boot := rfl
@[simp] theorem updMate_sys (f : Mate → Mate) (s : State) : (updMate f s).sys = s.sys := rfl
@[simp] theorem updMate_ev (f : Mate → Mate) (s : State) : (updMate f s).ev = s.ev := rfl
@[simp] theorem updMate_obs (f : Mate → Mate) (s : State) : (updMate f s).obs = s.obs := rfl
@[simp] theorem updMate_pwr (f : Mate → Mate) (s : State) : (updMate f s).pwr = s.pwr := rfl
@[simp] theorem updMate_tm (f : Mate → Mate) (s : State) : (updMate f s).tm = s.tm := rfl
@[simp] theorem updMate_tx (f : Mate → Mate) (s : State) : (updMate f s).tx = s.tx := rfl
@[simp] theorem updMate_rx (f : Mate → Mate) (s : State) : (updMate f s).rx = s.rx := rfl
@[simp] theorem updMate_fec (f : Mate → Mate) (s : State) : (updMate f s).fec = s.fec := rfl
@[simp] theorem updMate_frm (f : Mate → Mate) (s : State) : (updMate f s).frm = s.frm := rfl
@[simp] theorem updMate_lag (f : Mate → Mate) (s : State) : (updMate f s).lag = s.lag := rfl
@[simp] theorem updMate_cli (f : Mate → Mate) (s : State) : (updMate f s).cli = s.cli := rfl
@[simp] theorem updMate_cry (f : Mate → Mate) (s : State) : (updMate f s).cry = s.cry := rfl
@[simp] theorem updMate_wh (f : Mate → Mate) (s : State) : (updMate f s).wh = s.wh := rfl
@[simp] theorem updMate_dm (f : Mate → Mate) (s : State) : (updMate f s).dm = s.dm := rfl
@[simp] theorem updMate_mate (f : Mate → Mate) (s : State) : (updMate f s).mate = f s.mate := rfl
@[simp] theorem updMate_cal (f : Mate → Mate) (s : State) : (updMate f s).cal = s.cal := rfl
@[simp] theorem updMate_stw (f : Mate → Mate) (s : State) : (updMate f s).stw = s.stw := rfl
@[simp] theorem updMate_str (f : Mate → Mate) (s : State) : (updMate f s).str = s.str := rfl
@[simp] theorem updMate_pins (f : Mate → Mate) (s : State) : (updMate f s).pins = s.pins := rfl
@[simp] theorem updMate_hostMem (f : Mate → Mate) (s : State) : (updMate f s).hostMem = s.hostMem := rfl
@[simp] theorem updMate_free (f : Mate → Mate) (s : State) : (updMate f s).free = s.free := rfl
@[simp] theorem updMate_pending (f : Mate → Mate) (s : State) : (updMate f s).pending = s.pending := rfl

@[simp] theorem updCal_tick (f : Cal → Cal) (s : State) : (updCal f s).tick = s.tick := rfl
@[simp] theorem updCal_elapsed (f : Cal → Cal) (s : State) : (updCal f s).elapsed = s.elapsed := rfl
@[simp] theorem updCal_windowDone (f : Cal → Cal) (s : State) : (updCal f s).windowDone = s.windowDone := rfl
@[simp] theorem updCal_harvestDone (f : Cal → Cal) (s : State) : (updCal f s).harvestDone = s.harvestDone := rfl
@[simp] theorem updCal_leaseDone (f : Cal → Cal) (s : State) : (updCal f s).leaseDone = s.leaseDone := rfl
@[simp] theorem updCal_satTick (f : Cal → Cal) (s : State) : (updCal f s).satTick = s.satTick := rfl
@[simp] theorem updCal_params (f : Cal → Cal) (s : State) : (updCal f s).params = s.params := rfl
@[simp] theorem updCal_cfgVersion (f : Cal → Cal) (s : State) : (updCal f s).cfgVersion = s.cfgVersion := rfl
@[simp] theorem updCal_cmd (f : Cal → Cal) (s : State) : (updCal f s).cmd = s.cmd := rfl
@[simp] theorem updCal_flash (f : Cal → Cal) (s : State) : (updCal f s).flash = s.flash := rfl
@[simp] theorem updCal_boot (f : Cal → Cal) (s : State) : (updCal f s).boot = s.boot := rfl
@[simp] theorem updCal_sys (f : Cal → Cal) (s : State) : (updCal f s).sys = s.sys := rfl
@[simp] theorem updCal_ev (f : Cal → Cal) (s : State) : (updCal f s).ev = s.ev := rfl
@[simp] theorem updCal_obs (f : Cal → Cal) (s : State) : (updCal f s).obs = s.obs := rfl
@[simp] theorem updCal_pwr (f : Cal → Cal) (s : State) : (updCal f s).pwr = s.pwr := rfl
@[simp] theorem updCal_tm (f : Cal → Cal) (s : State) : (updCal f s).tm = s.tm := rfl
@[simp] theorem updCal_tx (f : Cal → Cal) (s : State) : (updCal f s).tx = s.tx := rfl
@[simp] theorem updCal_rx (f : Cal → Cal) (s : State) : (updCal f s).rx = s.rx := rfl
@[simp] theorem updCal_fec (f : Cal → Cal) (s : State) : (updCal f s).fec = s.fec := rfl
@[simp] theorem updCal_frm (f : Cal → Cal) (s : State) : (updCal f s).frm = s.frm := rfl
@[simp] theorem updCal_lag (f : Cal → Cal) (s : State) : (updCal f s).lag = s.lag := rfl
@[simp] theorem updCal_cli (f : Cal → Cal) (s : State) : (updCal f s).cli = s.cli := rfl
@[simp] theorem updCal_cry (f : Cal → Cal) (s : State) : (updCal f s).cry = s.cry := rfl
@[simp] theorem updCal_wh (f : Cal → Cal) (s : State) : (updCal f s).wh = s.wh := rfl
@[simp] theorem updCal_dm (f : Cal → Cal) (s : State) : (updCal f s).dm = s.dm := rfl
@[simp] theorem updCal_mate (f : Cal → Cal) (s : State) : (updCal f s).mate = s.mate := rfl
@[simp] theorem updCal_cal (f : Cal → Cal) (s : State) : (updCal f s).cal = f s.cal := rfl
@[simp] theorem updCal_stw (f : Cal → Cal) (s : State) : (updCal f s).stw = s.stw := rfl
@[simp] theorem updCal_str (f : Cal → Cal) (s : State) : (updCal f s).str = s.str := rfl
@[simp] theorem updCal_pins (f : Cal → Cal) (s : State) : (updCal f s).pins = s.pins := rfl
@[simp] theorem updCal_hostMem (f : Cal → Cal) (s : State) : (updCal f s).hostMem = s.hostMem := rfl
@[simp] theorem updCal_free (f : Cal → Cal) (s : State) : (updCal f s).free = s.free := rfl
@[simp] theorem updCal_pending (f : Cal → Cal) (s : State) : (updCal f s).pending = s.pending := rfl

@[simp] theorem updStw_tick (f : Stw → Stw) (s : State) : (updStw f s).tick = s.tick := rfl
@[simp] theorem updStw_elapsed (f : Stw → Stw) (s : State) : (updStw f s).elapsed = s.elapsed := rfl
@[simp] theorem updStw_windowDone (f : Stw → Stw) (s : State) : (updStw f s).windowDone = s.windowDone := rfl
@[simp] theorem updStw_harvestDone (f : Stw → Stw) (s : State) : (updStw f s).harvestDone = s.harvestDone := rfl
@[simp] theorem updStw_leaseDone (f : Stw → Stw) (s : State) : (updStw f s).leaseDone = s.leaseDone := rfl
@[simp] theorem updStw_satTick (f : Stw → Stw) (s : State) : (updStw f s).satTick = s.satTick := rfl
@[simp] theorem updStw_params (f : Stw → Stw) (s : State) : (updStw f s).params = s.params := rfl
@[simp] theorem updStw_cfgVersion (f : Stw → Stw) (s : State) : (updStw f s).cfgVersion = s.cfgVersion := rfl
@[simp] theorem updStw_cmd (f : Stw → Stw) (s : State) : (updStw f s).cmd = s.cmd := rfl
@[simp] theorem updStw_flash (f : Stw → Stw) (s : State) : (updStw f s).flash = s.flash := rfl
@[simp] theorem updStw_boot (f : Stw → Stw) (s : State) : (updStw f s).boot = s.boot := rfl
@[simp] theorem updStw_sys (f : Stw → Stw) (s : State) : (updStw f s).sys = s.sys := rfl
@[simp] theorem updStw_ev (f : Stw → Stw) (s : State) : (updStw f s).ev = s.ev := rfl
@[simp] theorem updStw_obs (f : Stw → Stw) (s : State) : (updStw f s).obs = s.obs := rfl
@[simp] theorem updStw_pwr (f : Stw → Stw) (s : State) : (updStw f s).pwr = s.pwr := rfl
@[simp] theorem updStw_tm (f : Stw → Stw) (s : State) : (updStw f s).tm = s.tm := rfl
@[simp] theorem updStw_tx (f : Stw → Stw) (s : State) : (updStw f s).tx = s.tx := rfl
@[simp] theorem updStw_rx (f : Stw → Stw) (s : State) : (updStw f s).rx = s.rx := rfl
@[simp] theorem updStw_fec (f : Stw → Stw) (s : State) : (updStw f s).fec = s.fec := rfl
@[simp] theorem updStw_frm (f : Stw → Stw) (s : State) : (updStw f s).frm = s.frm := rfl
@[simp] theorem updStw_lag (f : Stw → Stw) (s : State) : (updStw f s).lag = s.lag := rfl
@[simp] theorem updStw_cli (f : Stw → Stw) (s : State) : (updStw f s).cli = s.cli := rfl
@[simp] theorem updStw_cry (f : Stw → Stw) (s : State) : (updStw f s).cry = s.cry := rfl
@[simp] theorem updStw_wh (f : Stw → Stw) (s : State) : (updStw f s).wh = s.wh := rfl
@[simp] theorem updStw_dm (f : Stw → Stw) (s : State) : (updStw f s).dm = s.dm := rfl
@[simp] theorem updStw_mate (f : Stw → Stw) (s : State) : (updStw f s).mate = s.mate := rfl
@[simp] theorem updStw_cal (f : Stw → Stw) (s : State) : (updStw f s).cal = s.cal := rfl
@[simp] theorem updStw_stw (f : Stw → Stw) (s : State) : (updStw f s).stw = f s.stw := rfl
@[simp] theorem updStw_str (f : Stw → Stw) (s : State) : (updStw f s).str = s.str := rfl
@[simp] theorem updStw_pins (f : Stw → Stw) (s : State) : (updStw f s).pins = s.pins := rfl
@[simp] theorem updStw_hostMem (f : Stw → Stw) (s : State) : (updStw f s).hostMem = s.hostMem := rfl
@[simp] theorem updStw_free (f : Stw → Stw) (s : State) : (updStw f s).free = s.free := rfl
@[simp] theorem updStw_pending (f : Stw → Stw) (s : State) : (updStw f s).pending = s.pending := rfl

@[simp] theorem updStr_tick (f : Str → Str) (s : State) : (updStr f s).tick = s.tick := rfl
@[simp] theorem updStr_elapsed (f : Str → Str) (s : State) : (updStr f s).elapsed = s.elapsed := rfl
@[simp] theorem updStr_windowDone (f : Str → Str) (s : State) : (updStr f s).windowDone = s.windowDone := rfl
@[simp] theorem updStr_harvestDone (f : Str → Str) (s : State) : (updStr f s).harvestDone = s.harvestDone := rfl
@[simp] theorem updStr_leaseDone (f : Str → Str) (s : State) : (updStr f s).leaseDone = s.leaseDone := rfl
@[simp] theorem updStr_satTick (f : Str → Str) (s : State) : (updStr f s).satTick = s.satTick := rfl
@[simp] theorem updStr_params (f : Str → Str) (s : State) : (updStr f s).params = s.params := rfl
@[simp] theorem updStr_cfgVersion (f : Str → Str) (s : State) : (updStr f s).cfgVersion = s.cfgVersion := rfl
@[simp] theorem updStr_cmd (f : Str → Str) (s : State) : (updStr f s).cmd = s.cmd := rfl
@[simp] theorem updStr_flash (f : Str → Str) (s : State) : (updStr f s).flash = s.flash := rfl
@[simp] theorem updStr_boot (f : Str → Str) (s : State) : (updStr f s).boot = s.boot := rfl
@[simp] theorem updStr_sys (f : Str → Str) (s : State) : (updStr f s).sys = s.sys := rfl
@[simp] theorem updStr_ev (f : Str → Str) (s : State) : (updStr f s).ev = s.ev := rfl
@[simp] theorem updStr_obs (f : Str → Str) (s : State) : (updStr f s).obs = s.obs := rfl
@[simp] theorem updStr_pwr (f : Str → Str) (s : State) : (updStr f s).pwr = s.pwr := rfl
@[simp] theorem updStr_tm (f : Str → Str) (s : State) : (updStr f s).tm = s.tm := rfl
@[simp] theorem updStr_tx (f : Str → Str) (s : State) : (updStr f s).tx = s.tx := rfl
@[simp] theorem updStr_rx (f : Str → Str) (s : State) : (updStr f s).rx = s.rx := rfl
@[simp] theorem updStr_fec (f : Str → Str) (s : State) : (updStr f s).fec = s.fec := rfl
@[simp] theorem updStr_frm (f : Str → Str) (s : State) : (updStr f s).frm = s.frm := rfl
@[simp] theorem updStr_lag (f : Str → Str) (s : State) : (updStr f s).lag = s.lag := rfl
@[simp] theorem updStr_cli (f : Str → Str) (s : State) : (updStr f s).cli = s.cli := rfl
@[simp] theorem updStr_cry (f : Str → Str) (s : State) : (updStr f s).cry = s.cry := rfl
@[simp] theorem updStr_wh (f : Str → Str) (s : State) : (updStr f s).wh = s.wh := rfl
@[simp] theorem updStr_dm (f : Str → Str) (s : State) : (updStr f s).dm = s.dm := rfl
@[simp] theorem updStr_mate (f : Str → Str) (s : State) : (updStr f s).mate = s.mate := rfl
@[simp] theorem updStr_cal (f : Str → Str) (s : State) : (updStr f s).cal = s.cal := rfl
@[simp] theorem updStr_stw (f : Str → Str) (s : State) : (updStr f s).stw = s.stw := rfl
@[simp] theorem updStr_str (f : Str → Str) (s : State) : (updStr f s).str = f s.str := rfl
@[simp] theorem updStr_pins (f : Str → Str) (s : State) : (updStr f s).pins = s.pins := rfl
@[simp] theorem updStr_hostMem (f : Str → Str) (s : State) : (updStr f s).hostMem = s.hostMem := rfl
@[simp] theorem updStr_free (f : Str → Str) (s : State) : (updStr f s).free = s.free := rfl
@[simp] theorem updStr_pending (f : Str → Str) (s : State) : (updStr f s).pending = s.pending := rfl

@[simp] theorem updTx_tick (c : Line) (f : Tx → Tx) (s : State) : (updTx c f s).tick = s.tick := rfl
@[simp] theorem updTx_elapsed (c : Line) (f : Tx → Tx) (s : State) : (updTx c f s).elapsed = s.elapsed := rfl
@[simp] theorem updTx_windowDone (c : Line) (f : Tx → Tx) (s : State) : (updTx c f s).windowDone = s.windowDone := rfl
@[simp] theorem updTx_harvestDone (c : Line) (f : Tx → Tx) (s : State) : (updTx c f s).harvestDone = s.harvestDone := rfl
@[simp] theorem updTx_leaseDone (c : Line) (f : Tx → Tx) (s : State) : (updTx c f s).leaseDone = s.leaseDone := rfl
@[simp] theorem updTx_satTick (c : Line) (f : Tx → Tx) (s : State) : (updTx c f s).satTick = s.satTick := rfl
@[simp] theorem updTx_params (c : Line) (f : Tx → Tx) (s : State) : (updTx c f s).params = s.params := rfl
@[simp] theorem updTx_cfgVersion (c : Line) (f : Tx → Tx) (s : State) : (updTx c f s).cfgVersion = s.cfgVersion := rfl
@[simp] theorem updTx_cmd (c : Line) (f : Tx → Tx) (s : State) : (updTx c f s).cmd = s.cmd := rfl
@[simp] theorem updTx_flash (c : Line) (f : Tx → Tx) (s : State) : (updTx c f s).flash = s.flash := rfl
@[simp] theorem updTx_boot (c : Line) (f : Tx → Tx) (s : State) : (updTx c f s).boot = s.boot := rfl
@[simp] theorem updTx_sys (c : Line) (f : Tx → Tx) (s : State) : (updTx c f s).sys = s.sys := rfl
@[simp] theorem updTx_ev (c : Line) (f : Tx → Tx) (s : State) : (updTx c f s).ev = s.ev := rfl
@[simp] theorem updTx_obs (c : Line) (f : Tx → Tx) (s : State) : (updTx c f s).obs = s.obs := rfl
@[simp] theorem updTx_pwr (c : Line) (f : Tx → Tx) (s : State) : (updTx c f s).pwr = s.pwr := rfl
@[simp] theorem updTx_tm (c : Line) (f : Tx → Tx) (s : State) : (updTx c f s).tm = s.tm := rfl
@[simp] theorem updTx_rx (c : Line) (f : Tx → Tx) (s : State) : (updTx c f s).rx = s.rx := rfl
@[simp] theorem updTx_fec (c : Line) (f : Tx → Tx) (s : State) : (updTx c f s).fec = s.fec := rfl
@[simp] theorem updTx_frm (c : Line) (f : Tx → Tx) (s : State) : (updTx c f s).frm = s.frm := rfl
@[simp] theorem updTx_lag (c : Line) (f : Tx → Tx) (s : State) : (updTx c f s).lag = s.lag := rfl
@[simp] theorem updTx_cli (c : Line) (f : Tx → Tx) (s : State) : (updTx c f s).cli = s.cli := rfl
@[simp] theorem updTx_cry (c : Line) (f : Tx → Tx) (s : State) : (updTx c f s).cry = s.cry := rfl
@[simp] theorem updTx_wh (c : Line) (f : Tx → Tx) (s : State) : (updTx c f s).wh = s.wh := rfl
@[simp] theorem updTx_dm (c : Line) (f : Tx → Tx) (s : State) : (updTx c f s).dm = s.dm := rfl
@[simp] theorem updTx_mate (c : Line) (f : Tx → Tx) (s : State) : (updTx c f s).mate = s.mate := rfl
@[simp] theorem updTx_cal (c : Line) (f : Tx → Tx) (s : State) : (updTx c f s).cal = s.cal := rfl
@[simp] theorem updTx_stw (c : Line) (f : Tx → Tx) (s : State) : (updTx c f s).stw = s.stw := rfl
@[simp] theorem updTx_str (c : Line) (f : Tx → Tx) (s : State) : (updTx c f s).str = s.str := rfl
@[simp] theorem updTx_pins (c : Line) (f : Tx → Tx) (s : State) : (updTx c f s).pins = s.pins := rfl
@[simp] theorem updTx_hostMem (c : Line) (f : Tx → Tx) (s : State) : (updTx c f s).hostMem = s.hostMem := rfl
@[simp] theorem updTx_free (c : Line) (f : Tx → Tx) (s : State) : (updTx c f s).free = s.free := rfl
@[simp] theorem updTx_pending (c : Line) (f : Tx → Tx) (s : State) : (updTx c f s).pending = s.pending := rfl

@[simp] theorem updRx_tick (c : Line) (f : Rx → Rx) (s : State) : (updRx c f s).tick = s.tick := rfl
@[simp] theorem updRx_elapsed (c : Line) (f : Rx → Rx) (s : State) : (updRx c f s).elapsed = s.elapsed := rfl
@[simp] theorem updRx_windowDone (c : Line) (f : Rx → Rx) (s : State) : (updRx c f s).windowDone = s.windowDone := rfl
@[simp] theorem updRx_harvestDone (c : Line) (f : Rx → Rx) (s : State) : (updRx c f s).harvestDone = s.harvestDone := rfl
@[simp] theorem updRx_leaseDone (c : Line) (f : Rx → Rx) (s : State) : (updRx c f s).leaseDone = s.leaseDone := rfl
@[simp] theorem updRx_satTick (c : Line) (f : Rx → Rx) (s : State) : (updRx c f s).satTick = s.satTick := rfl
@[simp] theorem updRx_params (c : Line) (f : Rx → Rx) (s : State) : (updRx c f s).params = s.params := rfl
@[simp] theorem updRx_cfgVersion (c : Line) (f : Rx → Rx) (s : State) : (updRx c f s).cfgVersion = s.cfgVersion := rfl
@[simp] theorem updRx_cmd (c : Line) (f : Rx → Rx) (s : State) : (updRx c f s).cmd = s.cmd := rfl
@[simp] theorem updRx_flash (c : Line) (f : Rx → Rx) (s : State) : (updRx c f s).flash = s.flash := rfl
@[simp] theorem updRx_boot (c : Line) (f : Rx → Rx) (s : State) : (updRx c f s).boot = s.boot := rfl
@[simp] theorem updRx_sys (c : Line) (f : Rx → Rx) (s : State) : (updRx c f s).sys = s.sys := rfl
@[simp] theorem updRx_ev (c : Line) (f : Rx → Rx) (s : State) : (updRx c f s).ev = s.ev := rfl
@[simp] theorem updRx_obs (c : Line) (f : Rx → Rx) (s : State) : (updRx c f s).obs = s.obs := rfl
@[simp] theorem updRx_pwr (c : Line) (f : Rx → Rx) (s : State) : (updRx c f s).pwr = s.pwr := rfl
@[simp] theorem updRx_tm (c : Line) (f : Rx → Rx) (s : State) : (updRx c f s).tm = s.tm := rfl
@[simp] theorem updRx_tx (c : Line) (f : Rx → Rx) (s : State) : (updRx c f s).tx = s.tx := rfl
@[simp] theorem updRx_fec (c : Line) (f : Rx → Rx) (s : State) : (updRx c f s).fec = s.fec := rfl
@[simp] theorem updRx_frm (c : Line) (f : Rx → Rx) (s : State) : (updRx c f s).frm = s.frm := rfl
@[simp] theorem updRx_lag (c : Line) (f : Rx → Rx) (s : State) : (updRx c f s).lag = s.lag := rfl
@[simp] theorem updRx_cli (c : Line) (f : Rx → Rx) (s : State) : (updRx c f s).cli = s.cli := rfl
@[simp] theorem updRx_cry (c : Line) (f : Rx → Rx) (s : State) : (updRx c f s).cry = s.cry := rfl
@[simp] theorem updRx_wh (c : Line) (f : Rx → Rx) (s : State) : (updRx c f s).wh = s.wh := rfl
@[simp] theorem updRx_dm (c : Line) (f : Rx → Rx) (s : State) : (updRx c f s).dm = s.dm := rfl
@[simp] theorem updRx_mate (c : Line) (f : Rx → Rx) (s : State) : (updRx c f s).mate = s.mate := rfl
@[simp] theorem updRx_cal (c : Line) (f : Rx → Rx) (s : State) : (updRx c f s).cal = s.cal := rfl
@[simp] theorem updRx_stw (c : Line) (f : Rx → Rx) (s : State) : (updRx c f s).stw = s.stw := rfl
@[simp] theorem updRx_str (c : Line) (f : Rx → Rx) (s : State) : (updRx c f s).str = s.str := rfl
@[simp] theorem updRx_pins (c : Line) (f : Rx → Rx) (s : State) : (updRx c f s).pins = s.pins := rfl
@[simp] theorem updRx_hostMem (c : Line) (f : Rx → Rx) (s : State) : (updRx c f s).hostMem = s.hostMem := rfl
@[simp] theorem updRx_free (c : Line) (f : Rx → Rx) (s : State) : (updRx c f s).free = s.free := rfl
@[simp] theorem updRx_pending (c : Line) (f : Rx → Rx) (s : State) : (updRx c f s).pending = s.pending := rfl

@[simp] theorem updFrm_tick (c : Line) (f : Frm → Frm) (s : State) : (updFrm c f s).tick = s.tick := rfl
@[simp] theorem updFrm_elapsed (c : Line) (f : Frm → Frm) (s : State) : (updFrm c f s).elapsed = s.elapsed := rfl
@[simp] theorem updFrm_windowDone (c : Line) (f : Frm → Frm) (s : State) : (updFrm c f s).windowDone = s.windowDone := rfl
@[simp] theorem updFrm_harvestDone (c : Line) (f : Frm → Frm) (s : State) : (updFrm c f s).harvestDone = s.harvestDone := rfl
@[simp] theorem updFrm_leaseDone (c : Line) (f : Frm → Frm) (s : State) : (updFrm c f s).leaseDone = s.leaseDone := rfl
@[simp] theorem updFrm_satTick (c : Line) (f : Frm → Frm) (s : State) : (updFrm c f s).satTick = s.satTick := rfl
@[simp] theorem updFrm_params (c : Line) (f : Frm → Frm) (s : State) : (updFrm c f s).params = s.params := rfl
@[simp] theorem updFrm_cfgVersion (c : Line) (f : Frm → Frm) (s : State) : (updFrm c f s).cfgVersion = s.cfgVersion := rfl
@[simp] theorem updFrm_cmd (c : Line) (f : Frm → Frm) (s : State) : (updFrm c f s).cmd = s.cmd := rfl
@[simp] theorem updFrm_flash (c : Line) (f : Frm → Frm) (s : State) : (updFrm c f s).flash = s.flash := rfl
@[simp] theorem updFrm_boot (c : Line) (f : Frm → Frm) (s : State) : (updFrm c f s).boot = s.boot := rfl
@[simp] theorem updFrm_sys (c : Line) (f : Frm → Frm) (s : State) : (updFrm c f s).sys = s.sys := rfl
@[simp] theorem updFrm_ev (c : Line) (f : Frm → Frm) (s : State) : (updFrm c f s).ev = s.ev := rfl
@[simp] theorem updFrm_obs (c : Line) (f : Frm → Frm) (s : State) : (updFrm c f s).obs = s.obs := rfl
@[simp] theorem updFrm_pwr (c : Line) (f : Frm → Frm) (s : State) : (updFrm c f s).pwr = s.pwr := rfl
@[simp] theorem updFrm_tm (c : Line) (f : Frm → Frm) (s : State) : (updFrm c f s).tm = s.tm := rfl
@[simp] theorem updFrm_tx (c : Line) (f : Frm → Frm) (s : State) : (updFrm c f s).tx = s.tx := rfl
@[simp] theorem updFrm_rx (c : Line) (f : Frm → Frm) (s : State) : (updFrm c f s).rx = s.rx := rfl
@[simp] theorem updFrm_fec (c : Line) (f : Frm → Frm) (s : State) : (updFrm c f s).fec = s.fec := rfl
@[simp] theorem updFrm_lag (c : Line) (f : Frm → Frm) (s : State) : (updFrm c f s).lag = s.lag := rfl
@[simp] theorem updFrm_cli (c : Line) (f : Frm → Frm) (s : State) : (updFrm c f s).cli = s.cli := rfl
@[simp] theorem updFrm_cry (c : Line) (f : Frm → Frm) (s : State) : (updFrm c f s).cry = s.cry := rfl
@[simp] theorem updFrm_wh (c : Line) (f : Frm → Frm) (s : State) : (updFrm c f s).wh = s.wh := rfl
@[simp] theorem updFrm_dm (c : Line) (f : Frm → Frm) (s : State) : (updFrm c f s).dm = s.dm := rfl
@[simp] theorem updFrm_mate (c : Line) (f : Frm → Frm) (s : State) : (updFrm c f s).mate = s.mate := rfl
@[simp] theorem updFrm_cal (c : Line) (f : Frm → Frm) (s : State) : (updFrm c f s).cal = s.cal := rfl
@[simp] theorem updFrm_stw (c : Line) (f : Frm → Frm) (s : State) : (updFrm c f s).stw = s.stw := rfl
@[simp] theorem updFrm_str (c : Line) (f : Frm → Frm) (s : State) : (updFrm c f s).str = s.str := rfl
@[simp] theorem updFrm_pins (c : Line) (f : Frm → Frm) (s : State) : (updFrm c f s).pins = s.pins := rfl
@[simp] theorem updFrm_hostMem (c : Line) (f : Frm → Frm) (s : State) : (updFrm c f s).hostMem = s.hostMem := rfl
@[simp] theorem updFrm_free (c : Line) (f : Frm → Frm) (s : State) : (updFrm c f s).free = s.free := rfl
@[simp] theorem updFrm_pending (c : Line) (f : Frm → Frm) (s : State) : (updFrm c f s).pending = s.pending := rfl

@[simp] theorem updCry_tick (c : Line) (f : CryC → CryC) (s : State) : (updCry c f s).tick = s.tick := rfl
@[simp] theorem updCry_elapsed (c : Line) (f : CryC → CryC) (s : State) : (updCry c f s).elapsed = s.elapsed := rfl
@[simp] theorem updCry_windowDone (c : Line) (f : CryC → CryC) (s : State) : (updCry c f s).windowDone = s.windowDone := rfl
@[simp] theorem updCry_harvestDone (c : Line) (f : CryC → CryC) (s : State) : (updCry c f s).harvestDone = s.harvestDone := rfl
@[simp] theorem updCry_leaseDone (c : Line) (f : CryC → CryC) (s : State) : (updCry c f s).leaseDone = s.leaseDone := rfl
@[simp] theorem updCry_satTick (c : Line) (f : CryC → CryC) (s : State) : (updCry c f s).satTick = s.satTick := rfl
@[simp] theorem updCry_params (c : Line) (f : CryC → CryC) (s : State) : (updCry c f s).params = s.params := rfl
@[simp] theorem updCry_cfgVersion (c : Line) (f : CryC → CryC) (s : State) : (updCry c f s).cfgVersion = s.cfgVersion := rfl
@[simp] theorem updCry_cmd (c : Line) (f : CryC → CryC) (s : State) : (updCry c f s).cmd = s.cmd := rfl
@[simp] theorem updCry_flash (c : Line) (f : CryC → CryC) (s : State) : (updCry c f s).flash = s.flash := rfl
@[simp] theorem updCry_boot (c : Line) (f : CryC → CryC) (s : State) : (updCry c f s).boot = s.boot := rfl
@[simp] theorem updCry_sys (c : Line) (f : CryC → CryC) (s : State) : (updCry c f s).sys = s.sys := rfl
@[simp] theorem updCry_ev (c : Line) (f : CryC → CryC) (s : State) : (updCry c f s).ev = s.ev := rfl
@[simp] theorem updCry_obs (c : Line) (f : CryC → CryC) (s : State) : (updCry c f s).obs = s.obs := rfl
@[simp] theorem updCry_pwr (c : Line) (f : CryC → CryC) (s : State) : (updCry c f s).pwr = s.pwr := rfl
@[simp] theorem updCry_tm (c : Line) (f : CryC → CryC) (s : State) : (updCry c f s).tm = s.tm := rfl
@[simp] theorem updCry_tx (c : Line) (f : CryC → CryC) (s : State) : (updCry c f s).tx = s.tx := rfl
@[simp] theorem updCry_rx (c : Line) (f : CryC → CryC) (s : State) : (updCry c f s).rx = s.rx := rfl
@[simp] theorem updCry_fec (c : Line) (f : CryC → CryC) (s : State) : (updCry c f s).fec = s.fec := rfl
@[simp] theorem updCry_frm (c : Line) (f : CryC → CryC) (s : State) : (updCry c f s).frm = s.frm := rfl
@[simp] theorem updCry_lag (c : Line) (f : CryC → CryC) (s : State) : (updCry c f s).lag = s.lag := rfl
@[simp] theorem updCry_cli (c : Line) (f : CryC → CryC) (s : State) : (updCry c f s).cli = s.cli := rfl
@[simp] theorem updCry_wh (c : Line) (f : CryC → CryC) (s : State) : (updCry c f s).wh = s.wh := rfl
@[simp] theorem updCry_dm (c : Line) (f : CryC → CryC) (s : State) : (updCry c f s).dm = s.dm := rfl
@[simp] theorem updCry_mate (c : Line) (f : CryC → CryC) (s : State) : (updCry c f s).mate = s.mate := rfl
@[simp] theorem updCry_cal (c : Line) (f : CryC → CryC) (s : State) : (updCry c f s).cal = s.cal := rfl
@[simp] theorem updCry_stw (c : Line) (f : CryC → CryC) (s : State) : (updCry c f s).stw = s.stw := rfl
@[simp] theorem updCry_str (c : Line) (f : CryC → CryC) (s : State) : (updCry c f s).str = s.str := rfl
@[simp] theorem updCry_pins (c : Line) (f : CryC → CryC) (s : State) : (updCry c f s).pins = s.pins := rfl
@[simp] theorem updCry_hostMem (c : Line) (f : CryC → CryC) (s : State) : (updCry c f s).hostMem = s.hostMem := rfl
@[simp] theorem updCry_free (c : Line) (f : CryC → CryC) (s : State) : (updCry c f s).free = s.free := rfl
@[simp] theorem updCry_pending (c : Line) (f : CryC → CryC) (s : State) : (updCry c f s).pending = s.pending := rfl

@[simp] theorem updWh_tick (c : Line) (f : WhC → WhC) (s : State) : (updWh c f s).tick = s.tick := rfl
@[simp] theorem updWh_elapsed (c : Line) (f : WhC → WhC) (s : State) : (updWh c f s).elapsed = s.elapsed := rfl
@[simp] theorem updWh_windowDone (c : Line) (f : WhC → WhC) (s : State) : (updWh c f s).windowDone = s.windowDone := rfl
@[simp] theorem updWh_harvestDone (c : Line) (f : WhC → WhC) (s : State) : (updWh c f s).harvestDone = s.harvestDone := rfl
@[simp] theorem updWh_leaseDone (c : Line) (f : WhC → WhC) (s : State) : (updWh c f s).leaseDone = s.leaseDone := rfl
@[simp] theorem updWh_satTick (c : Line) (f : WhC → WhC) (s : State) : (updWh c f s).satTick = s.satTick := rfl
@[simp] theorem updWh_params (c : Line) (f : WhC → WhC) (s : State) : (updWh c f s).params = s.params := rfl
@[simp] theorem updWh_cfgVersion (c : Line) (f : WhC → WhC) (s : State) : (updWh c f s).cfgVersion = s.cfgVersion := rfl
@[simp] theorem updWh_cmd (c : Line) (f : WhC → WhC) (s : State) : (updWh c f s).cmd = s.cmd := rfl
@[simp] theorem updWh_flash (c : Line) (f : WhC → WhC) (s : State) : (updWh c f s).flash = s.flash := rfl
@[simp] theorem updWh_boot (c : Line) (f : WhC → WhC) (s : State) : (updWh c f s).boot = s.boot := rfl
@[simp] theorem updWh_sys (c : Line) (f : WhC → WhC) (s : State) : (updWh c f s).sys = s.sys := rfl
@[simp] theorem updWh_ev (c : Line) (f : WhC → WhC) (s : State) : (updWh c f s).ev = s.ev := rfl
@[simp] theorem updWh_obs (c : Line) (f : WhC → WhC) (s : State) : (updWh c f s).obs = s.obs := rfl
@[simp] theorem updWh_pwr (c : Line) (f : WhC → WhC) (s : State) : (updWh c f s).pwr = s.pwr := rfl
@[simp] theorem updWh_tm (c : Line) (f : WhC → WhC) (s : State) : (updWh c f s).tm = s.tm := rfl
@[simp] theorem updWh_tx (c : Line) (f : WhC → WhC) (s : State) : (updWh c f s).tx = s.tx := rfl
@[simp] theorem updWh_rx (c : Line) (f : WhC → WhC) (s : State) : (updWh c f s).rx = s.rx := rfl
@[simp] theorem updWh_fec (c : Line) (f : WhC → WhC) (s : State) : (updWh c f s).fec = s.fec := rfl
@[simp] theorem updWh_frm (c : Line) (f : WhC → WhC) (s : State) : (updWh c f s).frm = s.frm := rfl
@[simp] theorem updWh_lag (c : Line) (f : WhC → WhC) (s : State) : (updWh c f s).lag = s.lag := rfl
@[simp] theorem updWh_cli (c : Line) (f : WhC → WhC) (s : State) : (updWh c f s).cli = s.cli := rfl
@[simp] theorem updWh_cry (c : Line) (f : WhC → WhC) (s : State) : (updWh c f s).cry = s.cry := rfl
@[simp] theorem updWh_dm (c : Line) (f : WhC → WhC) (s : State) : (updWh c f s).dm = s.dm := rfl
@[simp] theorem updWh_mate (c : Line) (f : WhC → WhC) (s : State) : (updWh c f s).mate = s.mate := rfl
@[simp] theorem updWh_cal (c : Line) (f : WhC → WhC) (s : State) : (updWh c f s).cal = s.cal := rfl
@[simp] theorem updWh_stw (c : Line) (f : WhC → WhC) (s : State) : (updWh c f s).stw = s.stw := rfl
@[simp] theorem updWh_str (c : Line) (f : WhC → WhC) (s : State) : (updWh c f s).str = s.str := rfl
@[simp] theorem updWh_pins (c : Line) (f : WhC → WhC) (s : State) : (updWh c f s).pins = s.pins := rfl
@[simp] theorem updWh_hostMem (c : Line) (f : WhC → WhC) (s : State) : (updWh c f s).hostMem = s.hostMem := rfl
@[simp] theorem updWh_free (c : Line) (f : WhC → WhC) (s : State) : (updWh c f s).free = s.free := rfl
@[simp] theorem updWh_pending (c : Line) (f : WhC → WhC) (s : State) : (updWh c f s).pending = s.pending := rfl

@[simp] theorem updSlots_tick (c : Line) (f : Slots → Slots) (s : State) : (updSlots c f s).tick = s.tick := rfl
@[simp] theorem updSlots_elapsed (c : Line) (f : Slots → Slots) (s : State) : (updSlots c f s).elapsed = s.elapsed := rfl
@[simp] theorem updSlots_windowDone (c : Line) (f : Slots → Slots) (s : State) : (updSlots c f s).windowDone = s.windowDone := rfl
@[simp] theorem updSlots_harvestDone (c : Line) (f : Slots → Slots) (s : State) : (updSlots c f s).harvestDone = s.harvestDone := rfl
@[simp] theorem updSlots_leaseDone (c : Line) (f : Slots → Slots) (s : State) : (updSlots c f s).leaseDone = s.leaseDone := rfl
@[simp] theorem updSlots_satTick (c : Line) (f : Slots → Slots) (s : State) : (updSlots c f s).satTick = s.satTick := rfl
@[simp] theorem updSlots_params (c : Line) (f : Slots → Slots) (s : State) : (updSlots c f s).params = s.params := rfl
@[simp] theorem updSlots_cfgVersion (c : Line) (f : Slots → Slots) (s : State) : (updSlots c f s).cfgVersion = s.cfgVersion := rfl
@[simp] theorem updSlots_cmd (c : Line) (f : Slots → Slots) (s : State) : (updSlots c f s).cmd = s.cmd := rfl
@[simp] theorem updSlots_flash (c : Line) (f : Slots → Slots) (s : State) : (updSlots c f s).flash = s.flash := rfl
@[simp] theorem updSlots_boot (c : Line) (f : Slots → Slots) (s : State) : (updSlots c f s).boot = s.boot := rfl
@[simp] theorem updSlots_sys (c : Line) (f : Slots → Slots) (s : State) : (updSlots c f s).sys = s.sys := rfl
@[simp] theorem updSlots_ev (c : Line) (f : Slots → Slots) (s : State) : (updSlots c f s).ev = s.ev := rfl
@[simp] theorem updSlots_obs (c : Line) (f : Slots → Slots) (s : State) : (updSlots c f s).obs = s.obs := rfl
@[simp] theorem updSlots_pwr (c : Line) (f : Slots → Slots) (s : State) : (updSlots c f s).pwr = s.pwr := rfl
@[simp] theorem updSlots_tm (c : Line) (f : Slots → Slots) (s : State) : (updSlots c f s).tm = s.tm := rfl
@[simp] theorem updSlots_tx (c : Line) (f : Slots → Slots) (s : State) : (updSlots c f s).tx = s.tx := rfl
@[simp] theorem updSlots_rx (c : Line) (f : Slots → Slots) (s : State) : (updSlots c f s).rx = s.rx := rfl
@[simp] theorem updSlots_fec (c : Line) (f : Slots → Slots) (s : State) : (updSlots c f s).fec = s.fec := rfl
@[simp] theorem updSlots_frm (c : Line) (f : Slots → Slots) (s : State) : (updSlots c f s).frm = s.frm := rfl
@[simp] theorem updSlots_lag (c : Line) (f : Slots → Slots) (s : State) : (updSlots c f s).lag = s.lag := rfl
@[simp] theorem updSlots_cry (c : Line) (f : Slots → Slots) (s : State) : (updSlots c f s).cry = s.cry := rfl
@[simp] theorem updSlots_wh (c : Line) (f : Slots → Slots) (s : State) : (updSlots c f s).wh = s.wh := rfl
@[simp] theorem updSlots_dm (c : Line) (f : Slots → Slots) (s : State) : (updSlots c f s).dm = s.dm := rfl
@[simp] theorem updSlots_mate (c : Line) (f : Slots → Slots) (s : State) : (updSlots c f s).mate = s.mate := rfl
@[simp] theorem updSlots_cal (c : Line) (f : Slots → Slots) (s : State) : (updSlots c f s).cal = s.cal := rfl
@[simp] theorem updSlots_stw (c : Line) (f : Slots → Slots) (s : State) : (updSlots c f s).stw = s.stw := rfl
@[simp] theorem updSlots_str (c : Line) (f : Slots → Slots) (s : State) : (updSlots c f s).str = s.str := rfl
@[simp] theorem updSlots_pins (c : Line) (f : Slots → Slots) (s : State) : (updSlots c f s).pins = s.pins := rfl
@[simp] theorem updSlots_hostMem (c : Line) (f : Slots → Slots) (s : State) : (updSlots c f s).hostMem = s.hostMem := rfl
@[simp] theorem updSlots_free (c : Line) (f : Slots → Slots) (s : State) : (updSlots c f s).free = s.free := rfl
@[simp] theorem updSlots_pending (c : Line) (f : Slots → Slots) (s : State) : (updSlots c f s).pending = s.pending := rfl

@[simp] theorem updQ_tick (i : Nat) (f : Queue → Queue) (s : State) : (updQ i f s).tick = s.tick := rfl
@[simp] theorem updQ_elapsed (i : Nat) (f : Queue → Queue) (s : State) : (updQ i f s).elapsed = s.elapsed := rfl
@[simp] theorem updQ_windowDone (i : Nat) (f : Queue → Queue) (s : State) : (updQ i f s).windowDone = s.windowDone := rfl
@[simp] theorem updQ_harvestDone (i : Nat) (f : Queue → Queue) (s : State) : (updQ i f s).harvestDone = s.harvestDone := rfl
@[simp] theorem updQ_leaseDone (i : Nat) (f : Queue → Queue) (s : State) : (updQ i f s).leaseDone = s.leaseDone := rfl
@[simp] theorem updQ_satTick (i : Nat) (f : Queue → Queue) (s : State) : (updQ i f s).satTick = s.satTick := rfl
@[simp] theorem updQ_params (i : Nat) (f : Queue → Queue) (s : State) : (updQ i f s).params = s.params := rfl
@[simp] theorem updQ_cfgVersion (i : Nat) (f : Queue → Queue) (s : State) : (updQ i f s).cfgVersion = s.cfgVersion := rfl
@[simp] theorem updQ_flash (i : Nat) (f : Queue → Queue) (s : State) : (updQ i f s).flash = s.flash := rfl
@[simp] theorem updQ_boot (i : Nat) (f : Queue → Queue) (s : State) : (updQ i f s).boot = s.boot := rfl
@[simp] theorem updQ_sys (i : Nat) (f : Queue → Queue) (s : State) : (updQ i f s).sys = s.sys := rfl
@[simp] theorem updQ_ev (i : Nat) (f : Queue → Queue) (s : State) : (updQ i f s).ev = s.ev := rfl
@[simp] theorem updQ_obs (i : Nat) (f : Queue → Queue) (s : State) : (updQ i f s).obs = s.obs := rfl
@[simp] theorem updQ_pwr (i : Nat) (f : Queue → Queue) (s : State) : (updQ i f s).pwr = s.pwr := rfl
@[simp] theorem updQ_tm (i : Nat) (f : Queue → Queue) (s : State) : (updQ i f s).tm = s.tm := rfl
@[simp] theorem updQ_tx (i : Nat) (f : Queue → Queue) (s : State) : (updQ i f s).tx = s.tx := rfl
@[simp] theorem updQ_rx (i : Nat) (f : Queue → Queue) (s : State) : (updQ i f s).rx = s.rx := rfl
@[simp] theorem updQ_fec (i : Nat) (f : Queue → Queue) (s : State) : (updQ i f s).fec = s.fec := rfl
@[simp] theorem updQ_frm (i : Nat) (f : Queue → Queue) (s : State) : (updQ i f s).frm = s.frm := rfl
@[simp] theorem updQ_lag (i : Nat) (f : Queue → Queue) (s : State) : (updQ i f s).lag = s.lag := rfl
@[simp] theorem updQ_cli (i : Nat) (f : Queue → Queue) (s : State) : (updQ i f s).cli = s.cli := rfl
@[simp] theorem updQ_cry (i : Nat) (f : Queue → Queue) (s : State) : (updQ i f s).cry = s.cry := rfl
@[simp] theorem updQ_wh (i : Nat) (f : Queue → Queue) (s : State) : (updQ i f s).wh = s.wh := rfl
@[simp] theorem updQ_dm (i : Nat) (f : Queue → Queue) (s : State) : (updQ i f s).dm = s.dm := rfl
@[simp] theorem updQ_mate (i : Nat) (f : Queue → Queue) (s : State) : (updQ i f s).mate = s.mate := rfl
@[simp] theorem updQ_cal (i : Nat) (f : Queue → Queue) (s : State) : (updQ i f s).cal = s.cal := rfl
@[simp] theorem updQ_stw (i : Nat) (f : Queue → Queue) (s : State) : (updQ i f s).stw = s.stw := rfl
@[simp] theorem updQ_str (i : Nat) (f : Queue → Queue) (s : State) : (updQ i f s).str = s.str := rfl
@[simp] theorem updQ_pins (i : Nat) (f : Queue → Queue) (s : State) : (updQ i f s).pins = s.pins := rfl
@[simp] theorem updQ_hostMem (i : Nat) (f : Queue → Queue) (s : State) : (updQ i f s).hostMem = s.hostMem := rfl
@[simp] theorem updQ_free (i : Nat) (f : Queue → Queue) (s : State) : (updQ i f s).free = s.free := rfl
@[simp] theorem updQ_pending (i : Nat) (f : Queue → Queue) (s : State) : (updQ i f s).pending = s.pending := rfl

@[simp] theorem updCli_tick (i : Nat) (f : Client → Client) (s : State) : (updCli i f s).tick = s.tick := rfl
@[simp] theorem updCli_elapsed (i : Nat) (f : Client → Client) (s : State) : (updCli i f s).elapsed = s.elapsed := rfl
@[simp] theorem updCli_windowDone (i : Nat) (f : Client → Client) (s : State) : (updCli i f s).windowDone = s.windowDone := rfl
@[simp] theorem updCli_harvestDone (i : Nat) (f : Client → Client) (s : State) : (updCli i f s).harvestDone = s.harvestDone := rfl
@[simp] theorem updCli_leaseDone (i : Nat) (f : Client → Client) (s : State) : (updCli i f s).leaseDone = s.leaseDone := rfl
@[simp] theorem updCli_satTick (i : Nat) (f : Client → Client) (s : State) : (updCli i f s).satTick = s.satTick := rfl
@[simp] theorem updCli_params (i : Nat) (f : Client → Client) (s : State) : (updCli i f s).params = s.params := rfl
@[simp] theorem updCli_cfgVersion (i : Nat) (f : Client → Client) (s : State) : (updCli i f s).cfgVersion = s.cfgVersion := rfl
@[simp] theorem updCli_cmd (i : Nat) (f : Client → Client) (s : State) : (updCli i f s).cmd = s.cmd := rfl
@[simp] theorem updCli_flash (i : Nat) (f : Client → Client) (s : State) : (updCli i f s).flash = s.flash := rfl
@[simp] theorem updCli_boot (i : Nat) (f : Client → Client) (s : State) : (updCli i f s).boot = s.boot := rfl
@[simp] theorem updCli_sys (i : Nat) (f : Client → Client) (s : State) : (updCli i f s).sys = s.sys := rfl
@[simp] theorem updCli_ev (i : Nat) (f : Client → Client) (s : State) : (updCli i f s).ev = s.ev := rfl
@[simp] theorem updCli_obs (i : Nat) (f : Client → Client) (s : State) : (updCli i f s).obs = s.obs := rfl
@[simp] theorem updCli_pwr (i : Nat) (f : Client → Client) (s : State) : (updCli i f s).pwr = s.pwr := rfl
@[simp] theorem updCli_tm (i : Nat) (f : Client → Client) (s : State) : (updCli i f s).tm = s.tm := rfl
@[simp] theorem updCli_tx (i : Nat) (f : Client → Client) (s : State) : (updCli i f s).tx = s.tx := rfl
@[simp] theorem updCli_rx (i : Nat) (f : Client → Client) (s : State) : (updCli i f s).rx = s.rx := rfl
@[simp] theorem updCli_fec (i : Nat) (f : Client → Client) (s : State) : (updCli i f s).fec = s.fec := rfl
@[simp] theorem updCli_frm (i : Nat) (f : Client → Client) (s : State) : (updCli i f s).frm = s.frm := rfl
@[simp] theorem updCli_lag (i : Nat) (f : Client → Client) (s : State) : (updCli i f s).lag = s.lag := rfl
@[simp] theorem updCli_cry (i : Nat) (f : Client → Client) (s : State) : (updCli i f s).cry = s.cry := rfl
@[simp] theorem updCli_wh (i : Nat) (f : Client → Client) (s : State) : (updCli i f s).wh = s.wh := rfl
@[simp] theorem updCli_dm (i : Nat) (f : Client → Client) (s : State) : (updCli i f s).dm = s.dm := rfl
@[simp] theorem updCli_mate (i : Nat) (f : Client → Client) (s : State) : (updCli i f s).mate = s.mate := rfl
@[simp] theorem updCli_cal (i : Nat) (f : Client → Client) (s : State) : (updCli i f s).cal = s.cal := rfl
@[simp] theorem updCli_stw (i : Nat) (f : Client → Client) (s : State) : (updCli i f s).stw = s.stw := rfl
@[simp] theorem updCli_str (i : Nat) (f : Client → Client) (s : State) : (updCli i f s).str = s.str := rfl
@[simp] theorem updCli_pins (i : Nat) (f : Client → Client) (s : State) : (updCli i f s).pins = s.pins := rfl
@[simp] theorem updCli_hostMem (i : Nat) (f : Client → Client) (s : State) : (updCli i f s).hostMem = s.hostMem := rfl
@[simp] theorem updCli_free (i : Nat) (f : Client → Client) (s : State) : (updCli i f s).free = s.free := rfl
@[simp] theorem updCli_pending (i : Nat) (f : Client → Client) (s : State) : (updCli i f s).pending = s.pending := rfl

@[simp] theorem updTen_tick (i : Nat) (f : Tenant → Tenant) (s : State) : (updTen i f s).tick = s.tick := rfl
@[simp] theorem updTen_elapsed (i : Nat) (f : Tenant → Tenant) (s : State) : (updTen i f s).elapsed = s.elapsed := rfl
@[simp] theorem updTen_windowDone (i : Nat) (f : Tenant → Tenant) (s : State) : (updTen i f s).windowDone = s.windowDone := rfl
@[simp] theorem updTen_harvestDone (i : Nat) (f : Tenant → Tenant) (s : State) : (updTen i f s).harvestDone = s.harvestDone := rfl
@[simp] theorem updTen_leaseDone (i : Nat) (f : Tenant → Tenant) (s : State) : (updTen i f s).leaseDone = s.leaseDone := rfl
@[simp] theorem updTen_satTick (i : Nat) (f : Tenant → Tenant) (s : State) : (updTen i f s).satTick = s.satTick := rfl
@[simp] theorem updTen_params (i : Nat) (f : Tenant → Tenant) (s : State) : (updTen i f s).params = s.params := rfl
@[simp] theorem updTen_cfgVersion (i : Nat) (f : Tenant → Tenant) (s : State) : (updTen i f s).cfgVersion = s.cfgVersion := rfl
@[simp] theorem updTen_cmd (i : Nat) (f : Tenant → Tenant) (s : State) : (updTen i f s).cmd = s.cmd := rfl
@[simp] theorem updTen_flash (i : Nat) (f : Tenant → Tenant) (s : State) : (updTen i f s).flash = s.flash := rfl
@[simp] theorem updTen_boot (i : Nat) (f : Tenant → Tenant) (s : State) : (updTen i f s).boot = s.boot := rfl
@[simp] theorem updTen_sys (i : Nat) (f : Tenant → Tenant) (s : State) : (updTen i f s).sys = s.sys := rfl
@[simp] theorem updTen_ev (i : Nat) (f : Tenant → Tenant) (s : State) : (updTen i f s).ev = s.ev := rfl
@[simp] theorem updTen_obs (i : Nat) (f : Tenant → Tenant) (s : State) : (updTen i f s).obs = s.obs := rfl
@[simp] theorem updTen_pwr (i : Nat) (f : Tenant → Tenant) (s : State) : (updTen i f s).pwr = s.pwr := rfl
@[simp] theorem updTen_tm (i : Nat) (f : Tenant → Tenant) (s : State) : (updTen i f s).tm = s.tm := rfl
@[simp] theorem updTen_tx (i : Nat) (f : Tenant → Tenant) (s : State) : (updTen i f s).tx = s.tx := rfl
@[simp] theorem updTen_rx (i : Nat) (f : Tenant → Tenant) (s : State) : (updTen i f s).rx = s.rx := rfl
@[simp] theorem updTen_fec (i : Nat) (f : Tenant → Tenant) (s : State) : (updTen i f s).fec = s.fec := rfl
@[simp] theorem updTen_frm (i : Nat) (f : Tenant → Tenant) (s : State) : (updTen i f s).frm = s.frm := rfl
@[simp] theorem updTen_lag (i : Nat) (f : Tenant → Tenant) (s : State) : (updTen i f s).lag = s.lag := rfl
@[simp] theorem updTen_cli (i : Nat) (f : Tenant → Tenant) (s : State) : (updTen i f s).cli = s.cli := rfl
@[simp] theorem updTen_cry (i : Nat) (f : Tenant → Tenant) (s : State) : (updTen i f s).cry = s.cry := rfl
@[simp] theorem updTen_wh (i : Nat) (f : Tenant → Tenant) (s : State) : (updTen i f s).wh = s.wh := rfl
@[simp] theorem updTen_dm (i : Nat) (f : Tenant → Tenant) (s : State) : (updTen i f s).dm = s.dm := rfl
@[simp] theorem updTen_mate (i : Nat) (f : Tenant → Tenant) (s : State) : (updTen i f s).mate = s.mate := rfl
@[simp] theorem updTen_cal (i : Nat) (f : Tenant → Tenant) (s : State) : (updTen i f s).cal = s.cal := rfl
@[simp] theorem updTen_str (i : Nat) (f : Tenant → Tenant) (s : State) : (updTen i f s).str = s.str := rfl
@[simp] theorem updTen_pins (i : Nat) (f : Tenant → Tenant) (s : State) : (updTen i f s).pins = s.pins := rfl
@[simp] theorem updTen_hostMem (i : Nat) (f : Tenant → Tenant) (s : State) : (updTen i f s).hostMem = s.hostMem := rfl
@[simp] theorem updTen_free (i : Nat) (f : Tenant → Tenant) (s : State) : (updTen i f s).free = s.free := rfl
@[simp] theorem updTen_pending (i : Nat) (f : Tenant → Tenant) (s : State) : (updTen i f s).pending = s.pending := rfl

@[simp] theorem updConv_tick (i : Nat) (f : Conv → Conv) (s : State) : (updConv i f s).tick = s.tick := rfl
@[simp] theorem updConv_elapsed (i : Nat) (f : Conv → Conv) (s : State) : (updConv i f s).elapsed = s.elapsed := rfl
@[simp] theorem updConv_windowDone (i : Nat) (f : Conv → Conv) (s : State) : (updConv i f s).windowDone = s.windowDone := rfl
@[simp] theorem updConv_harvestDone (i : Nat) (f : Conv → Conv) (s : State) : (updConv i f s).harvestDone = s.harvestDone := rfl
@[simp] theorem updConv_leaseDone (i : Nat) (f : Conv → Conv) (s : State) : (updConv i f s).leaseDone = s.leaseDone := rfl
@[simp] theorem updConv_satTick (i : Nat) (f : Conv → Conv) (s : State) : (updConv i f s).satTick = s.satTick := rfl
@[simp] theorem updConv_params (i : Nat) (f : Conv → Conv) (s : State) : (updConv i f s).params = s.params := rfl
@[simp] theorem updConv_cfgVersion (i : Nat) (f : Conv → Conv) (s : State) : (updConv i f s).cfgVersion = s.cfgVersion := rfl
@[simp] theorem updConv_cmd (i : Nat) (f : Conv → Conv) (s : State) : (updConv i f s).cmd = s.cmd := rfl
@[simp] theorem updConv_flash (i : Nat) (f : Conv → Conv) (s : State) : (updConv i f s).flash = s.flash := rfl
@[simp] theorem updConv_boot (i : Nat) (f : Conv → Conv) (s : State) : (updConv i f s).boot = s.boot := rfl
@[simp] theorem updConv_sys (i : Nat) (f : Conv → Conv) (s : State) : (updConv i f s).sys = s.sys := rfl
@[simp] theorem updConv_ev (i : Nat) (f : Conv → Conv) (s : State) : (updConv i f s).ev = s.ev := rfl
@[simp] theorem updConv_obs (i : Nat) (f : Conv → Conv) (s : State) : (updConv i f s).obs = s.obs := rfl
@[simp] theorem updConv_pwr (i : Nat) (f : Conv → Conv) (s : State) : (updConv i f s).pwr = s.pwr := rfl
@[simp] theorem updConv_tm (i : Nat) (f : Conv → Conv) (s : State) : (updConv i f s).tm = s.tm := rfl
@[simp] theorem updConv_tx (i : Nat) (f : Conv → Conv) (s : State) : (updConv i f s).tx = s.tx := rfl
@[simp] theorem updConv_rx (i : Nat) (f : Conv → Conv) (s : State) : (updConv i f s).rx = s.rx := rfl
@[simp] theorem updConv_fec (i : Nat) (f : Conv → Conv) (s : State) : (updConv i f s).fec = s.fec := rfl
@[simp] theorem updConv_frm (i : Nat) (f : Conv → Conv) (s : State) : (updConv i f s).frm = s.frm := rfl
@[simp] theorem updConv_lag (i : Nat) (f : Conv → Conv) (s : State) : (updConv i f s).lag = s.lag := rfl
@[simp] theorem updConv_cli (i : Nat) (f : Conv → Conv) (s : State) : (updConv i f s).cli = s.cli := rfl
@[simp] theorem updConv_cry (i : Nat) (f : Conv → Conv) (s : State) : (updConv i f s).cry = s.cry := rfl
@[simp] theorem updConv_wh (i : Nat) (f : Conv → Conv) (s : State) : (updConv i f s).wh = s.wh := rfl
@[simp] theorem updConv_dm (i : Nat) (f : Conv → Conv) (s : State) : (updConv i f s).dm = s.dm := rfl
@[simp] theorem updConv_mate (i : Nat) (f : Conv → Conv) (s : State) : (updConv i f s).mate = s.mate := rfl
@[simp] theorem updConv_stw (i : Nat) (f : Conv → Conv) (s : State) : (updConv i f s).stw = s.stw := rfl
@[simp] theorem updConv_str (i : Nat) (f : Conv → Conv) (s : State) : (updConv i f s).str = s.str := rfl
@[simp] theorem updConv_pins (i : Nat) (f : Conv → Conv) (s : State) : (updConv i f s).pins = s.pins := rfl
@[simp] theorem updConv_hostMem (i : Nat) (f : Conv → Conv) (s : State) : (updConv i f s).hostMem = s.hostMem := rfl
@[simp] theorem updConv_free (i : Nat) (f : Conv → Conv) (s : State) : (updConv i f s).free = s.free := rfl
@[simp] theorem updConv_pending (i : Nat) (f : Conv → Conv) (s : State) : (updConv i f s).pending = s.pending := rfl

/-- Every memory the reset state holds is in canonical form. -/
theorem reset_memories_wf :
    SMap.wf (0 : Byte) State.reset.hostMem = true ∧ SMap.wf (0 : Byte) State.reset.str.mem = true ∧
    SMap.wf (0xFF : Byte) State.reset.flash.mem = true ∧ SMap.wf 0 State.reset.obs.cnt = true ∧
    SMap.wf false State.reset.obs.sat = true ∧ SMap.wf ({} : Eng) State.reset.stw.engs = true := by
  decide

end Sys2Proof.Machine
end

