-- ==== Sys2Proof/Tests/Slice0.lean ====
section
/-! SUPPORT. Slice0.lean: tests of the model on small states, the refusals of ill-formed commands, and for every statement
a state and operands that meet each of its clauses' hypotheses. -/
namespace Sys2Proof.Tests
set_option Elab.async false
set_option maxRecDepth 100000
open Sys2Proof Sys2Proof.Machine

/-! ## Small states -/

/-- The device in STANDBY with its firmware running, one packet waiting in SQ0 and a session with expert access on it. -/
def base : State :=
  { State.reset with
    windowDone := true, elapsed := 100000000
    boot := { State.reset.boot with inReset := false, xoFound := true, locked := true, stage := 6 }
    sys := { State.reset.sys with ready := true, fwRunning := true }
    cmd := { State.reset.cmd with
      queues := { enabled := true, sqLog2 := 4, cqLog2 := 4, sqTail := 1 } :: List.replicate 7 {}
      sess := some { expert := true } :: List.replicate 8 none } }

/-- `s` with a parameter's value. -/
def setP (s : State) (pid inst : Nat) (v : Bytes) : State := { s with params := SMap.ins (pid * 256 + inst) v s.params }

/-- A packet on SQ0 for carrier field `cr` with parameters `bs`, inline when they fit, with its CRC. -/
def pk (op : Nat) (cr : BitVec 2) (bs : Bytes) (at_ : BitVec 64 := 0) : Packet :=
  let p : Packet := {
    q := 0, crcPresent := true, tag := 7, seq := 7, atTick := at_, carrier := cr, paramLen := BitVec.ofNat 13 bs.length
    paramInline := bs.length ≤ 32, params := if bs.length ≤ 32 then BitVec.ofNat 256 (unle bs) else 0
    buf := if bs.length ≤ 32 then [] else bs }
  { p with crc := BitVec.ofNat 32 (packetCrc op p) }

/-- The state after steps 1 to 5. -/
def taken (op : Nat) (p : Packet) (s : State) : State :=
  match fetch op p (openWindow s) with
  | some u => noted p u
  | none => s

/-- `Taken` as a test. -/
def takenB (op : Nat) (p : Packet) (s : State) : Bool :=
  packetWf p && !stopped (openWindow s) && (match fetch op p (openWindow s) with
    | some u => (match dupOf u (packetKey p) (packetCrc op p) with
      | .fresh => true
      | _ => false) && !u.sys.deviceFault
    | none => false) && (checkLen op p).isNone && (!p.crcPresent || packetCrc op p == p.crc.toNat)

theorem taken_of {op : Nat} {p : Packet} {s : State} (h : takenB op p s = true) : Taken op p s (taken op p s) := by
  simp only [takenB, Bool.and_eq_true, Bool.not_eq_true', Option.isNone_iff_eq_none, Bool.or_eq_true] at h
  obtain ⟨⟨⟨⟨h1, h2⟩, h3⟩, h4⟩, h5⟩ := h
  refine ⟨h1, h2, ?_, h4, ?_⟩
  · unfold taken
    cases hf : fetch op p (openWindow s) with
    | none => rw [hf] at h3; simp at h3
    | some u =>
      rw [hf] at h3
      simp only [Bool.and_eq_true, Bool.not_eq_true'] at h3
      refine ⟨u, rfl, ?_, h3.2, rfl⟩
      cases hd : dupOf u (packetKey p) (packetCrc op p) <;> rw [hd] at h3 <;> simp at h3 ⊢
  · intro hc
    cases h5 with
    | inl h => rw [hc] at h; cases h
    | inr h => exact eq_of_beq h

/-- `Ready` as a test. -/
def readyB (i : CmdInfo) (p : Packet) (s : State) : Bool :=
  takenB i.op p s && (checkSession i p (taken i.op p s)).isNone && (firstOf (checkHeader i p)).isNone &&
    (firstOf (checkParams i p)).isNone && (checkVersion p (taken i.op p s)).isNone

theorem ready_of {i : CmdInfo} {p : Packet} {s : State} (h : readyB i p s = true) : Ready i p s (taken i.op p s) := by
  simp only [readyB, Bool.and_eq_true, Option.isNone_iff_eq_none] at h
  exact ⟨taken_of h.1.1.1.1, h.1.1.1.2, h.1.1.2, h.1.2, h.2⟩

theorem running_of {s : State} (h : (s.windowDone && !stopped s) = true) : Running s s := by
  simp only [Bool.and_eq_true, Bool.not_eq_true'] at h
  exact ⟨by simp [openWindow, h.1], h.2⟩

theorem awake_of {s : State} (h : (s.windowDone && !s.pwr.tripped && !s.boot.inReset) = true) : Awake s s := by
  simp only [Bool.and_eq_true, Bool.not_eq_true'] at h
  exact ⟨by simp [openWindow, h.1.1], h.1.2, h.2⟩

def exch0 : Exch :=
  { owner := { q := 0, tag := 5, seq := 5 }, init := true, epoch := 9, mask := 1, t := 512, curve := 0,
    stage := .waitAnswer, started := 0, sentAt := some 0 }
def withCli (i : Nat) : State := setP base 0x7000 (0x40 + i) [1]
def withTen (t : Nat) (x : TenSt) : State := updTen t (fun y => { y with st := x }) base
def sol0 (x : SolState) : Solstice := { handle := 2, owner := some 0, recs := [(0x300001, [0])], cls := .local_, st := x }
def solE : Entry :=
  { p := { pk 0x14 0 [2] with tag := 9, seq := 9 }, opcode := 0x14, action := .solstice 2, atTick := 100,
    execTick := 100, acceptNo := 1 }
def withSol (x : SolState) : State := { base with cmd := { base.cmd with sols := [sol0 x], entries := [solE] } }
def entry0 : Entry :=
  { p := { pk 0 0 [] 100 with q := 1 }, opcode := 0, atTick := 100, execTick := 100, acceptNo := 1 }
def withEntry : State := { base with cmd := { base.cmd with entries := [entry0] } }
def withLock : State := updRx .a (fun r => { r with st := .tracking }) base
def gcc0 : GccMsg := { chan := 0, tick := 5, bytes := [1] }
def withGcc : State := updFrm .a (fun f => { f with gcc := { f.gcc with queue := [gcc0] } }) base
def withKeys : State := base
def withSlots : State :=
  updFrm .a (fun f => { f with accPt := 1 :: zeros 23, accMap := 0 :: List.replicate 23 0xFF })
    (setP (setP (withCli 0) 0x7007 0x40 [1]) 0x7004 0x40 [0])
def wmsg0 : WMsg := { mode := 1, seq := 2, tick := 3, wqf := none, payload := [1] }
def withWh : State := updWh .a (fun x => { x with queue := [wmsg0] }) base
def dment0 : DmEnt := { kind := 1, origin := 2, msgId := 3, tick := 4, body := [5] }
def withMate : State := setP { base with mate := { base.mate with link := true, active := true } } 0xB010 0 [1]
def withCal (x : CalSt) : State := { base with cal := { base.cal with stA := x } }
def img0 : Image := { handle := 256, tenant := 5, code := zeros 8, data := [], entry := 0, ports := 0, pages := [] }
def withImg : State := { base with stw := { base.stw with images := [img0] } }
def withPage : State :=
  { withTen 63 .active with stw := { (withTen 63 .active).stw with pages := [(7, { owner := some 63 })] } }
def withCh (r : Option CmdKey) : State := updCh 15 (fun x => { x with tenant := some 5, run := r }) base
def vendorless : Bytes :=
  let b := le 4 0x4D480001 ++ [0, 1] ++ zeros 6 ++ le 4 8 ++ zeros 48 ++ zeros 8
  b ++ le 4 (crc32c b)
def joinBytes : Bytes := le 4 1 ++ le 2 16383 ++ zeros 2 ++ [4] ++ be 48 g384.1 ++ be 48 g384.2 ++ zeros 3
/-- A document of domain 1 whose signature is easy to check: the public key is chosen so that the check adds it to the base
point once. -/
def pubBytes : Bytes :=
  le 4 1 ++ le 4 1 ++ [1, 0, 0, 0] ++ zeros 4 ++ (List.range 2).flatMap fun _ => be 48
    0x67178c3cf5608fa2d55cc973c6d0f1964c03648000362cebdd6847c4e85887a9498f4bc64502a59b79d7a7e4a34717df
def withDomain : State :=
  { base with dm := { base.dm with
      member := true, domain := 1
      key := [4] ++ be 48
          0x197822f64fef1b0d5eb81bdd5e9d62713056041df64b2e10e7e18584fed5f95db873d01b85ad5843529364af772149f3
        ++ be 48
          0xb1a9c48213ba78e7977cb59d5014d7bf9527c9746426c33475f44688797e8acc7c7fae8a7562f7fad507dad762ee71d } }

theorem some_getD {α : Type} {o : Option α} {d : α} (h : o.isSome = true) : o = some (o.getD d) := by
  cases o with
  | none => cases h
  | some a => rfl

theorem none_vac {α : Type} {o : Option α} {k : α} {P : Prop} (h : o = none) (e : o = some k) : P := by
  rw [h] at e; cases e

def open0 : OpenCmd := { p := pk 0x14 0 [2], opcode := 0x14, crc := 0, acceptTick := 0, deadline := 100000000 }
def todBytes : Bytes :=
  let b : Bytes := 0xA5 :: 0x5A :: 1 :: zeros 11
  b ++ be 2 (todCrc b)
def mateBytes : Bytes :=
  let b : Bytes := 0xC3 :: 0xA6 :: zeros 58
  b ++ be 4 (crc32c b)
def desc0 : Vector Byte 32 :=
  #v[0, 0x70, 0, 0, 0, 0, 0, 0, 0x40, 0x70, 0, 0, 0, 0, 0, 0, 64, 0, 0, 0, 2, 0, 0, 0, 0, 0, 0, 0, 0, 0, 0, 0]
def autoEntry : Entry := { p := pk 0 0 [], action := .autoSwitch .a 1, execTick := 100, frozen := true, internal := true }
def desc1 : Vector Byte 32 := desc0.set 21 8
def boardBytes : Bytes :=
  let b : Bytes := le 4 0x42520001 ++ zeros 124
  b ++ le 4 (crc32c b)
def lastRec : Bytes :=
  let b : Bytes := le 4 0 ++ le 4 (2 ^ 32 - 1)
  b ++ le 4 (crc32c b) ++ le 4 0xA5
def ts0 : TsEnt := { seconds := 0, nanos := 0, frac := 0, filter := 0, oneStep := false, sig := 0 }
def calRun0 : CalRun := { mask := 1, meas := 0, start := 0, storing := true, no := 1 }
def brOp : FlashOp := { kind := .bootRecord, aux2 := 1, owner := some { q := 0, tag := 7, seq := 7 } }
def brOpen : State :=
  { base with cmd := { base.cmd with opens := [open0] }, flash := { base.flash with ops := [brOp] } }
def calOpen : State :=
  { base with flash := { base.flash with ops := [{ kind := .calStore, aux := 1 }] },
              cal := { base.cal with runs := [calRun0] } }
theorem vcore_ne : (781 : Nat) ≠ startVcore := by unfold startVcore; omega

/-- A codeword of carrier A's last decode tick, the only one. -/
def decSt (w : CwSt) : State := updFecC .a (fun f => { f with prev := { frames := [{ cws := [w] }] } }) base
theorem poolUntil_now {p : State → Bool} {s : State} : ∀ {n : Nat}, p s = true → poolUntil p n s = some s
  | 0, h => by simp [poolUntil, h]
  | _ + 1, h => by simp [poolUntil, h]
theorem poolUntil_next {p : State → Bool} {s : State} {n : Nat} (hn : 0 < n) (h : p s = false)
    (h' : p (poolStep s) = true) : poolUntil p n s = some (poolStep s) := by
  cases n with
  | zero => cases hn
  | succ k => simp [poolUntil, h, poolUntil_now h']

/-! ## Witnesses of the statements about host commands, one for each clause -/

theorem witness_StatusCommandsAnswer :
    (∃ (p : Packet) (s t u : State), u = accept p t ∧ Ready infoIdentify p s t) ∧
    (∃ (p : Packet) (s t u : State), u = accept p t ∧ Ready infoStateGet p s t) ∧
    (∃ (p : Packet) (s t u : State), u = accept p t ∧ Ready infoFlashStatus p s t) ∧
    (∃ (p : Packet) (s t u : State), u = accept p t ∧ Ready infoTmStatus p s t) ∧
    (∃ (p : Packet) (s t u : State), u = accept p t ∧ Ready infoTmTodRead p s t) ∧
    (∃ (p : Packet) (s t u : State), u = accept p t ∧ Ready infoTxStatus p s t) ∧
    (∃ (p : Packet) (s t u : State), u = accept p t ∧ Ready infoRxStatus p s t) ∧
    (∃ (p : Packet) (s t u : State), u = accept p t ∧ Ready infoRxMeasure p s t) ∧
    (∃ (p : Packet) (s t u : State), u = accept p t ∧ Ready infoFecStatus p s t) ∧
    (∃ (p : Packet) (s t u : State), u = accept p t ∧ Ready infoFecPool p s t) ∧
    (∃ (p : Packet) (s t u : State), u = accept p t ∧ Ready infoFrmStatus p s t) ∧
    (∃ (p : Packet) (s t u : State), u = accept p t ∧ Ready infoFrmOhCapture p s t) ∧
    (∃ (p : Packet) (s t u : State), u = accept p t ∧ Ready infoCryStatus p s t) ∧
    (∃ (p : Packet) (s t u : State), u = accept p t ∧ Ready infoWhStatus p s t) ∧
    (∃ (p : Packet) (s t u : State), u = accept p t ∧ Ready infoDmStatus p s t) ∧
    (∃ (p : Packet) (s t u : State), u = accept p t ∧ Ready infoMateStatus p s t) ∧
    (∃ (p : Packet) (s t u : State), u = accept p t ∧ Ready infoPwrStatus p s t) ∧
    (∃ (p : Packet) (s t u : State), u = accept p t ∧ Ready infoStwStatus p s t) ∧
    (∃ (p : Packet) (s t u : State), u = accept p t ∧ Ready infoStoreStatus p s t) ∧
    (∃ (p : Packet) (s t u : State) (b : Bytes), u = accept p t ∧ b = paramBytes p ∧ Ready infoCliStatus p s t ∧
      byteAt b 16 ≤ 11 ∧ cliOn t (byteAt b 16) = true) ∧
    (∃ (p : Packet) (s t u : State) (b : Bytes), u = accept p t ∧ b = paramBytes p ∧ Ready infoTenStatus p s t ∧
      byteAt b 16 ≤ 63 ∧ (getTen u (byteAt b 16)).st ≠ .off) ∧
    (∃ (p : Packet) (s t u : State) (b : Bytes), u = accept p t ∧ b = paramBytes p ∧ Ready infoCalStatus p s t ∧
      byteAt b 16 ≤ 15) ∧
    (∃ (p : Packet) (s t u : State) (b : Bytes), u = accept p t ∧ b = paramBytes p ∧ Ready infoCalDump p s t ∧ byteAt
      b 16 ≤ 15) ∧
    (∃ (p : Packet) (s t u : State) (b : Bytes), u = accept p t ∧ b = paramBytes p ∧ Ready infoDmaStatus p s t ∧
      byteAt b 16 ≤ 15) ∧
    (∃ (p : Packet) (s t u : State), u = accept p t ∧ Ready infoDmCfgRead p s t ∧ u.dm.member = true ∧ u.dm.doc ≠ []) ∧
    (∃ (p : Packet) (s t u : State) (c : Line), u = accept p t ∧ c = pktLine p ∧ Ready infoKeStatus p s t ∧ (getCry u
      c).exch = none) ∧
    (∃ (p : Packet) (s t u : State) (c : Line) (x : Exch), u = accept p t ∧ c = pktLine p ∧ Ready infoKeStatus p s t ∧
      (getCry u c).exch = some x) ∧
    (∃ (p : Packet) (s t u : State) (b : Bytes), u = accept p t ∧ b = paramBytes p ∧ Ready infoTenStatus p s t ∧
      byteAt b 16 ≤ 63 ∧ (getTen u (byteAt b 16)).st = .off) :=
  ⟨⟨pk infoIdentify.op 0 (zeros 16), base, taken infoIdentify.op (pk infoIdentify.op 0 (zeros 16)) (base), _, rfl,
      ready_of (by decide +kernel)⟩,
    ⟨pk infoStateGet.op 0 ([]), base, taken infoStateGet.op (pk infoStateGet.op 0 ([])) (base), _, rfl, ready_of
      (by decide +kernel)⟩,
    ⟨pk infoFlashStatus.op 0 (zeros 16), base, taken infoFlashStatus.op (pk infoFlashStatus.op 0 (zeros 16)) (base),
      _, rfl, ready_of (by decide +kernel)⟩,
    ⟨pk infoTmStatus.op 0 (zeros 16), base, taken infoTmStatus.op (pk infoTmStatus.op 0 (zeros 16)) (base), _, rfl,
      ready_of (by decide +kernel)⟩,
    ⟨pk infoTmTodRead.op 0 (zeros 16), base, taken infoTmTodRead.op (pk infoTmTodRead.op 0 (zeros 16)) (base), _, rfl,
      ready_of (by decide +kernel)⟩,
    ⟨pk infoTxStatus.op 1 (zeros 16), base, taken infoTxStatus.op (pk infoTxStatus.op 1 (zeros 16)) (base), _, rfl,
      ready_of (by decide +kernel)⟩,
    ⟨pk infoRxStatus.op 2 (zeros 16), base, taken infoRxStatus.op (pk infoRxStatus.op 2 (zeros 16)) (base), _, rfl,
      ready_of (by decide +kernel)⟩,
    ⟨pk infoRxMeasure.op 1 (zeros 16), base, taken infoRxMeasure.op (pk infoRxMeasure.op 1 (zeros 16)) (base), _, rfl,
      ready_of (by decide +kernel)⟩,
    ⟨pk infoFecStatus.op 2 (zeros 16), base, taken infoFecStatus.op (pk infoFecStatus.op 2 (zeros 16)) (base), _, rfl,
      ready_of (by decide +kernel)⟩,
    ⟨pk infoFecPool.op 0 (zeros 16), base, taken infoFecPool.op (pk infoFecPool.op 0 (zeros 16)) (base), _, rfl,
      ready_of (by decide +kernel)⟩,
    ⟨pk infoFrmStatus.op 1 (zeros 16), base, taken infoFrmStatus.op (pk infoFrmStatus.op 1 (zeros 16)) (base), _, rfl,
      ready_of (by decide +kernel)⟩,
    ⟨pk infoFrmOhCapture.op 2 (zeros 16), base, taken infoFrmOhCapture.op (pk infoFrmOhCapture.op 2 (zeros 16))
      (base), _, rfl, ready_of (by decide +kernel)⟩,
    ⟨pk infoCryStatus.op 1 (zeros 16), base, taken infoCryStatus.op (pk infoCryStatus.op 1 (zeros 16)) (base), _, rfl,
      ready_of (by decide +kernel)⟩,
    ⟨pk infoWhStatus.op 2 (zeros 16), base, taken infoWhStatus.op (pk infoWhStatus.op 2 (zeros 16)) (base), _, rfl,
      ready_of (by decide +kernel)⟩,
    ⟨pk infoDmStatus.op 0 (zeros 16), base, taken infoDmStatus.op (pk infoDmStatus.op 0 (zeros 16)) (base), _, rfl,
      ready_of (by decide +kernel)⟩,
    ⟨pk infoMateStatus.op 0 (zeros 16), base, taken infoMateStatus.op (pk infoMateStatus.op 0 (zeros 16)) (base), _,
      rfl, ready_of (by decide +kernel)⟩,
    ⟨pk infoPwrStatus.op 0 (zeros 16), base, taken infoPwrStatus.op (pk infoPwrStatus.op 0 (zeros 16)) (base), _, rfl,
      ready_of (by decide +kernel)⟩,
    ⟨pk infoStwStatus.op 0 (zeros 16), base, taken infoStwStatus.op (pk infoStwStatus.op 0 (zeros 16)) (base), _, rfl,
      ready_of (by decide +kernel)⟩,
    ⟨pk infoStoreStatus.op 0 (zeros 16), base, taken infoStoreStatus.op (pk infoStoreStatus.op 0 (zeros 16)) (base),
      _, rfl, ready_of (by decide +kernel)⟩,
    ⟨pk infoCliStatus.op 0 (zeros 16 ++ [11]), withCli 11, taken infoCliStatus.op (pk infoCliStatus.op 0 (zeros 16 ++
      [11])) (withCli 11), _, _, rfl, rfl, ready_of (by decide +kernel), by decide +kernel⟩,
    ⟨pk infoTenStatus.op 0 (zeros 16 ++ [63]), withTen 63 .active, taken infoTenStatus.op (pk infoTenStatus.op 0
      (zeros 16 ++ [63])) (withTen 63 .active), _, _, rfl, rfl, ready_of (by decide +kernel), by decide +kernel⟩,
    ⟨pk infoCalStatus.op 0 (zeros 16 ++ [15]), base, taken infoCalStatus.op (pk infoCalStatus.op 0 (zeros 16 ++ [15]))
      (base), _, _, rfl, rfl, ready_of (by decide +kernel), by decide +kernel⟩,
    ⟨pk infoCalDump.op 0 (zeros 16 ++ [0]), base, taken infoCalDump.op (pk infoCalDump.op 0 (zeros 16 ++ [0])) (base),
      _, _, rfl, rfl, ready_of (by decide +kernel), by decide +kernel⟩,
    ⟨pk infoDmaStatus.op 0 (zeros 16 ++ [15]), base, taken infoDmaStatus.op (pk infoDmaStatus.op 0 (zeros 16 ++ [15]))
      (base), _, _, rfl, rfl, ready_of (by decide +kernel), by decide +kernel⟩,
    ⟨pk infoDmCfgRead.op 0 (zeros 16), { base with dm := { base.dm with member := true, doc := [1] } }, taken
      infoDmCfgRead.op (pk infoDmCfgRead.op 0 (zeros 16)) ({ base with
        dm := { base.dm with member := true, doc := [1] } }), _, rfl, ready_of (by decide +kernel), by decide +kernel⟩,
    ⟨pk infoKeStatus.op 1 ([]), base, taken infoKeStatus.op (pk infoKeStatus.op 1 ([])) (base), _, _, rfl, rfl,
      ready_of (by decide +kernel), by decide +kernel⟩,
    ⟨pk infoKeStatus.op 1 ([]), { base with cry := { base.cry with a := { base.cry.a with exch := some exch0 } } },
      taken infoKeStatus.op (pk infoKeStatus.op 1 ([])) ({ base with
        cry := { base.cry with a := { base.cry.a with exch := some exch0 } } }), _, _, exch0, rfl, rfl, ready_of
      (by decide +kernel), by decide +kernel⟩,
    ⟨pk infoTenStatus.op 0 (zeros 16 ++ [63]), base, taken infoTenStatus.op (pk infoTenStatus.op 0 (zeros 16 ++ [63]))
      (base), _, _, rfl, rfl, ready_of (by decide +kernel), by decide +kernel⟩⟩

theorem witness_SessionCommandsRun :
    (∃ (p : Packet) (s t u : State), u = accept p t ∧ Ready infoNop p s t ∧ p.atTick = 0) ∧
    (∃ (p : Packet) (s t u : State) (q : Nat), u = accept p t ∧ q = p.q.val ∧ Ready infoSessionOpen p s t ∧ getSess t
      q = none) ∧
    (∃ (p : Packet) (s t u : State), u = accept p t ∧ Ready infoSessionClose p s t) ∧
    (∃ (p : Packet) (s t u : State) (b : Bytes), u = accept p t ∧ b = paramBytes p ∧ Ready infoExpertEnable p s t ∧
      byteAt b 0 ≤ 1) ∧
    (∃ (p : Packet) (s t u : State) (b : Bytes) (q : Nat), u = accept p t ∧ b = paramBytes p ∧ q = p.q.val ∧ Ready
      infoParamGet p s t ∧ byteAt b 16 ≤ 1 ∧ rsv b 17 20 = true ∧ (∀ o ∈ entryOffs b, checkEntry (expertOf t q) b o =
      none)) ∧
    (∃ (p : Packet) (s t u : State) (b : Bytes) (q : Nat), u = accept p t ∧ b = paramBytes p ∧ q = p.q.val ∧ Ready
      infoParamSet p s t ∧ checkRecords (expertOf t q) t.sys.locked b (b.length / 8 + 1) 0 = none) ∧
    (∃ (p : Packet) (s t u : State) (q : Nat), u = accept p t ∧ q = p.q.val ∧ Ready infoSolsticePrepare p s t ∧
      checkSet t (tableApply t.params (shadowOf t q)) (shadowOf t q) = none ∧ t.cmd.sols.length < 8) ∧
    (∃ (p : Packet) (s t u : State) (b : Bytes) (q : Nat) (y : Solstice), u = accept p t ∧ b = paramBytes p ∧ q =
      p.q.val ∧ Ready infoSolsticeCancel p s t ∧ checkHandle (byteAt b 0) q t = none ∧ findSol u (byteAt b 0) = some y
      ∧ y.st = .prepared) ∧
    (∃ (p : Packet) (s t u : State) (b : Bytes) (q : Nat) (y : Solstice) (e : Entry), u = accept p t ∧ b = paramBytes
      p ∧ q = p.q.val ∧ Ready infoSolsticeCancel p s t ∧ checkHandle (byteAt b 0) q t = none ∧ findSol u (byteAt b 0)
      = some y ∧ y.st = .armed ∧ solEntry u (byteAt b 0) = some e) ∧
    (∃ (p : Packet) (s t u : State) (b : Bytes), u = accept p t ∧ b = paramBytes p ∧ Ready infoTimedList p s t ∧
      byteAt b 16 = 0) ∧
    (∃ (p : Packet) (s t u : State) (b : Bytes) (q : Nat) (e : Entry), u = accept p t ∧ b = paramBytes p ∧ q = p.q.val
      ∧ Ready infoTimedList p s t ∧ byteAt b 16 = 1 ∧ (execOrder (u.cmd.entries.filter (·.tabled))).find? (fun e =>
      packetKey e.p == ({ q := byteAt b 17, tag := fld b 18 2, seq := fld b 20 2 } : CmdKey)) = some e ∧ e.frozen =
      false) ∧
    (∃ (p : Packet) (s t u : State) (b : Bytes) (q : Nat) (chunk : Bytes) (v : State), u = accept p t ∧ b = paramBytes
      p ∧ q = p.q.val ∧ Ready infoFwUpdate p s t ∧ fld b 8 4 + fld b 12 4 ≤ 0x400000 ∧ 1 ≤ fld b 12 4 ∧ fld b 12 4 ≤
      262144 ∧ byteAt b 16 ≤ 1 ∧ chunk.length = fld b 12 4 ∧ (u.flash.updateBy = none ∨ u.flash.updateBy = some q) ∧
      (fld b 8 4 = 0 ∨ u.flash.updateBy = some q ∧ u.flash.updateNext = fld b 8 4) ∧ v = chunkTaken q (fld b 8 4) (fld
      b 12 4) u) ∧
    (∃ (p : Packet) (s t u : State) (b : Bytes), u = accept p t ∧ b = paramBytes p ∧ Ready infoFwActivate p s t ∧
      byteAt b 0 ≤ 1 ∧ (u.flash.slots.getD (inactiveSlot u) {}).st = .valid) ∧
    (∃ (p : Packet) (s t u : State) (b : Bytes), u = accept p t ∧ b = paramBytes p ∧ Ready infoTxModePreset p s t ∧
      byteAt b 0 ≤ 11) ∧
    (∃ (p : Packet) (s t u : State) (b : Bytes), u = accept p t ∧ b = paramBytes p ∧ Ready infoObsSampleRead p s t ∧ 1
      ≤ fld b 16 2 ∧ fld b 16 2 ≤ 4096 ∧ (samplesOut (fld b 16 2) u).length ≤ fld b 8 4) ∧
    (∃ (p : Packet) (s t u : State) (b : Bytes) (q : Nat) (y : Solstice), u = accept p t ∧ b = paramBytes p ∧ q =
      p.q.val ∧ Ready infoSolsticeCancel p s t ∧ checkHandle (byteAt b 0) q t = none ∧ findSol u (byteAt b 0) = some y
      ∧ y.st ≠ .prepared ∧ (y.st = .armed → solEntry u (byteAt b 0) = none)) ∧
    (∃ (p : Packet) (s t u : State) (b : Bytes) (q : Nat), u = accept p t ∧ b = paramBytes p ∧ q = p.q.val ∧ Ready
      infoTimedList p s t ∧ byteAt b 16 = 1 ∧ (execOrder (u.cmd.entries.filter (·.tabled))).find? (fun e => packetKey
      e.p == ({ q := byteAt b 17, tag := fld b 18 2, seq := fld b 20 2 } : CmdKey)) = none) ∧
    (∃ (p : Packet) (s t u : State) (b : Bytes) (q : Nat) (e : Entry), u = accept p t ∧ b = paramBytes p ∧ q = p.q.val
      ∧ Ready infoTimedList p s t ∧ byteAt b 16 = 1 ∧ (execOrder (u.cmd.entries.filter (·.tabled))).find? (fun e =>
      packetKey e.p == ({ q := byteAt b 17, tag := fld b 18 2, seq := fld b 20 2 } : CmdKey)) = some e ∧ e.frozen =
      true) ∧
    (∃ (p : Packet) (s t u : State) (b : Bytes) (q : Nat) (chunk : Bytes), u = accept p t ∧ b = paramBytes p ∧ q =
      p.q.val ∧ Ready infoFwUpdate p s t ∧ fld b 8 4 + fld b 12 4 ≤ 0x400000 ∧ 1 ≤ fld b 12 4 ∧ fld b 12 4 ≤ 262144 ∧
      byteAt b 16 ≤ 1 ∧ u.flash.updateBy.any (· != q) = true) ∧
    (∃ (p : Packet) (s t u : State) (b : Bytes) (q : Nat) (chunk : Bytes), u = accept p t ∧ b = paramBytes p ∧ q =
      p.q.val ∧ Ready infoFwUpdate p s t ∧ fld b 8 4 + fld b 12 4 ≤ 0x400000 ∧ 1 ≤ fld b 12 4 ∧ fld b 12 4 ≤ 262144 ∧
      byteAt b 16 ≤ 1 ∧ u.flash.updateBy.any (· != q) = false ∧ fld b 8 4 ≠ 0 ∧ (u.flash.updateBy = none ∨
      u.flash.updateNext ≠ fld b 8 4)) ∧
    (∃ (p : Packet) (s t u : State) (b : Bytes) (q : Nat) (chunk : Bytes), u = accept p t ∧ b = paramBytes p ∧ q =
      p.q.val ∧ Ready infoFwUpdate p s t ∧ fld b 8 4 + fld b 12 4 ≤ 0x400000 ∧ 1 ≤ fld b 12 4 ∧ fld b 12 4 ≤ 262144 ∧
      byteAt b 16 ≤ 1 ∧ u.flash.updateBy.any (· != q) = false ∧ (fld b 8 4 = 0 ∨ u.flash.updateBy ≠ none ∧
      u.flash.updateNext = fld b 8 4) ∧ chunk.length ≠ fld b 12 4) ∧
    (∃ (p : Packet) (s t u : State) (b : Bytes), u = accept p t ∧ b = paramBytes p ∧ Ready infoFwActivate p s t ∧
      byteAt b 0 ≤ 1 ∧ (u.flash.slots.getD (inactiveSlot u) {}).st ≠ .valid) ∧
    (∃ (p : Packet) (s t u : State) (b : Bytes), u = accept p t ∧ b = paramBytes p ∧ Ready infoObsSampleRead p s t ∧ 1
      ≤ fld b 16 2 ∧ fld b 16 2 ≤ 4096 ∧ fld b 8 4 < (samplesOut (fld b 16 2) u).length) :=
  ⟨⟨pk infoNop.op 0 ([]), base, taken infoNop.op (pk infoNop.op 0 ([])) (base), _, rfl, ready_of (by decide +kernel),
      by decide +kernel⟩,
    ⟨pk infoSessionOpen.op 0 ([]), { base with cmd := { base.cmd with sess := List.replicate 9 none } }, taken
      infoSessionOpen.op (pk infoSessionOpen.op 0 ([])) ({ base with
        cmd := { base.cmd with sess := List.replicate 9 none } }), _, _, rfl, rfl, ready_of (by decide +kernel),
      by decide +kernel⟩,
    ⟨pk infoSessionClose.op 0 ([]), base, taken infoSessionClose.op (pk infoSessionClose.op 0 ([])) (base), _, rfl,
      ready_of (by decide +kernel)⟩,
    ⟨pk infoExpertEnable.op 0 ([1]), base, taken infoExpertEnable.op (pk infoExpertEnable.op 0 ([1])) (base), _, _,
      rfl, rfl, ready_of (by decide +kernel), by decide +kernel⟩,
    ⟨pk infoParamGet.op 0 (zeros 16 ++ [1, 0, 0, 0] ++ [0, 0x30, 1, 0]), base, taken infoParamGet.op (pk
      infoParamGet.op 0 (zeros 16 ++ [1, 0, 0, 0] ++ [0, 0x30, 1, 0])) (base), _, _, _, rfl, rfl, rfl, ready_of
      (by decide +kernel), by decide +kernel⟩,
    ⟨pk infoParamSet.op 0 ([0, 0x30, 1, 0, 4, 0, 0, 0] ++ le 4 1 ++ zeros 4), base, taken infoParamSet.op (pk
      infoParamSet.op 0 ([0, 0x30, 1, 0, 4, 0, 0, 0] ++ le 4 1 ++ zeros 4)) (base), _, _, _, rfl, rfl, rfl, ready_of
      (by decide +kernel), by decide +kernel⟩,
    ⟨pk infoSolsticePrepare.op 0 ([]), { base with
        cmd := { base.cmd with
          sess := some { expert := true, shadow := [(0x300001, le 4 1)] } :: List.replicate 8 none } }, taken
      infoSolsticePrepare.op (pk infoSolsticePrepare.op 0 ([])) ({ base with
        cmd := { base.cmd with
          sess := some { expert := true, shadow := [(0x300001, le 4 1)] } :: List.replicate 8 none } }), _, _, rfl,
      rfl, ready_of (by decide +kernel), by decide +kernel⟩,
    ⟨pk infoSolsticeCancel.op 0 ([2]), withSol .prepared, taken infoSolsticeCancel.op (pk infoSolsticeCancel.op 0
      ([2])) (withSol .prepared), _, _, _, sol0 .prepared, rfl, rfl, rfl, ready_of (by decide +kernel),
      by decide +kernel⟩,
    ⟨pk infoSolsticeCancel.op 0 ([2]), withSol .armed, taken infoSolsticeCancel.op (pk infoSolsticeCancel.op 0 ([2]))
      (withSol .armed), _, _, _, sol0 .armed, solE, rfl, rfl, rfl, ready_of (by decide +kernel), by decide +kernel⟩,
    ⟨pk infoTimedList.op 0 (zeros 24), base, taken infoTimedList.op (pk infoTimedList.op 0 (zeros 24)) (base), _, _,
      rfl, rfl, ready_of (by decide +kernel), by decide +kernel⟩,
    ⟨pk infoTimedList.op 0 (zeros 16 ++ [1, 1, 7, 0, 7, 0, 0, 0]), withEntry, taken infoTimedList.op (pk
      infoTimedList.op 0 (zeros 16 ++ [1, 1, 7, 0, 7, 0, 0, 0])) (withEntry), _, _, _, entry0, rfl, rfl, rfl, ready_of
      (by decide +kernel), by decide +kernel⟩,
    ⟨pk infoFwUpdate.op 0 (zeros 12 ++ [2, 0, 0, 0] ++ [1]), base, taken infoFwUpdate.op (pk infoFwUpdate.op 0 (zeros
      12 ++ [2, 0, 0, 0] ++ [1])) (base), _, _, _, [1, 2], _, rfl, rfl, rfl, ready_of (by decide +kernel),
      by decide +kernel, by decide +kernel, by decide +kernel, by decide +kernel, by decide +kernel,
      by decide +kernel, by decide +kernel, rfl⟩,
    ⟨pk infoFwActivate.op 0 ([1]), { base with
        flash := { base.flash with slots := [{ st := .valid }, { st := .valid }] } }, taken infoFwActivate.op (pk
      infoFwActivate.op 0 ([1])) ({ base with
        flash := { base.flash with slots := [{ st := .valid }, { st := .valid }] } }), _, _, rfl, rfl, ready_of
      (by decide +kernel), by decide +kernel⟩,
    ⟨pk infoTxModePreset.op 3 ([11]), base, taken infoTxModePreset.op (pk infoTxModePreset.op 3 ([11])) (base), _, _,
      rfl, rfl, ready_of (by decide +kernel), by decide +kernel⟩,
    ⟨pk infoObsSampleRead.op 0 (zeros 8 ++ [0, 16, 0, 0, 0, 0, 0, 0] ++ [0, 16]), base, taken infoObsSampleRead.op (pk
      infoObsSampleRead.op 0 (zeros 8 ++ [0, 16, 0, 0, 0, 0, 0, 0] ++ [0, 16])) (base), _, _, rfl, rfl, ready_of
      (by decide +kernel), by decide +kernel⟩,
    ⟨pk infoSolsticeCancel.op 0 ([2]), { withSol .armed with cmd := { (withSol .armed).cmd with entries := [] } },
      taken infoSolsticeCancel.op (pk infoSolsticeCancel.op 0 ([2])) ({ withSol .armed with
        cmd := { (withSol .armed).cmd with entries := [] } }), _, _, _, sol0 .armed, rfl, rfl, rfl, ready_of
      (by decide +kernel), by decide +kernel⟩,
    ⟨pk infoTimedList.op 0 (zeros 16 ++ [1, 1, 7, 0, 7, 0, 0, 0]), base, taken infoTimedList.op (pk infoTimedList.op 0
      (zeros 16 ++ [1, 1, 7, 0, 7, 0, 0, 0])) (base), _, _, _, rfl, rfl, rfl, ready_of (by decide +kernel),
      by decide +kernel⟩,
    ⟨pk infoTimedList.op 0 (zeros 16 ++ [1, 1, 7, 0, 7, 0, 0, 0]), { base with
        cmd := { base.cmd with entries := [{ entry0 with frozen := true }] } }, taken infoTimedList.op (pk
      infoTimedList.op 0 (zeros 16 ++ [1, 1, 7, 0, 7, 0, 0, 0])) ({ base with
        cmd := { base.cmd with entries := [{ entry0 with frozen := true }] } }), _, _, _, { entry0 with
        frozen := true }, rfl, rfl, rfl, ready_of (by decide +kernel), by decide +kernel⟩,
    ⟨pk infoFwUpdate.op 0 (zeros 12 ++ [2, 0, 0, 0] ++ [1]), { base with
        flash := { base.flash with updateBy := some 3 } }, taken infoFwUpdate.op (pk infoFwUpdate.op 0 (zeros 12 ++
      [2, 0, 0, 0] ++ [1])) ({ base with flash := { base.flash with updateBy := some 3 } }), _, _, _, [], rfl, rfl,
      rfl, ready_of (by decide +kernel), by decide +kernel⟩,
    ⟨pk infoFwUpdate.op 0 (zeros 8 ++ [1, 0, 0, 0] ++ [2, 0, 0, 0] ++ [1]), base, taken infoFwUpdate.op (pk
      infoFwUpdate.op 0 (zeros 8 ++ [1, 0, 0, 0] ++ [2, 0, 0, 0] ++ [1])) (base), _, _, _, [], rfl, rfl, rfl, ready_of
      (by decide +kernel), by decide +kernel⟩,
    ⟨pk infoFwUpdate.op 0 (zeros 12 ++ [2, 0, 0, 0] ++ [1]), base, taken infoFwUpdate.op (pk infoFwUpdate.op 0 (zeros
      12 ++ [2, 0, 0, 0] ++ [1])) (base), _, _, _, [], rfl, rfl, rfl, ready_of (by decide +kernel), by decide +kernel⟩,
    ⟨pk infoFwActivate.op 0 ([1]), base, taken infoFwActivate.op (pk infoFwActivate.op 0 ([1])) (base), _, _, rfl,
      rfl, ready_of (by decide +kernel), by decide +kernel⟩,
    ⟨pk infoObsSampleRead.op 0 (zeros 16 ++ [0, 16]), base, taken infoObsSampleRead.op (pk infoObsSampleRead.op 0
      (zeros 16 ++ [0, 16])) (base), _, _, rfl, rfl, ready_of (by decide +kernel), by decide +kernel⟩⟩

theorem witness_TimingCommandsRun :
    (∃ (p : Packet) (s t u : State) (b : Bytes), u = accept p t ∧ b = paramBytes p ∧ Ready infoTmSelect p s t ∧ byteAt
      b 0 ≤ 1 ∧ byteAt b 1 ≤ 8 ∧ byteAt b 2 ≤ 1 ∧ (byteAt b 0 = 0 → byteAt b 1 < 4 → u.parN 0x2000 (0x10 + byteAt b 1)
      ≠ 0)) ∧
    (∃ (p : Packet) (s t u : State) (b : Bytes), u = accept p t ∧ b = paramBytes p ∧ Ready infoTmPriority p s t ∧ (∀
      i, i < 9 → byteAt b i ≤ 15)) ∧
    (∃ (p : Packet) (s t u : State) (b : Bytes), u = accept p t ∧ b = paramBytes p ∧ Ready infoTmPhaseAdj p s t ∧ (sx
      32 (fld b 0 4)).natAbs ≤ 1000000 ∧ (∀ r, u.tm.sel = some r → isPhaseRef u r = false) ∧ (u.tm.adjFs + 1000 * sx
      32 (fld b 0 4)).natAbs ≤ 2000000000) ∧
    (∃ (p : Packet) (s t u : State) (b : Bytes), u = accept p t ∧ b = paramBytes p ∧ Ready infoTmSteer p s t ∧ fld b 0
      8 ≤ u.tick ∧ u.tick - fld b 0 8 ≤ tps ∧ u.tm.lastStep ≤ fld b 0 8) ∧
    (∃ (p : Packet) (s t u : State) (b : Bytes), u = accept p t ∧ b = paramBytes p ∧ Ready infoTmForceHoldover p s t ∧
      byteAt b 0 ≤ 1 ∧ (byteAt b 0 = 1 → u.tm.pll ≠ .freerun)) ∧
    (∃ (p : Packet) (s t u : State) (b : Bytes), u = accept p t ∧ b = paramBytes p ∧ Ready infoTmSelect p s t ∧ byteAt
      b 0 = 0 ∧ byteAt b 1 < 4 ∧ byteAt b 2 ≤ 1 ∧ u.parN 0x2000 (0x10 + byteAt b 1) = 0) ∧
    (∃ (p : Packet) (s t u : State) (b : Bytes) (n : Nat), u = accept p t ∧ b = paramBytes p ∧ Ready infoTmPhaseAdj p
      s t ∧ (sx 32 (fld b 0 4)).natAbs ≤ 1000000 ∧ u.tm.sel = some n ∧ isPhaseRef u n = true) ∧
    (∃ (p : Packet) (s t u : State) (b : Bytes), u = accept p t ∧ b = paramBytes p ∧ Ready infoTmPhaseAdj p s t ∧ (sx
      32 (fld b 0 4)).natAbs ≤ 1000000 ∧ (∀ r, u.tm.sel = some r → isPhaseRef u r = false) ∧ 2000000000 < (u.tm.adjFs
      + 1000 * sx 32 (fld b 0 4)).natAbs) ∧
    (∃ (p : Packet) (s t u : State) (b : Bytes), u = accept p t ∧ b = paramBytes p ∧ Ready infoTmSteer p s t ∧ (u.tick
      < fld b 0 8 ∨ tps < u.tick - fld b 0 8 ∨ fld b 0 8 < u.tm.lastStep)) ∧
    (∃ (p : Packet) (s t u : State) (b : Bytes), u = accept p t ∧ b = paramBytes p ∧ Ready infoTmForceHoldover p s t ∧
      byteAt b 0 = 1 ∧ u.tm.pll = .freerun) :=
  ⟨⟨pk infoTmSelect.op 0 ([0, 8, 1]), base, taken infoTmSelect.op (pk infoTmSelect.op 0 ([0, 8, 1])) (base), _, _,
      rfl, rfl, ready_of (by decide +kernel), by decide +kernel⟩,
    ⟨pk infoTmPriority.op 0 ([15, 0, 1, 2, 3, 4, 5, 6, 7]), base, taken infoTmPriority.op (pk infoTmPriority.op 0
      ([15, 0, 1, 2, 3, 4, 5, 6, 7])) (base), _, _, rfl, rfl, ready_of (by decide +kernel), by decide +kernel⟩,
    ⟨pk infoTmPhaseAdj.op 0 (le 4 1000000), base, taken infoTmPhaseAdj.op (pk infoTmPhaseAdj.op 0 (le 4 1000000))
      (base), _, _, rfl, rfl, ready_of (by decide +kernel), by decide +kernel⟩,
    ⟨pk infoTmSteer.op 0 (zeros 8 ++ le 8 77), base, taken infoTmSteer.op (pk infoTmSteer.op 0 (zeros 8 ++ le 8 77))
      (base), _, _, rfl, rfl, ready_of (by decide +kernel), by decide +kernel⟩,
    ⟨pk infoTmForceHoldover.op 0 ([1]), { base with tm := { base.tm with pll := .locked } }, taken
      infoTmForceHoldover.op (pk infoTmForceHoldover.op 0 ([1])) ({ base with
        tm := { base.tm with pll := .locked } }), _, _, rfl, rfl, ready_of (by decide +kernel), by decide +kernel⟩,
    ⟨pk infoTmSelect.op 0 ([0, 3, 1]), setP base 0x2000 0x13 [0], taken infoTmSelect.op (pk infoTmSelect.op 0 ([0, 3,
      1])) (setP base 0x2000 0x13 [0]), _, _, rfl, rfl, ready_of (by decide +kernel), by decide +kernel⟩,
    ⟨pk infoTmPhaseAdj.op 0 (le 4 1), { base with tm := { base.tm with sel := some 8 } }, taken infoTmPhaseAdj.op (pk
      infoTmPhaseAdj.op 0 (le 4 1)) ({ base with tm := { base.tm with sel := some 8 } }), _, _, 8, rfl, rfl, ready_of
      (by decide +kernel), by decide +kernel⟩,
    ⟨pk infoTmPhaseAdj.op 0 (le 4 1000000), { base with tm := { base.tm with adjFs := 1000000001 } }, taken
      infoTmPhaseAdj.op (pk infoTmPhaseAdj.op 0 (le 4 1000000)) ({ base with
        tm := { base.tm with adjFs := 1000000001 } }), _, _, rfl, rfl, ready_of (by decide +kernel),
      by decide +kernel⟩,
    ⟨pk infoTmSteer.op 0 (le 8 1 ++ le 8 0), base, taken infoTmSteer.op (pk infoTmSteer.op 0 (le 8 1 ++ le 8 0))
      (base), _, _, rfl, rfl, ready_of (by decide +kernel), by decide +kernel⟩,
    ⟨pk infoTmForceHoldover.op 0 ([1]), base, taken infoTmForceHoldover.op (pk infoTmForceHoldover.op 0 ([1])) (base),
      _, _, rfl, rfl, ready_of (by decide +kernel), by decide +kernel⟩⟩

theorem witness_LineCommandsRun :
    (∃ (p : Packet) (s t u : State) (b : Bytes), u = accept p t ∧ b = paramBytes p ∧ Ready infoTxCapacity p s t ∧
      120832 ≤ fld b 16 4 ∧ fld b 16 4 ≤ 579584 ∧ fld b 16 4 % 256 = 0 ∧ byteAt b 20 ≤ 2 ∧ byteAt b 21 = 0 ∧ (byteAt b
      20 = 2 → 192 ≤ fld b 22 2 ∧ fld b 22 2 ≤ 368) ∧ byteAt b 24 ≤ 2 ∧ 1 ≤ byteAt b 25 ∧ byteAt b 25 ≤ 20 ∧ fld b 26
      2 = 0) ∧
    (∃ (p : Packet) (s t u : State) (b : Bytes) (c : Line), u = accept p t ∧ b = paramBytes p ∧ c = pktLine p ∧ Ready
      infoRxTapDump p s t ∧ lockInd u c = true ∧ (tapBytes u c).length ≤ fld b 8 4) ∧
    (∃ (p : Packet) (s t u : State) (b : Bytes), u = accept p t ∧ b = paramBytes p ∧ Ready infoRxCapture p s t ∧
      p.atTick = 0 ∧ byteAt b 16 ≤ 2 ∧ rsv b 17 20 = true ∧ 1 ≤ fld b 20 4 ∧ fld b 20 4 ≤ 65536) ∧
    (∃ (p : Packet) (s t u : State) (b : Bytes), u = accept p t ∧ b = paramBytes p ∧ Ready infoFecCoreTest p s t ∧
      byteAt b 0 ≤ 47 ∧ bit (u.fec.disabled ||| u.fec.leaving ||| u.pwr.gatedCores) (byteAt b 0) = false) ∧
    (∃ (p : Packet) (s t u : State) (c : Line), u = accept p t ∧ c = pktLine p ∧ Ready infoFrmGccSend p s t ∧ u.parN
      0x6002 c.inst ≠ 0 ∧ (getFrm t c).gcc.host.length < 8) ∧
    (∃ (p : Packet) (s t u : State) (c : Line), u = accept p t ∧ c = pktLine p ∧ Ready infoFrmGccRecv p s t ∧ (getFrm
      u c).gcc.queue = []) ∧
    (∃ (p : Packet) (s t u : State) (b : Bytes) (c : Line) (m : GccMsg) (rest : List GccMsg), u = accept p t ∧ b =
      paramBytes p ∧ c = pktLine p ∧ Ready infoFrmGccRecv p s t ∧ (getFrm u c).gcc.queue = m :: rest ∧ 16 +
      m.bytes.length ≤ fld b 8 4) ∧
    (∃ (p : Packet) (s t u : State), u = accept p t ∧ Ready infoFrmApsSet p s t) ∧
    (∃ (p : Packet) (s t u : State) (b : Bytes), u = accept p t ∧ b = paramBytes p ∧ Ready infoCliTsRead p s t ∧
      byteAt b 16 ≤ 11 ∧ cliOn t (byteAt b 16) = true ∧ byteAt b 17 = 0 ∧ 1 ≤ fld b 18 2 ∧ fld b 18 2 ≤ 64 ∧
      (tsReadBytes (fld b 18 2) (getCli u (byteAt b 16)).tsIn).length ≤ fld b 8 4) ∧
    (∃ (p : Packet) (s t u : State) (b : Bytes), u = accept p t ∧ b = paramBytes p ∧ Ready infoCliTsRead p s t ∧
      byteAt b 16 ≤ 11 ∧ cliOn t (byteAt b 16) = true ∧ byteAt b 17 = 1 ∧ 1 ≤ fld b 18 2 ∧ fld b 18 2 ≤ 64 ∧
      (tsReadBytes (fld b 18 2) (getCli u (byteAt b 16)).tsOut).length ≤ fld b 8 4) ∧
    (∃ (p : Packet) (s t u : State) (b : Bytes) (j : Nat), u = accept p t ∧ b = paramBytes p ∧ Ready infoClientBitslip
      p s t ∧ byteAt b 0 ≤ 11 ∧ cliOn t (byteAt b 0) = true ∧ byteAt b 1 < cliK t (byteAt b 0) ∧ 1 ≤ byteAt b 2 ∧
      byteAt b 2 ≤ 65 ∧ u.parN 0x7007 (0x40 + byteAt b 0) ≠ 0 ∧ slotOrder (accMapOf u (cliLine u (byteAt b 0)))
      (cliRxSlots u (byteAt b 0)) (byteAt b 1) = some j) ∧
    (∃ (p : Packet) (s t u : State) (c : Line), u = accept p t ∧ c = pktLine p ∧ Ready infoRxTapDump p s t ∧ lockInd u
      c = false) ∧
    (∃ (p : Packet) (s t u : State) (b : Bytes), u = accept p t ∧ b = paramBytes p ∧ Ready infoFecCoreTest p s t ∧
      byteAt b 0 ≤ 47 ∧ bit (u.fec.disabled ||| u.fec.leaving ||| u.pwr.gatedCores) (byteAt b 0) = true) ∧
    (∃ (p : Packet) (s t u : State) (c : Line), u = accept p t ∧ c = pktLine p ∧ Ready infoFrmGccSend p s t ∧ (getFrm
      t c).gcc.host.length < 8 ∧ u.parN 0x6002 c.inst = 0) ∧
    (∃ (p : Packet) (s t u : State) (c : Line), u = accept p t ∧ c = pktLine p ∧ Ready infoFrmGccSend p s t ∧ 8 ≤
      (getFrm t c).gcc.host.length) ∧
    (∃ (p : Packet) (s t u : State) (b : Bytes) (c : Line) (m : GccMsg) (rest : List GccMsg), u = accept p t ∧ b =
      paramBytes p ∧ c = pktLine p ∧ Ready infoFrmGccRecv p s t ∧ (getFrm u c).gcc.queue = m :: rest ∧ fld b 8 4 < 16
      + m.bytes.length) ∧
    (∃ (p : Packet) (s t u : State) (b : Bytes), u = accept p t ∧ b = paramBytes p ∧ Ready infoClientBitslip p s t ∧
      byteAt b 0 ≤ 11 ∧ cliOn t (byteAt b 0) = true ∧ byteAt b 1 < cliK t (byteAt b 0) ∧ 1 ≤ byteAt b 2 ∧ byteAt b 2 ≤
      65 ∧ u.parN 0x7007 (0x40 + byteAt b 0) = 0) ∧
    (∃ (p : Packet) (s t u : State) (b : Bytes), u = accept p t ∧ b = paramBytes p ∧ Ready infoClientBitslip p s t ∧
      byteAt b 0 ≤ 11 ∧ cliOn t (byteAt b 0) = true ∧ byteAt b 1 < cliK t (byteAt b 0) ∧ 1 ≤ byteAt b 2 ∧ byteAt b 2 ≤
      65 ∧ u.parN 0x7007 (0x40 + byteAt b 0) ≠ 0 ∧ slotOrder (accMapOf u (cliLine u (byteAt b 0))) (cliRxSlots u
      (byteAt b 0)) (byteAt b 1) = none) :=
  ⟨⟨pk infoTxCapacity.op 0 (zeros 16 ++ le 4 579584 ++ [2, 0] ++ le 2 368 ++ [2, 20, 0, 0]), base, taken
      infoTxCapacity.op (pk infoTxCapacity.op 0 (zeros 16 ++ le 4 579584 ++ [2, 0] ++ le 2 368 ++ [2, 20, 0, 0]))
      (base), _, _, rfl, rfl, ready_of (by decide +kernel), by decide +kernel⟩,
    ⟨pk infoRxTapDump.op 1 (zeros 8 ++ le 4 1000000 ++ zeros 4), withLock, taken infoRxTapDump.op (pk infoRxTapDump.op
      1 (zeros 8 ++ le 4 1000000 ++ zeros 4)) (withLock), _, _, _, rfl, rfl, rfl, ready_of (by decide +kernel),
      by decide +kernel⟩,
    ⟨pk infoRxCapture.op 1 (zeros 8 ++ le 4 1000000 ++ zeros 4 ++ [2, 0, 0, 0] ++ le 4 3), base, taken
      infoRxCapture.op (pk infoRxCapture.op 1 (zeros 8 ++ le 4 1000000 ++ zeros 4 ++ [2, 0, 0, 0] ++ le 4 3)) (base),
      _, _, rfl, rfl, ready_of (by decide +kernel), by decide +kernel⟩,
    ⟨pk infoFecCoreTest.op 0 ([47]), base, taken infoFecCoreTest.op (pk infoFecCoreTest.op 0 ([47])) (base), _, _,
      rfl, rfl, ready_of (by decide +kernel), by decide +kernel⟩,
    ⟨pk infoFrmGccSend.op 1 ([1, 2]), base, taken infoFrmGccSend.op (pk infoFrmGccSend.op 1 ([1, 2])) (base), _, _,
      rfl, rfl, ready_of (by decide +kernel), by decide +kernel⟩,
    ⟨pk infoFrmGccRecv.op 1 (zeros 16), base, taken infoFrmGccRecv.op (pk infoFrmGccRecv.op 1 (zeros 16)) (base), _,
      _, rfl, rfl, ready_of (by decide +kernel), by decide +kernel⟩,
    ⟨pk infoFrmGccRecv.op 1 (zeros 8 ++ le 4 17 ++ zeros 4), withGcc, taken infoFrmGccRecv.op (pk infoFrmGccRecv.op 1
      (zeros 8 ++ le 4 17 ++ zeros 4)) (withGcc), _, _, _, gcc0, [], rfl, rfl, rfl, ready_of (by decide +kernel),
      by decide +kernel⟩,
    ⟨pk infoFrmApsSet.op 2 (le 4 7), base, taken infoFrmApsSet.op (pk infoFrmApsSet.op 2 (le 4 7)) (base), _, rfl,
      ready_of (by decide +kernel)⟩,
    ⟨pk infoCliTsRead.op 0 (zeros 8 ++ le 4 1000 ++ zeros 4 ++ [11, 0] ++ le 2 64), withCli 11, taken infoCliTsRead.op
      (pk infoCliTsRead.op 0 (zeros 8 ++ le 4 1000 ++ zeros 4 ++ [11, 0] ++ le 2 64)) (withCli 11), _, _, rfl, rfl,
      ready_of (by decide +kernel), by decide +kernel⟩,
    ⟨pk infoCliTsRead.op 0 (zeros 8 ++ le 4 1000 ++ zeros 4 ++ [0, 1] ++ le 2 1), withCli 0, taken infoCliTsRead.op
      (pk infoCliTsRead.op 0 (zeros 8 ++ le 4 1000 ++ zeros 4 ++ [0, 1] ++ le 2 1)) (withCli 0), _, _, rfl, rfl,
      ready_of (by decide +kernel), by decide +kernel⟩,
    ⟨pk infoClientBitslip.op 0 ([0, 0, 65]), withSlots, taken infoClientBitslip.op (pk infoClientBitslip.op 0 ([0, 0,
      65])) (withSlots), _, _, 0, rfl, rfl, ready_of (by decide +kernel), by decide +kernel⟩,
    ⟨pk infoRxTapDump.op 1 (zeros 16), base, taken infoRxTapDump.op (pk infoRxTapDump.op 1 (zeros 16)) (base), _, _,
      rfl, rfl, ready_of (by decide +kernel), by decide +kernel⟩,
    ⟨pk infoFecCoreTest.op 0 ([47]), { base with pwr := { (base).pwr with gatedCores := 2 ^ 47 } }, taken
      infoFecCoreTest.op (pk infoFecCoreTest.op 0 ([47])) ({ base with
        pwr := { (base).pwr with gatedCores := 2 ^ 47 } }), _, _, rfl, rfl, ready_of (by decide +kernel),
      by decide +kernel⟩,
    ⟨pk infoFrmGccSend.op 1 ([1, 2]), setP base 0x6002 1 [0], taken infoFrmGccSend.op (pk infoFrmGccSend.op 1 ([1,
      2])) (setP base 0x6002 1 [0]), _, _, rfl, rfl, ready_of (by decide +kernel), by decide +kernel⟩,
    ⟨pk infoFrmGccSend.op 1 ([1, 2]), updFrm .a (fun f => { f with
        gcc := { f.gcc with host := List.replicate 8 [] } }) base, taken infoFrmGccSend.op (pk infoFrmGccSend.op 1
      ([1, 2])) (updFrm .a (fun f => { f with gcc := { f.gcc with host := List.replicate 8 [] } }) base), _, _, rfl,
      rfl, ready_of (by decide +kernel), by decide +kernel⟩,
    ⟨pk infoFrmGccRecv.op 1 (zeros 8 ++ le 4 16 ++ zeros 4), withGcc, taken infoFrmGccRecv.op (pk infoFrmGccRecv.op 1
      (zeros 8 ++ le 4 16 ++ zeros 4)) (withGcc), _, _, _, gcc0, [], rfl, rfl, rfl, ready_of (by decide +kernel),
      by decide +kernel⟩,
    ⟨pk infoClientBitslip.op 0 ([0, 0, 65]), setP withSlots 0x7007 0x40 [0], taken infoClientBitslip.op (pk
      infoClientBitslip.op 0 ([0, 0, 65])) (setP withSlots 0x7007 0x40 [0]), _, _, rfl, rfl, ready_of
      (by decide +kernel), by decide +kernel⟩,
    ⟨pk infoClientBitslip.op 0 ([0, 0, 65]), updFrm .a (fun f => { f with accMap := List.replicate 24 0xFF })
      withSlots, taken infoClientBitslip.op (pk infoClientBitslip.op 0 ([0, 0, 65])) (updFrm .a (fun f => { f with
        accMap := List.replicate 24 0xFF }) withSlots), _, _, rfl, rfl, ready_of (by decide +kernel),
      by decide +kernel⟩⟩

theorem witness_KeyCommandsRun :
    (∃ (p : Packet) (s t u : State) (b : Bytes), u = accept p t ∧ b = paramBytes p ∧ Ready infoKeyInstall p s t ∧
      byteAt b 0 ≤ 25 ∧ byteAt b 1 ≤ 1 ∧ rsv b 2 4 = true ∧ rsv b 12 16 = true ∧ installCheck u (pktInstall p) true =
      0) ∧
    (∃ (p : Packet) (s t u : State) (b : Bytes) (src : Bytes), u = accept p t ∧ b = paramBytes p ∧ Ready
      infoCryGcmTest p s t ∧ fld b 24 4 + fld b 28 4 ≤ 262144) ∧
    (∃ (p : Packet) (s t u : State) (b : Bytes) (c : Line), u = accept p t ∧ b = paramBytes p ∧ c = pktLine p ∧ Ready
      infoKeStart p s t ∧ fld b 4 4 < 2 ^ 26 ∧ fld b 8 8 % 256 = 0 ∧ byteAt b 16 ≤ 1 ∧ rsv b 17 24 = true ∧ (getCry u
      c).secret ≠ none ∧ u.parN 0x6002 c.inst ≠ 0 ∧ getExch u c = none ∧ u.cry.floor < fld b 0 4) ∧
    (∃ (p : Packet) (s t u : State) (c : Line) (x : Exch), u = accept p t ∧ c = pktLine p ∧ Ready infoKeAbort p s t ∧
      getExch u c = some x) ∧
    (∃ (p : Packet) (s t u : State) (c : Line), u = accept p t ∧ c = pktLine p ∧ Ready infoKeSecretSet p s t ∧ getExch
      u c = none) ∧
    (∃ (p : Packet) (s t u : State) (b : Bytes), u = accept p t ∧ b = paramBytes p ∧ Ready infoPkVerify p s t ∧ byteAt
      b 0 = 4 ∧ rsv b 97 100 = true ∧ t.cry.pk.length < 16) ∧
    (∃ (p : Packet) (s t u : State) (b : Bytes), u = accept p t ∧ b = paramBytes p ∧ Ready infoPkEcdh p s t ∧ byteAt b
      16 ≤ 1 ∧ rsv b 17 24 = true ∧ (byteAt b 16 = 1 ∨ byteAt b 72 = 4) ∧ t.cry.pk.length < 16) ∧
    (∃ (p : Packet) (s t u : State) (b : Bytes), u = accept p t ∧ b = paramBytes p ∧ Ready infoKeEpochFloor p s t ∧
      u.cry.high ≤ fld b 0 4) ∧
    (∃ (p : Packet) (s t u : State) (b : Bytes), u = accept p t ∧ b = paramBytes p ∧ Ready infoKeyInstall p s t ∧
      byteAt b 0 ≤ 25 ∧ byteAt b 1 ≤ 1 ∧ rsv b 2 4 = true ∧ rsv b 12 16 = true ∧ installCheck u (pktInstall p) true ≠
      0) ∧
    (∃ (p : Packet) (s t u : State) (b : Bytes) (src : Bytes), u = accept p t ∧ b = paramBytes p ∧ Ready
      infoCryGcmTest p s t ∧ 262144 < fld b 24 4 + fld b 28 4) ∧
    (∃ (p : Packet) (s t u : State) (b : Bytes) (c : Line), u = accept p t ∧ b = paramBytes p ∧ c = pktLine p ∧ Ready
      infoKeStart p s t ∧ fld b 4 4 < 2 ^ 26 ∧ fld b 8 8 % 256 = 0 ∧ byteAt b 16 ≤ 1 ∧ rsv b 17 24 = true ∧ ((getCry u
      c).secret = none ∨ u.parN 0x6002 c.inst = 0)) ∧
    (∃ (p : Packet) (s t u : State) (b : Bytes) (c : Line), u = accept p t ∧ b = paramBytes p ∧ c = pktLine p ∧ Ready
      infoKeStart p s t ∧ fld b 4 4 < 2 ^ 26 ∧ fld b 8 8 % 256 = 0 ∧ byteAt b 16 ≤ 1 ∧ rsv b 17 24 = true ∧ (getCry u
      c).secret ≠ none ∧ u.parN 0x6002 c.inst ≠ 0 ∧ getExch u c ≠ none) ∧
    (∃ (p : Packet) (s t u : State) (b : Bytes) (c : Line), u = accept p t ∧ b = paramBytes p ∧ c = pktLine p ∧ Ready
      infoKeStart p s t ∧ fld b 4 4 < 2 ^ 26 ∧ fld b 8 8 % 256 = 0 ∧ byteAt b 16 ≤ 1 ∧ rsv b 17 24 = true ∧ (getCry u
      c).secret ≠ none ∧ u.parN 0x6002 c.inst ≠ 0 ∧ getExch u c = none ∧ fld b 0 4 ≤ u.cry.floor) ∧
    (∃ (p : Packet) (s t u : State) (c : Line), u = accept p t ∧ c = pktLine p ∧ Ready infoKeAbort p s t ∧ getExch u c
      = none) ∧
    (∃ (p : Packet) (s t u : State) (c : Line), u = accept p t ∧ c = pktLine p ∧ Ready infoKeSecretSet p s t ∧ getExch
      u c ≠ none) ∧
    (∃ (p : Packet) (s t u : State) (b : Bytes), u = accept p t ∧ b = paramBytes p ∧ Ready infoPkVerify p s t ∧ byteAt
      b 0 = 4 ∧ rsv b 97 100 = true ∧ 16 ≤ t.cry.pk.length) ∧
    (∃ (p : Packet) (s t u : State) (b : Bytes), u = accept p t ∧ b = paramBytes p ∧ Ready infoPkEcdh p s t ∧ byteAt b
      16 ≤ 1 ∧ rsv b 17 24 = true ∧ (byteAt b 16 = 1 ∨ byteAt b 72 = 4) ∧ 16 ≤ t.cry.pk.length) ∧
    (∃ (p : Packet) (s t u : State) (b : Bytes), u = accept p t ∧ b = paramBytes p ∧ Ready infoKeEpochFloor p s t ∧
      fld b 0 4 < u.cry.high) :=
  ⟨⟨pk infoKeyInstall.op 1 (zeros 4 ++ le 4 5 ++ le 4 0 ++ zeros 4 ++ zeros 32), withKeys, taken infoKeyInstall.op
      (pk infoKeyInstall.op 1 (zeros 4 ++ le 4 5 ++ le 4 0 ++ zeros 4 ++ zeros 32)) (withKeys), _, _, rfl, rfl,
      ready_of (by decide +kernel), by decide +kernel⟩,
    ⟨pk infoCryGcmTest.op 0 (zeros 24 ++ le 4 0 ++ le 4 262144 ++ zeros 44), base, taken infoCryGcmTest.op (pk
      infoCryGcmTest.op 0 (zeros 24 ++ le 4 0 ++ le 4 262144 ++ zeros 44)) (base), _, _, [], rfl, rfl, ready_of
      (by decide +kernel), by decide +kernel⟩,
    ⟨pk infoKeStart.op 1 (le 4 1 ++ le 4 1 ++ le 8 512 ++ [1] ++ zeros 7), setP ({ base with
        cry := { base.cry with a := { base.cry.a with secret := some (zeros 32) } } }) 0x6002 1 [1], taken
      infoKeStart.op (pk infoKeStart.op 1 (le 4 1 ++ le 4 1 ++ le 8 512 ++ [1] ++ zeros 7)) (setP ({ base with
        cry := { base.cry with a := { base.cry.a with secret := some (zeros 32) } } }) 0x6002 1 [1]), _, _, _, rfl,
      rfl, rfl, ready_of (by decide +kernel), by decide +kernel⟩,
    ⟨pk infoKeAbort.op 1 ([]), { base with cry := { base.cry with a := { base.cry.a with exch := some exch0 } } },
      taken infoKeAbort.op (pk infoKeAbort.op 1 ([])) ({ base with
        cry := { base.cry with a := { base.cry.a with exch := some exch0 } } }), _, _, exch0, rfl, rfl, ready_of
      (by decide +kernel), by decide +kernel⟩,
    ⟨pk infoKeSecretSet.op 1 (zeros 32), base, taken infoKeSecretSet.op (pk infoKeSecretSet.op 1 (zeros 32)) (base),
      _, _, rfl, rfl, ready_of (by decide +kernel), by decide +kernel⟩,
    ⟨pk infoPkVerify.op 0 ([4] ++ zeros 243), base, taken infoPkVerify.op (pk infoPkVerify.op 0 ([4] ++ zeros 243))
      (base), _, _, rfl, rfl, ready_of (by decide +kernel), by decide +kernel⟩,
    ⟨pk infoPkEcdh.op 0 (zeros 16 ++ [1] ++ zeros 152), base, taken infoPkEcdh.op (pk infoPkEcdh.op 0 (zeros 16 ++ [1]
      ++ zeros 152)) (base), _, _, rfl, rfl, ready_of (by decide +kernel), by decide +kernel⟩,
    ⟨pk infoKeEpochFloor.op 0 (le 4 3), base, taken infoKeEpochFloor.op (pk infoKeEpochFloor.op 0 (le 4 3)) (base), _,
      _, rfl, rfl, ready_of (by decide +kernel), by decide +kernel⟩,
    ⟨pk infoKeyInstall.op 1 (zeros 48), withKeys, taken infoKeyInstall.op (pk infoKeyInstall.op 1 (zeros 48))
      (withKeys), _, _, rfl, rfl, ready_of (by decide +kernel), by decide +kernel⟩,
    ⟨pk infoCryGcmTest.op 0 (zeros 24 ++ le 4 1 ++ le 4 262144 ++ zeros 44), base, taken infoCryGcmTest.op (pk
      infoCryGcmTest.op 0 (zeros 24 ++ le 4 1 ++ le 4 262144 ++ zeros 44)) (base), _, _, [], rfl, rfl, ready_of
      (by decide +kernel), by decide +kernel⟩,
    ⟨pk infoKeStart.op 1 (le 4 1 ++ le 4 1 ++ le 8 512 ++ [1] ++ zeros 7), base, taken infoKeStart.op (pk
      infoKeStart.op 1 (le 4 1 ++ le 4 1 ++ le 8 512 ++ [1] ++ zeros 7)) (base), _, _, _, rfl, rfl, rfl, ready_of
      (by decide +kernel), by decide +kernel⟩,
    ⟨pk infoKeStart.op 1 (le 4 1 ++ le 4 1 ++ le 8 512 ++ [1] ++ zeros 7), setP ({ base with
        cry := { base.cry with a := { base.cry.a with secret := some (zeros 32), exch := some exch0 } } }) 0x6002 1
      [1], taken infoKeStart.op (pk infoKeStart.op 1 (le 4 1 ++ le 4 1 ++ le 8 512 ++ [1] ++ zeros 7)) (setP ({ base
          with cry := { base.cry with a := { base.cry.a with secret := some (zeros 32), exch := some exch0 } } })
      0x6002 1 [1]), _, _, _, rfl, rfl, rfl, ready_of (by decide +kernel), by decide +kernel⟩,
    ⟨pk infoKeStart.op 1 (le 4 0 ++ le 4 1 ++ le 8 512 ++ [1] ++ zeros 7), setP ({ base with
        cry := { base.cry with a := { base.cry.a with secret := some (zeros 32) } } }) 0x6002 1 [1], taken
      infoKeStart.op (pk infoKeStart.op 1 (le 4 0 ++ le 4 1 ++ le 8 512 ++ [1] ++ zeros 7)) (setP ({ base with
        cry := { base.cry with a := { base.cry.a with secret := some (zeros 32) } } }) 0x6002 1 [1]), _, _, _, rfl,
      rfl, rfl, ready_of (by decide +kernel), by decide +kernel⟩,
    ⟨pk infoKeAbort.op 1 ([]), base, taken infoKeAbort.op (pk infoKeAbort.op 1 ([])) (base), _, _, rfl, rfl, ready_of
      (by decide +kernel), by decide +kernel⟩,
    ⟨pk infoKeSecretSet.op 1 (zeros 32), { base with
        cry := { base.cry with a := { base.cry.a with exch := some exch0 } } }, taken infoKeSecretSet.op (pk
      infoKeSecretSet.op 1 (zeros 32)) ({ base with
        cry := { base.cry with a := { base.cry.a with exch := some exch0 } } }), _, _, rfl, rfl, ready_of
      (by decide +kernel), by decide +kernel⟩,
    ⟨pk infoPkVerify.op 0 ([4] ++ zeros 243), { base with
        cry := { base.cry with pk := List.replicate 16 { kind := .verify } } }, taken infoPkVerify.op (pk
      infoPkVerify.op 0 ([4] ++ zeros 243)) ({ base with
        cry := { base.cry with pk := List.replicate 16 { kind := .verify } } }), _, _, rfl, rfl, ready_of
      (by decide +kernel), by decide +kernel⟩,
    ⟨pk infoPkEcdh.op 0 (zeros 16 ++ [1] ++ zeros 152), { base with
        cry := { base.cry with pk := List.replicate 16 { kind := .verify } } }, taken infoPkEcdh.op (pk infoPkEcdh.op
      0 (zeros 16 ++ [1] ++ zeros 152)) ({ base with
        cry := { base.cry with pk := List.replicate 16 { kind := .verify } } }), _, _, rfl, rfl, ready_of
      (by decide +kernel), by decide +kernel⟩,
    ⟨pk infoKeEpochFloor.op 0 (le 4 3), { base with cry := { base.cry with high := 4 } }, taken infoKeEpochFloor.op
      (pk infoKeEpochFloor.op 0 (le 4 3)) ({ base with cry := { base.cry with high := 4 } }), _, _, rfl, rfl, ready_of
      (by decide +kernel), by decide +kernel⟩⟩

theorem witness_WhisperCommandsRun :
    (∃ (p : Packet) (s t u : State) (b : Bytes) (c : Line), u = accept p t ∧ b = paramBytes p ∧ c = pktLine p ∧ Ready
      infoWhSend p s t ∧ (byteAt b 0 ≤ 3 ∨ byteAt b 0 = 0xFF) ∧ rsv b 1 4 = true ∧ 2 ≤ u.parN 0xA000 c.inst ∧ (getWh t
      c).host.length < 8) ∧
    (∃ (p : Packet) (s t u : State) (c : Line), u = accept p t ∧ c = pktLine p ∧ Ready infoWhRecv p s t ∧ (getWh u
      c).queue = []) ∧
    (∃ (p : Packet) (s t u : State) (b : Bytes) (c : Line) (m : WMsg) (rest : List WMsg), u = accept p t ∧ b =
      paramBytes p ∧ c = pktLine p ∧ Ready infoWhRecv p s t ∧ (getWh u c).queue = m :: rest ∧ (whRecord m).length ≤
      fld b 8 4) ∧
    (∃ (p : Packet) (s t u : State) (b : Bytes), u = accept p t ∧ b = paramBytes p ∧ Ready infoWhConfig p s t ∧ byteAt
      b 0 ≤ 3 ∧ 10 ≤ byteAt b 1 ∧ byteAt b 1 ≤ 40) ∧
    (∃ (p : Packet) (s t u : State) (b : Bytes), u = accept p t ∧ b = paramBytes p ∧ Ready infoWhBankSwap p s t ∧
      byteAt b 0 ≤ 3 ∧ byteAt b 1 ≤ 1 ∧ (getChain u (byteAt b 0)).swap = none ∧ coefFrozen u (byteAt b 0) = false) ∧
    (∃ (p : Packet) (s t u : State) (b : Bytes), u = accept p t ∧ b = paramBytes p ∧ Ready infoWhCapture p s t ∧
      byteAt b 16 ≤ 3 ∧ byteAt b 17 ≤ 2 ∧ (byteAt b 17 = 0 ∨ byteAt b 16 < 2) ∧ rsv b 18 20 = true ∧ 1 ≤ fld b 20 4 ∧
      fld b 20 4 ≤ 16384) ∧
    (∃ (p : Packet) (s t u : State) (b : Bytes) (c : Line), u = accept p t ∧ b = paramBytes p ∧ c = pktLine p ∧ Ready
      infoWhSend p s t ∧ (byteAt b 0 ≤ 3 ∨ byteAt b 0 = 0xFF) ∧ rsv b 1 4 = true ∧ (getWh t c).host.length < 8 ∧
      u.parN 0xA000 c.inst < 2) ∧
    (∃ (p : Packet) (s t u : State) (b : Bytes) (c : Line), u = accept p t ∧ b = paramBytes p ∧ c = pktLine p ∧ Ready
      infoWhSend p s t ∧ (byteAt b 0 ≤ 3 ∨ byteAt b 0 = 0xFF) ∧ rsv b 1 4 = true ∧ 8 ≤ (getWh t c).host.length) ∧
    (∃ (p : Packet) (s t u : State) (b : Bytes) (c : Line) (m : WMsg) (rest : List WMsg), u = accept p t ∧ b =
      paramBytes p ∧ c = pktLine p ∧ Ready infoWhRecv p s t ∧ (getWh u c).queue = m :: rest ∧ fld b 8 4 < (whRecord
      m).length) ∧
    (∃ (p : Packet) (s t u : State) (b : Bytes), u = accept p t ∧ b = paramBytes p ∧ Ready infoWhBankSwap p s t ∧
      byteAt b 0 ≤ 3 ∧ byteAt b 1 ≤ 1 ∧ ((getChain u (byteAt b 0)).swap ≠ none ∨ coefFrozen u (byteAt b 0) = true)) :=
  ⟨⟨pk infoWhSend.op 1 ([3, 0, 0, 0]), setP base 0xA000 1 [2], taken infoWhSend.op (pk infoWhSend.op 1 ([3, 0, 0,
      0])) (setP base 0xA000 1 [2]), _, _, _, rfl, rfl, rfl, ready_of (by decide +kernel), by decide +kernel⟩,
    ⟨pk infoWhRecv.op 1 (zeros 16), base, taken infoWhRecv.op (pk infoWhRecv.op 1 (zeros 16)) (base), _, _, rfl, rfl,
      ready_of (by decide +kernel), by decide +kernel⟩,
    ⟨pk infoWhRecv.op 1 (zeros 8 ++ le 4 1000 ++ zeros 4), withWh, taken infoWhRecv.op (pk infoWhRecv.op 1 (zeros 8 ++
      le 4 1000 ++ zeros 4)) (withWh), _, _, _, wmsg0, [], rfl, rfl, rfl, ready_of (by decide +kernel),
      by decide +kernel⟩,
    ⟨pk infoWhConfig.op 3 ([3, 40]), base, taken infoWhConfig.op (pk infoWhConfig.op 3 ([3, 40])) (base), _, _, rfl,
      rfl, ready_of (by decide +kernel), by decide +kernel⟩,
    ⟨pk infoWhBankSwap.op 0 ([3, 1]), base, taken infoWhBankSwap.op (pk infoWhBankSwap.op 0 ([3, 1])) (base), _, _,
      rfl, rfl, ready_of (by decide +kernel), by decide +kernel⟩,
    ⟨pk infoWhCapture.op 0 (zeros 16 ++ [3, 0, 0, 0] ++ le 4 16384), base, taken infoWhCapture.op (pk infoWhCapture.op
      0 (zeros 16 ++ [3, 0, 0, 0] ++ le 4 16384)) (base), _, _, rfl, rfl, ready_of (by decide +kernel),
      by decide +kernel⟩,
    ⟨pk infoWhSend.op 1 ([3, 0, 0, 0]), setP base 0xA000 1 [1], taken infoWhSend.op (pk infoWhSend.op 1 ([3, 0, 0,
      0])) (setP base 0xA000 1 [1]), _, _, _, rfl, rfl, rfl, ready_of (by decide +kernel), by decide +kernel⟩,
    ⟨pk infoWhSend.op 1 ([3, 0, 0, 0]), updWh .a (fun x => { x with
        host := List.replicate 8 { chan := 0, seq := 0, mode := none, payload := [], at_ := 0 } }) (setP base 0xA000 1
      [2]), taken infoWhSend.op (pk infoWhSend.op 1 ([3, 0, 0, 0])) (updWh .a (fun x => { x with
        host := List.replicate 8 { chan := 0, seq := 0, mode := none, payload := [], at_ := 0 } }) (setP base 0xA000 1
      [2])), _, _, _, rfl, rfl, rfl, ready_of (by decide +kernel), by decide +kernel⟩,
    ⟨pk infoWhRecv.op 1 (zeros 16), withWh, taken infoWhRecv.op (pk infoWhRecv.op 1 (zeros 16)) (withWh), _, _, _,
      wmsg0, [], rfl, rfl, rfl, ready_of (by decide +kernel), by decide +kernel⟩,
    ⟨pk infoWhBankSwap.op 0 ([3, 1]), updChain 3 (fun x => { x with swap := some true }) base, taken infoWhBankSwap.op
      (pk infoWhBankSwap.op 0 ([3, 1])) (updChain 3 (fun x => { x with swap := some true }) base), _, _, rfl, rfl,
      ready_of (by decide +kernel), by decide +kernel⟩⟩

theorem witness_DomainCommandsRun :
    (∃ (p : Packet) (s t u : State) (b : Bytes), u = accept p t ∧ b = paramBytes p ∧ Ready infoDmJoin p s t ∧ fld b 0
      4 ≠ 0 ∧ fld b 4 2 ≤ 16383 ∧ rsv b 6 8 = true ∧ byteAt b 8 = 4 ∧ rsv b 105 108 = true ∧ u.dm.member = false ∧
      (u.dm.joinedOnce = true → u.dm.domain = fld b 0 4 ∧ u.dm.key = slice b 8 97) ∧ pubCheck (unbe (slice b 9 48))
      (unbe (slice b 57 48)) = 0) ∧
    (∃ (p : Packet) (s t u : State), u = accept p t ∧ Ready infoDmLeave p s t ∧ u.dm.member = true) ∧
    (∃ (p : Packet) (s t u : State) (b : Bytes), u = accept p t ∧ b = paramBytes p ∧ Ready infoDmPublish p s t ∧
      u.dm.member = true ∧ docCheck u b = 0 ∧ u.cfgVersion < fld b 4 4 ∧ u.dm.adopt = none) ∧
    (∃ (p : Packet) (s t u : State) (b : Bytes), u = accept p t ∧ b = paramBytes p ∧ Ready infoDmSend p s t ∧ rsv b 2
      4 = true ∧ u.dm.member = true) ∧
    (∃ (p : Packet) (s t u : State), u = accept p t ∧ Ready infoDmRecv p s t ∧ u.dm.member = true ∧ u.dm.queue = []) ∧
    (∃ (p : Packet) (s t u : State) (b : Bytes) (d : DmEnt) (ds : List DmEnt), u = accept p t ∧ b = paramBytes p ∧
      Ready infoDmRecv p s t ∧ u.dm.member = true ∧ u.dm.queue = d :: ds ∧ 24 + d.body.length ≤ fld b 8 4) ∧
    (∃ (p : Packet) (s t u : State), u = accept p t ∧ Ready infoDmCall p s t ∧ u.dm.member = true) ∧
    (∃ (p : Packet) (s t u : State), u = accept p t ∧ Ready infoMateSwitch p s t ∧ u.parN 0xB010 0 = 1 ∧ u.mate.link =
      true ∧ u.mate.switch = none ∧ u.mate.active ≠ bit u.mate.peerFlags 0) ∧
    (∃ (p : Packet) (s t u : State) (b : Bytes), u = accept p t ∧ b = paramBytes p ∧ Ready infoDmJoin p s t ∧ fld b 0
      4 ≠ 0 ∧ fld b 4 2 ≤ 16383 ∧ rsv b 6 8 = true ∧ byteAt b 8 = 4 ∧ rsv b 105 108 = true ∧ u.dm.member = true) ∧
    (∃ (p : Packet) (s t u : State) (b : Bytes), u = accept p t ∧ b = paramBytes p ∧ Ready infoDmJoin p s t ∧ fld b 0
      4 ≠ 0 ∧ fld b 4 2 ≤ 16383 ∧ rsv b 6 8 = true ∧ byteAt b 8 = 4 ∧ rsv b 105 108 = true ∧ u.dm.member = false ∧
      u.dm.joinedOnce = true ∧ (u.dm.domain ≠ fld b 0 4 ∨ u.dm.key ≠ slice b 8 97)) ∧
    (∃ (p : Packet) (s t u : State) (b : Bytes), u = accept p t ∧ b = paramBytes p ∧ Ready infoDmJoin p s t ∧ fld b 0
      4 ≠ 0 ∧ fld b 4 2 ≤ 16383 ∧ rsv b 6 8 = true ∧ byteAt b 8 = 4 ∧ rsv b 105 108 = true ∧ u.dm.member = false ∧
      (u.dm.joinedOnce = true → u.dm.domain = fld b 0 4 ∧ u.dm.key = slice b 8 97) ∧ pubCheck (unbe (slice b 9 48))
      (unbe (slice b 57 48)) ≠ 0) ∧
    (∃ (p : Packet) (s t u : State), u = accept p t ∧ Ready infoDmLeave p s t ∧ u.dm.member = false) ∧
    (∃ (p : Packet) (s t u : State), u = accept p t ∧ Ready infoDmPublish p s t ∧ u.dm.member = false) ∧
    (∃ (p : Packet) (s t u : State), u = accept p t ∧ Ready infoDmRecv p s t ∧ u.dm.member = false) ∧
    (∃ (p : Packet) (s t u : State), u = accept p t ∧ Ready infoDmCfgRead p s t ∧ u.dm.member = false) ∧
    (∃ (p : Packet) (s t u : State), u = accept p t ∧ Ready infoDmCall p s t ∧ u.dm.member = false) ∧
    (∃ (p : Packet) (s t u : State) (b : Bytes), u = accept p t ∧ b = paramBytes p ∧ Ready infoDmSend p s t ∧ rsv b 2
      4 = true ∧ u.dm.member = false) ∧
    (∃ (p : Packet) (s t u : State), u = accept p t ∧ Ready infoDmCfgRead p s t ∧ u.dm.member = true ∧ u.dm.doc = []) ∧
    (∃ (p : Packet) (s t u : State) (b : Bytes), u = accept p t ∧ b = paramBytes p ∧ Ready infoDmPublish p s t ∧
      u.dm.member = true ∧ docCheck u b ≠ 0) ∧
    (∃ (p : Packet) (s t u : State) (b : Bytes), u = accept p t ∧ b = paramBytes p ∧ Ready infoDmPublish p s t ∧
      u.dm.member = true ∧ docCheck u b = 0 ∧ fld b 4 4 ≤ u.cfgVersion) ∧
    (∃ (p : Packet) (s t u : State) (b : Bytes), u = accept p t ∧ b = paramBytes p ∧ Ready infoDmPublish p s t ∧
      u.dm.member = true ∧ docCheck u b = 0 ∧ u.cfgVersion < fld b 4 4 ∧ u.dm.adopt ≠ none) ∧
    (∃ (p : Packet) (s t u : State) (b : Bytes) (d : DmEnt) (ds : List DmEnt), u = accept p t ∧ b = paramBytes p ∧
      Ready infoDmRecv p s t ∧ u.dm.member = true ∧ u.dm.queue = d :: ds ∧ fld b 8 4 < 24 + d.body.length) ∧
    (∃ (p : Packet) (s t u : State), u = accept p t ∧ Ready infoMateSwitch p s t ∧ u.parN 0xB010 0 ≠ 1) ∧
    (∃ (p : Packet) (s t u : State), u = accept p t ∧ Ready infoMateSwitch p s t ∧ u.parN 0xB010 0 = 1 ∧ u.mate.link =
      false) ∧
    (∃ (p : Packet) (s t u : State), u = accept p t ∧ Ready infoMateSwitch p s t ∧ u.parN 0xB010 0 = 1 ∧ u.mate.link =
      true ∧ u.mate.switch ≠ none) ∧
    (∃ (p : Packet) (s t u : State), u = accept p t ∧ Ready infoMateSwitch p s t ∧ u.parN 0xB010 0 = 1 ∧ u.mate.link =
      true ∧ u.mate.switch = none ∧ u.mate.active = bit u.mate.peerFlags 0) :=
  ⟨⟨pk infoDmJoin.op 0 (joinBytes), base, taken infoDmJoin.op (pk infoDmJoin.op 0 (joinBytes)) (base), _, _, rfl,
      rfl, ready_of (by decide +kernel), by decide +kernel⟩,
    ⟨pk infoDmLeave.op 0 ([]), { base with dm := { base.dm with member := true } }, taken infoDmLeave.op (pk
      infoDmLeave.op 0 ([])) ({ base with dm := { base.dm with member := true } }), _, rfl, ready_of
      (by decide +kernel), by decide +kernel⟩,
    ⟨pk infoDmPublish.op 0 (pubBytes), withDomain, taken infoDmPublish.op (pk infoDmPublish.op 0 (pubBytes))
      (withDomain), _, _, rfl, rfl, ready_of (by decide +kernel), by decide +kernel⟩,
    ⟨pk infoDmSend.op 0 (zeros 4 ++ [1]), { base with dm := { base.dm with member := true } }, taken infoDmSend.op (pk
      infoDmSend.op 0 (zeros 4 ++ [1])) ({ base with dm := { base.dm with member := true } }), _, _, rfl, rfl,
      ready_of (by decide +kernel), by decide +kernel⟩,
    ⟨pk infoDmRecv.op 0 (zeros 16), { base with dm := { base.dm with member := true } }, taken infoDmRecv.op (pk
      infoDmRecv.op 0 (zeros 16)) ({ base with dm := { base.dm with member := true } }), _, rfl, ready_of
      (by decide +kernel), by decide +kernel⟩,
    ⟨pk infoDmRecv.op 0 (zeros 8 ++ le 4 1000 ++ zeros 4), { base with
        dm := { base.dm with member := true, queue := [dment0] } }, taken infoDmRecv.op (pk infoDmRecv.op 0 (zeros 8
      ++ le 4 1000 ++ zeros 4)) ({ base with dm := { base.dm with member := true, queue := [dment0] } }), _, _,
      dment0, [], rfl, rfl, ready_of (by decide +kernel), by decide +kernel⟩,
    ⟨pk infoDmCall.op 0 (zeros 16), { base with dm := { base.dm with member := true } }, taken infoDmCall.op (pk
      infoDmCall.op 0 (zeros 16)) ({ base with dm := { base.dm with member := true } }), _, rfl, ready_of
      (by decide +kernel), by decide +kernel⟩,
    ⟨pk infoMateSwitch.op 0 ([]), withMate, taken infoMateSwitch.op (pk infoMateSwitch.op 0 ([])) (withMate), _, rfl,
      ready_of (by decide +kernel), by decide +kernel⟩,
    ⟨pk infoDmJoin.op 0 (joinBytes), { base with dm := { base.dm with member := true } }, taken infoDmJoin.op (pk
      infoDmJoin.op 0 (joinBytes)) ({ base with dm := { base.dm with member := true } }), _, _, rfl, rfl, ready_of
      (by decide +kernel), by decide +kernel⟩,
    ⟨pk infoDmJoin.op 0 (joinBytes), { base with dm := { base.dm with joinedOnce := true, domain := 77 } }, taken
      infoDmJoin.op (pk infoDmJoin.op 0 (joinBytes)) ({ base with
        dm := { base.dm with joinedOnce := true, domain := 77 } }), _, _, rfl, rfl, ready_of (by decide +kernel),
      by decide +kernel⟩,
    ⟨pk infoDmJoin.op 0 (le 4 1 ++ le 2 16383 ++ zeros 2 ++ [4] ++ zeros 99), base, taken infoDmJoin.op (pk
      infoDmJoin.op 0 (le 4 1 ++ le 2 16383 ++ zeros 2 ++ [4] ++ zeros 99)) (base), _, _, rfl, rfl, ready_of
      (by decide +kernel), by decide +kernel⟩,
    ⟨pk infoDmLeave.op 0 ([]), base, taken infoDmLeave.op (pk infoDmLeave.op 0 ([])) (base), _, rfl, ready_of
      (by decide +kernel), by decide +kernel⟩,
    ⟨pk infoDmPublish.op 0 (pubBytes), base, taken infoDmPublish.op (pk infoDmPublish.op 0 (pubBytes)) (base), _, rfl,
      ready_of (by decide +kernel), by decide +kernel⟩,
    ⟨pk infoDmRecv.op 0 (zeros 16), base, taken infoDmRecv.op (pk infoDmRecv.op 0 (zeros 16)) (base), _, rfl, ready_of
      (by decide +kernel), by decide +kernel⟩,
    ⟨pk infoDmCfgRead.op 0 (zeros 16), base, taken infoDmCfgRead.op (pk infoDmCfgRead.op 0 (zeros 16)) (base), _, rfl,
      ready_of (by decide +kernel), by decide +kernel⟩,
    ⟨pk infoDmCall.op 0 (zeros 16), base, taken infoDmCall.op (pk infoDmCall.op 0 (zeros 16)) (base), _, rfl, ready_of
      (by decide +kernel), by decide +kernel⟩,
    ⟨pk infoDmSend.op 0 (zeros 4 ++ [1]), base, taken infoDmSend.op (pk infoDmSend.op 0 (zeros 4 ++ [1])) (base), _,
      _, rfl, rfl, ready_of (by decide +kernel), by decide +kernel⟩,
    ⟨pk infoDmCfgRead.op 0 (zeros 16), { base with dm := { base.dm with member := true } }, taken infoDmCfgRead.op (pk
      infoDmCfgRead.op 0 (zeros 16)) ({ base with dm := { base.dm with member := true } }), _, rfl, ready_of
      (by decide +kernel), by decide +kernel⟩,
    ⟨pk infoDmPublish.op 0 (zeros 112), { base with dm := { base.dm with member := true } }, taken infoDmPublish.op
      (pk infoDmPublish.op 0 (zeros 112)) ({ base with dm := { base.dm with member := true } }), _, _, rfl, rfl,
      ready_of (by decide +kernel), by decide +kernel⟩,
    ⟨pk infoDmPublish.op 0 (pubBytes), { withDomain with cfgVersion := 2 ^ 32 - 1 }, taken infoDmPublish.op (pk
      infoDmPublish.op 0 (pubBytes)) ({ withDomain with cfgVersion := 2 ^ 32 - 1 }), _, _, rfl, rfl, ready_of
      (by decide +kernel), by decide +kernel⟩,
    ⟨pk infoDmPublish.op 0 (pubBytes), { withDomain with
        dm := { withDomain.dm with adopt := some { version := 1, doc := [], owner := none, due := none } } }, taken
      infoDmPublish.op (pk infoDmPublish.op 0 (pubBytes)) ({ withDomain with
        dm := { withDomain.dm with adopt := some { version := 1, doc := [], owner := none, due := none } } }), _, _,
      rfl, rfl, ready_of (by decide +kernel), by decide +kernel⟩,
    ⟨pk infoDmRecv.op 0 (zeros 8 ++ le 4 24 ++ zeros 4), { base with
        dm := { base.dm with member := true, queue := [dment0] } }, taken infoDmRecv.op (pk infoDmRecv.op 0 (zeros 8
      ++ le 4 24 ++ zeros 4)) ({ base with dm := { base.dm with member := true, queue := [dment0] } }), _, _, dment0,
      [], rfl, rfl, ready_of (by decide +kernel), by decide +kernel⟩,
    ⟨pk infoMateSwitch.op 0 ([]), base, taken infoMateSwitch.op (pk infoMateSwitch.op 0 ([])) (base), _, rfl, ready_of
      (by decide +kernel), by decide +kernel⟩,
    ⟨pk infoMateSwitch.op 0 ([]), { withMate with mate := { withMate.mate with link := false } }, taken
      infoMateSwitch.op (pk infoMateSwitch.op 0 ([])) ({ withMate with
        mate := { withMate.mate with link := false } }), _, rfl, ready_of (by decide +kernel), by decide +kernel⟩,
    ⟨pk infoMateSwitch.op 0 ([]), { withMate with
        mate := { withMate.mate with switch := some { mine := true, owner := none, t := 8 } } }, taken
      infoMateSwitch.op (pk infoMateSwitch.op 0 ([])) ({ withMate with
        mate := { withMate.mate with switch := some { mine := true, owner := none, t := 8 } } }), _, rfl, ready_of
      (by decide +kernel), by decide +kernel⟩,
    ⟨pk infoMateSwitch.op 0 ([]), { withMate with mate := { withMate.mate with active := false } }, taken
      infoMateSwitch.op (pk infoMateSwitch.op 0 ([])) ({ withMate with
        mate := { withMate.mate with active := false } }), _, rfl, ready_of (by decide +kernel), by decide +kernel⟩⟩

theorem witness_CalibrationCommandsRun :
    (∃ (p : Packet) (s t u : State) (b : Bytes), u = accept p t ∧ b = paramBytes p ∧ Ready infoCalRun p s t ∧ fld b 0
      2 ≠ 0 ∧ byteAt b 2 ≤ 1 ∧ (∀ v, v < 16 → (fld b 0 2).testBit v = true → calReady u v = true ∧ runOf u v = false)) ∧
    (∃ (p : Packet) (s t u : State), u = accept p t ∧ Ready infoCalStore p s t) ∧
    (∃ (p : Packet) (s t u : State) (b : Bytes) (c : Line), u = accept p t ∧ b = paramBytes p ∧ c = pktLine p ∧ Ready
      infoCalTest p s t ∧ byteAt b 0 = 1 ∧ (calSt u c = .service ∨ calSt u c = .recovery)) ∧
    (∃ (p : Packet) (s t u : State) (b : Bytes) (c : Line), u = accept p t ∧ b = paramBytes p ∧ c = pktLine p ∧ Ready
      infoCalTest p s t ∧ byteAt b 0 = 0 ∧ calSt u c = .test) ∧
    (∃ (p : Packet) (s t u : State) (b : Bytes), u = accept p t ∧ b = paramBytes p ∧ Ready infoCalTrimSet p s t ∧
      byteAt b 0 ≤ 15 ∧ byteAt b 1 ≤ 67 ∧ (∀ i, i < 4 → (sx 16 (fld b (2 + 2 * i) 2)).natAbs ≤ 511) ∧ calSt u
      (convLine (byteAt b 0)) = .test) ∧
    (∃ (p : Packet) (s t u : State) (b : Bytes), u = accept p t ∧ b = paramBytes p ∧ Ready infoCalSpareSet p s t ∧
      byteAt b 0 ≤ 15 ∧ byteAt b 1 ≤ 63 ∧ calSt u (convLine (byteAt b 0)) = .test ∧ runOf u (byteAt b 0) = false ∧
      (getConv u (byteAt b 0)).spares ≠ []) ∧
    (∃ (p : Packet) (s t u : State) (b : Bytes), u = accept p t ∧ b = paramBytes p ∧ Ready infoCalRun p s t ∧ fld b 0
      2 ≠ 0 ∧ byteAt b 2 ≤ 1 ∧ (bitsSet 16 (fld b 0 2)).all (calReady u) = false) ∧
    (∃ (p : Packet) (s t u : State) (b : Bytes), u = accept p t ∧ b = paramBytes p ∧ Ready infoCalRun p s t ∧ fld b 0
      2 ≠ 0 ∧ byteAt b 2 ≤ 1 ∧ (bitsSet 16 (fld b 0 2)).all (calReady u) = true ∧ (bitsSet 16 (fld b 0 2)).any (runOf
      u) = true) ∧
    (∃ (p : Packet) (s t u : State) (b : Bytes) (c : Line), u = accept p t ∧ b = paramBytes p ∧ c = pktLine p ∧ Ready
      infoCalTest p s t ∧ byteAt b 0 = 1 ∧ calSt u c ≠ .service ∧ calSt u c ≠ .recovery) ∧
    (∃ (p : Packet) (s t u : State) (b : Bytes) (c : Line), u = accept p t ∧ b = paramBytes p ∧ c = pktLine p ∧ Ready
      infoCalTest p s t ∧ byteAt b 0 = 0 ∧ calSt u c ≠ .test) ∧
    (∃ (p : Packet) (s t u : State) (b : Bytes), u = accept p t ∧ b = paramBytes p ∧ Ready infoCalTrimSet p s t ∧
      byteAt b 0 ≤ 15 ∧ byteAt b 1 ≤ 67 ∧ (∀ i, i < 4 → (sx 16 (fld b (2 + 2 * i) 2)).natAbs ≤ 511) ∧ calSt u
      (convLine (byteAt b 0)) ≠ .test) ∧
    (∃ (p : Packet) (s t u : State) (b : Bytes), u = accept p t ∧ b = paramBytes p ∧ Ready infoCalSpareSet p s t ∧
      byteAt b 0 ≤ 15 ∧ byteAt b 1 ≤ 63 ∧ calSt u (convLine (byteAt b 0)) ≠ .test) ∧
    (∃ (p : Packet) (s t u : State) (b : Bytes), u = accept p t ∧ b = paramBytes p ∧ Ready infoCalSpareSet p s t ∧
      byteAt b 0 ≤ 15 ∧ byteAt b 1 ≤ 63 ∧ calSt u (convLine (byteAt b 0)) = .test ∧ runOf u (byteAt b 0) = true) ∧
    (∃ (p : Packet) (s t u : State) (b : Bytes), u = accept p t ∧ b = paramBytes p ∧ Ready infoCalSpareSet p s t ∧
      byteAt b 0 ≤ 15 ∧ byteAt b 1 ≤ 63 ∧ calSt u (convLine (byteAt b 0)) = .test ∧ runOf u (byteAt b 0) = false ∧
      (getConv u (byteAt b 0)).spares = []) :=
  ⟨⟨pk infoCalRun.op 0 ([1, 0, 0]), withCal .service, taken infoCalRun.op (pk infoCalRun.op 0 ([1, 0, 0])) (withCal
      .service), _, _, rfl, rfl, ready_of (by decide +kernel), by decide +kernel⟩,
    ⟨pk infoCalStore.op 0 ([]), base, taken infoCalStore.op (pk infoCalStore.op 0 ([])) (base), _, rfl, ready_of
      (by decide +kernel)⟩,
    ⟨pk infoCalTest.op 1 ([1]), withCal .service, taken infoCalTest.op (pk infoCalTest.op 1 ([1])) (withCal .service),
      _, _, _, rfl, rfl, rfl, ready_of (by decide +kernel), by decide +kernel⟩,
    ⟨pk infoCalTest.op 1 ([0]), withCal .test, taken infoCalTest.op (pk infoCalTest.op 1 ([0])) (withCal .test), _, _,
      _, rfl, rfl, rfl, ready_of (by decide +kernel), by decide +kernel⟩,
    ⟨pk infoCalTrimSet.op 0 ([0, 67] ++ le 2 511 ++ le 2 0 ++ le 2 0 ++ le 2 0), withCal .test, taken
      infoCalTrimSet.op (pk infoCalTrimSet.op 0 ([0, 67] ++ le 2 511 ++ le 2 0 ++ le 2 0 ++ le 2 0)) (withCal .test),
      _, _, rfl, rfl, ready_of (by decide +kernel), by decide +kernel⟩,
    ⟨pk infoCalSpareSet.op 0 ([0, 63]), withCal .test, taken infoCalSpareSet.op (pk infoCalSpareSet.op 0 ([0, 63]))
      (withCal .test), _, _, rfl, rfl, ready_of (by decide +kernel), by decide +kernel⟩,
    ⟨pk infoCalRun.op 0 ([1, 0, 0]), base, taken infoCalRun.op (pk infoCalRun.op 0 ([1, 0, 0])) (base), _, _, rfl,
      rfl, ready_of (by decide +kernel), by decide +kernel⟩,
    ⟨pk infoCalRun.op 0 ([1, 0, 0]), { withCal .service with
        cal := { (withCal .service).cal with runs := [{ mask := 1, meas := 1, start := 0 }] } }, taken infoCalRun.op
      (pk infoCalRun.op 0 ([1, 0, 0])) ({ withCal .service with
        cal := { (withCal .service).cal with runs := [{ mask := 1, meas := 1, start := 0 }] } }), _, _, rfl, rfl,
      ready_of (by decide +kernel), by decide +kernel⟩,
    ⟨pk infoCalTest.op 1 ([1]), withCal .test, taken infoCalTest.op (pk infoCalTest.op 1 ([1])) (withCal .test), _, _,
      _, rfl, rfl, rfl, ready_of (by decide +kernel), by decide +kernel⟩,
    ⟨pk infoCalTest.op 1 ([0]), withCal .service, taken infoCalTest.op (pk infoCalTest.op 1 ([0])) (withCal .service),
      _, _, _, rfl, rfl, rfl, ready_of (by decide +kernel), by decide +kernel⟩,
    ⟨pk infoCalTrimSet.op 0 ([0, 67] ++ zeros 8), withCal .service, taken infoCalTrimSet.op (pk infoCalTrimSet.op 0
      ([0, 67] ++ zeros 8)) (withCal .service), _, _, rfl, rfl, ready_of (by decide +kernel), by decide +kernel⟩,
    ⟨pk infoCalSpareSet.op 0 ([0, 63]), withCal .service, taken infoCalSpareSet.op (pk infoCalSpareSet.op 0 ([0, 63]))
      (withCal .service), _, _, rfl, rfl, ready_of (by decide +kernel), by decide +kernel⟩,
    ⟨pk infoCalSpareSet.op 0 ([0, 63]), { withCal .test with
        cal := { (withCal .test).cal with runs := [{ mask := 1, meas := 1, start := 0 }] } }, taken infoCalSpareSet.op
      (pk infoCalSpareSet.op 0 ([0, 63])) ({ withCal .test with
        cal := { (withCal .test).cal with runs := [{ mask := 1, meas := 1, start := 0 }] } }), _, _, rfl, rfl,
      ready_of (by decide +kernel), by decide +kernel⟩,
    ⟨pk infoCalSpareSet.op 0 ([0, 63]), updConv 0 (fun x => { x with out := 2 ^ 68 - 1 }) (withCal .test), taken
      infoCalSpareSet.op (pk infoCalSpareSet.op 0 ([0, 63])) (updConv 0 (fun x => { x with out := 2 ^ 68 - 1 })
      (withCal .test)), _, _, rfl, rfl, ready_of (by decide +kernel), by decide +kernel⟩⟩

theorem witness_PowerCommandsRun :
    (∃ (p : Packet) (s t u : State) (b : Bytes), u = accept p t ∧ b = paramBytes p ∧ Ready infoPwrSet p s t ∧ 1 ≤
      byteAt b 0 ∧ byteAt b 0 ≤ 4 ∧ (byteAt b 0 = 3 → byteAt b 1 = 1 ∨ byteAt b 1 = 2) ∧ byteAt b 2 < 2 ∧ u.pwr.move =
      none ∧ movePermitted u (byteAt b 0) (if byteAt b 0 = 3 then byteAt b 1 else if byteAt b 0 = 4 then 3 else 0) =
      true ∧ (byteAt b 0 = 1 → parkBlocked u = false) ∧ (3 ≤ byteAt b 0 → u.pwr.tj < 1150)) ∧
    (∃ (p : Packet) (s t u : State) (b : Bytes), u = accept p t ∧ b = paramBytes p ∧ Ready infoPwrGate p s t ∧ byteAt
      b 0 ≤ 1 ∧ byteAt b 1 = 0 ∧ u.pwr.move = none ∧ gateRefused u (gateAsked p u) = none) ∧
    (∃ (p : Packet) (s t u : State) (b : Bytes), u = accept p t ∧ b = paramBytes p ∧ Ready infoPinRearm p s t ∧ fld b
      0 4 < 2 ^ 19) ∧
    (∃ (p : Packet) (s t u : State) (b : Bytes), u = accept p t ∧ b = paramBytes p ∧ Ready infoPmbusXfer p s t ∧
      byteAt b 0 ≤ 127 ∧ byteAt b 2 ≤ 5 ∧ byteAt b 3 ≤ 32 ∧ ((railMap u).any (fun e => e.2.1 == byteAt b 0 && e.2.2 !=
      8)) = false) ∧
    (∃ (p : Packet) (s t u : State) (b : Bytes), u = accept p t ∧ b = paramBytes p ∧ Ready infoPwrSet p s t ∧ 1 ≤
      byteAt b 0 ∧ byteAt b 0 ≤ 4 ∧ (byteAt b 0 = 3 → byteAt b 1 = 1 ∨ byteAt b 1 = 2) ∧ byteAt b 2 < 2 ∧ u.pwr.move ≠
      none) ∧
    (∃ (p : Packet) (s t u : State) (b : Bytes), u = accept p t ∧ b = paramBytes p ∧ Ready infoPwrSet p s t ∧ 1 ≤
      byteAt b 0 ∧ byteAt b 0 ≤ 4 ∧ (byteAt b 0 = 3 → byteAt b 1 = 1 ∨ byteAt b 1 = 2) ∧ byteAt b 2 < 2 ∧ u.pwr.move =
      none ∧ (movePermitted u (byteAt b 0) (if byteAt b 0 = 3 then byteAt b 1 else if byteAt b 0 = 4 then 3 else 0) =
      false ∨ byteAt b 0 = 1 ∧ parkBlocked u = true)) ∧
    (∃ (p : Packet) (s t u : State) (b : Bytes), u = accept p t ∧ b = paramBytes p ∧ Ready infoPwrSet p s t ∧ 1 ≤
      byteAt b 0 ∧ byteAt b 0 ≤ 4 ∧ (byteAt b 0 = 3 → byteAt b 1 = 1 ∨ byteAt b 1 = 2) ∧ byteAt b 2 < 2 ∧ u.pwr.move =
      none ∧ movePermitted u (byteAt b 0) (if byteAt b 0 = 3 then byteAt b 1 else if byteAt b 0 = 4 then 3 else 0) =
      true ∧ 3 ≤ byteAt b 0 ∧ 1150 ≤ u.pwr.tj) ∧
    (∃ (p : Packet) (s t u : State) (b : Bytes), u = accept p t ∧ b = paramBytes p ∧ Ready infoPwrGate p s t ∧ byteAt
      b 0 ≤ 1 ∧ byteAt b 1 = 0 ∧ u.pwr.move ≠ none) ∧
    (∃ (p : Packet) (s t u : State) (b : Bytes) (n : Nat), u = accept p t ∧ b = paramBytes p ∧ Ready infoPwrGate p s t
      ∧ byteAt b 0 ≤ 1 ∧ byteAt b 1 = 0 ∧ u.pwr.move = none ∧ gateRefused u (gateAsked p u) = some n) ∧
    (∃ (p : Packet) (s t u : State) (b : Bytes), u = accept p t ∧ b = paramBytes p ∧ Ready infoPmbusXfer p s t ∧
      byteAt b 0 ≤ 127 ∧ byteAt b 2 ≤ 5 ∧ byteAt b 3 ≤ 32 ∧ ((railMap u).any (fun e => e.2.1 == byteAt b 0 && e.2.2 !=
      8)) = true) :=
  ⟨⟨pk infoPwrSet.op 0 ([4, 0, 1]), base, taken infoPwrSet.op (pk infoPwrSet.op 0 ([4, 0, 1])) (base), _, _, rfl,
      rfl, ready_of (by decide +kernel), by decide +kernel⟩,
    ⟨pk infoPwrGate.op 0 ([0, 0] ++ zeros 8), { base with pwr := { base.pwr with state := 4 } }, taken infoPwrGate.op
      (pk infoPwrGate.op 0 ([0, 0] ++ zeros 8)) ({ base with pwr := { base.pwr with state := 4 } }), _, _, rfl, rfl,
      ready_of (by decide +kernel), by decide +kernel⟩,
    ⟨pk infoPinRearm.op 0 (le 4 (2 ^ 19 - 1)), base, taken infoPinRearm.op (pk infoPinRearm.op 0 (le 4 (2 ^ 19 - 1)))
      (base), _, _, rfl, rfl, ready_of (by decide +kernel), by decide +kernel⟩,
    ⟨pk infoPmbusXfer.op 0 ([127, 0, 5, 32] ++ zeros 32), base, taken infoPmbusXfer.op (pk infoPmbusXfer.op 0 ([127,
      0, 5, 32] ++ zeros 32)) (base), _, _, rfl, rfl, ready_of (by decide +kernel), by decide +kernel⟩,
    ⟨pk infoPwrSet.op 0 ([4, 0, 1]), { base with
        pwr := { (base).pwr with
          move := some {
            target := 2, want := 0, source := 0, had := 0, whisper := false, owner := none, started := 0, begun :=
              true } } }, taken infoPwrSet.op (pk infoPwrSet.op 0 ([4, 0, 1])) ({ base with
        pwr := { (base).pwr with
          move := some {
            target := 2, want := 0, source := 0, had := 0, whisper := false, owner := none, started := 0, begun :=
              true } } }), _, _, rfl, rfl, ready_of (by decide +kernel), by decide +kernel⟩,
    ⟨pk infoPwrSet.op 0 ([2, 0, 0]), { base with pwr := { (base).pwr with state := 2 } }, taken infoPwrSet.op (pk
      infoPwrSet.op 0 ([2, 0, 0])) ({ base with pwr := { (base).pwr with state := 2 } }), _, _, rfl, rfl, ready_of
      (by decide +kernel), by decide +kernel⟩,
    ⟨pk infoPwrSet.op 0 ([4, 0, 1]), { base with pwr := { (base).pwr with tj := 1150 } }, taken infoPwrSet.op (pk
      infoPwrSet.op 0 ([4, 0, 1])) ({ base with pwr := { (base).pwr with tj := 1150 } }), _, _, rfl, rfl, ready_of
      (by decide +kernel), by decide +kernel⟩,
    ⟨pk infoPwrGate.op 0 ([0, 0] ++ zeros 8), { base with
        pwr := { (base).pwr with
          state := 4, move := some {
            target := 2, want := 0, source := 0, had := 0, whisper := false, owner := none, started := 0, begun :=
              true } } }, taken infoPwrGate.op (pk infoPwrGate.op 0 ([0, 0] ++ zeros 8)) ({ base with
        pwr := { (base).pwr with
          state := 4, move := some {
            target := 2, want := 0, source := 0, had := 0, whisper := false, owner := none, started := 0, begun :=
              true } } }), _, _, rfl, rfl, ready_of (by decide +kernel), by decide +kernel⟩,
    ⟨pk infoPwrGate.op 0 ([0, 0] ++ zeros 2 ++ le 6 (2 ^ 48 - 1)), { withLock with
        pwr := { (withLock).pwr with state := 4 } }, taken infoPwrGate.op (pk infoPwrGate.op 0 ([0, 0] ++ zeros 2 ++
      le 6 (2 ^ 48 - 1))) ({ withLock with pwr := { (withLock).pwr with state := 4 } }), _, _, 0x1501, rfl, rfl,
      ready_of (by decide +kernel), by decide +kernel⟩,
    ⟨pk infoPmbusXfer.op 0 ([64, 0, 5, 32] ++ zeros 32), setP base 0x1001 0 (0x40 :: 0 :: 1 :: zeros 61), taken
      infoPmbusXfer.op (pk infoPmbusXfer.op 0 ([64, 0, 5, 32] ++ zeros 32)) (setP base 0x1001 0 (0x40 :: 0 :: 1 ::
      zeros 61)), _, _, rfl, rfl, ready_of (by decide +kernel), by decide +kernel⟩⟩

theorem witness_StewardCommandsRun :
    (∃ (p : Packet) (s t u : State) (b : Bytes) (img : Bytes), u = accept p t ∧ b = paramBytes p ∧ Ready
      infoEngImageLoad p s t ∧ 76 ≤ fld b 8 4 ∧ fld b 8 4 ≤ 65696 ∧ 2 ≤ byteAt b 12 ∧ byteAt b 12 ≤ 63 ∧ rsv b 13 16 =
      true ∧ (getTen u (byteAt b 12)).st = .active ∧ img.length = fld b 8 4 ∧ imgStatus u img = 0) ∧
    (∃ (p : Packet) (s t u : State) (b : Bytes) (im : Image), u = accept p t ∧ b = paramBytes p ∧ Ready
      infoEngImageFree p s t ∧ (imageOf t (fld b 0 2)).isSome = true ∧ imageOf u (fld b 0 2) = some im ∧ fld (u.par
      0xD009 (0xC0 + im.tenant)) 0 2 ≠ fld b 0 2) ∧
    (∃ (p : Packet) (s t u : State) (b : Bytes), u = accept p t ∧ b = paramBytes p ∧ Ready (infoStwPageAlloc ((byteAt
      b 17).testBit 0)) p s t ∧ 2 ≤ byteAt b 16 ∧ byteAt b 16 ≤ 63 ∧ byteAt b 17 < 4 ∧ 1 ≤ fld b 18 2 ∧ fld b 18 2 ≤
      4096 ∧ (getTen u (byteAt b 16)).st = .active ∧ heldCount u (byteAt b 16) + fld b 18 2 ≤ tenN u 0xD005 (byteAt b
      16)) ∧
    (∃ (p : Packet) (s t u : State) (b : Bytes), u = accept p t ∧ b = paramBytes p ∧ Ready infoStwPageFree p s t ∧
      b.length = 4 + 2 * fld b 2 2 ∧ 2 ≤ byteAt b 0 ∧ byteAt b 0 ≤ 63 ∧ byteAt b 1 = 0 ∧ (getTen u (byteAt b 0)).st =
      .active ∧ (∀ g ∈ pagesNamed b, (getPg u g).owner = some (byteAt b 0) ∧ ringPage u (byteAt b 0) g = false ∧
      (getPg u g).image = false ∧ (∀ n < 16, (getCh u n).run = none ∨ (getCh u n).pages.contains g = false))) ∧
    (∃ (p : Packet) (s t u : State) (b : Bytes), u = accept p t ∧ b = paramBytes p ∧ Ready infoStwRenew p s t ∧ 2 ≤
      byteAt b 0 ∧ byteAt b 0 ≤ 63 ∧ (getTen u (byteAt b 0)).st = .active) ∧
    (∃ (p : Packet) (s t u : State) (b : Bytes) (n : Nat), u = accept p t ∧ b = paramBytes p ∧ Ready infoStwDmaGrant p
      s t ∧ 2 ≤ byteAt b 0 ∧ byteAt b 0 ≤ 63 ∧ freeCh t ≠ none ∧ (getTen u (byteAt b 0)).st = .active ∧ (heldChs u
      (byteAt b 0)).length < tenN u 0xD006 (byteAt b 0) ∧ freeCh u = some n) ∧
    (∃ (p : Packet) (s t u : State) (b : Bytes), u = accept p t ∧ b = paramBytes p ∧ Ready infoStwDmaRelease p s t ∧
      byteAt b 0 ≤ 15 ∧ (getCh u (byteAt b 0)).tenant ≠ none ∧ (getCh u (byteAt b 0)).run = none) ∧
    (∃ (p : Packet) (s t u : State) (b : Bytes), u = accept p t ∧ b = paramBytes p ∧ Ready infoTenantRevoke p s t ∧ 2
      ≤ byteAt b 0 ∧ byteAt b 0 ≤ 63 ∧ (getTen u (byteAt b 0)).st ≠ .off) ∧
    (∃ (p : Packet) (s t u : State) (b : Bytes), u = accept p t ∧ b = paramBytes p ∧ Ready infoStwQuarantine p s t ∧ 2
      ≤ byteAt b 0 ∧ byteAt b 0 ≤ 63 ∧ (getTen u (byteAt b 0)).st ≠ .off) ∧
    (∃ (p : Packet) (s t u : State) (b : Bytes), u = accept p t ∧ b = paramBytes p ∧ Ready infoStwRelease p s t ∧ 2 ≤
      byteAt b 0 ∧ byteAt b 0 ≤ 63 ∧ (getTen u (byteAt b 0)).st = .quarantined) ∧
    (∃ (p : Packet) (s t u : State) (b : Bytes), u = accept p t ∧ b = paramBytes p ∧ Ready infoEngTest p s t ∧
      engUsable u (byteAt b 0) = true) ∧
    (∃ (p : Packet) (s t u : State) (b : Bytes) (img : Bytes), u = accept p t ∧ b = paramBytes p ∧ Ready
      infoEngImageLoad p s t ∧ 76 ≤ fld b 8 4 ∧ fld b 8 4 ≤ 65696 ∧ 2 ≤ byteAt b 12 ∧ byteAt b 12 ≤ 63 ∧ rsv b 13 16 =
      true ∧ (getTen u (byteAt b 12)).st = .off) ∧
    (∃ (p : Packet) (s t u : State) (b : Bytes) (img : Bytes), u = accept p t ∧ b = paramBytes p ∧ Ready
      infoEngImageLoad p s t ∧ 76 ≤ fld b 8 4 ∧ fld b 8 4 ≤ 65696 ∧ 2 ≤ byteAt b 12 ∧ byteAt b 12 ≤ 63 ∧ rsv b 13 16 =
      true ∧ (getTen u (byteAt b 12)).st = .quarantined) ∧
    (∃ (p : Packet) (s t u : State) (b : Bytes), u = accept p t ∧ b = paramBytes p ∧ Ready (infoStwPageAlloc ((byteAt
      b 17).testBit 0)) p s t ∧ 2 ≤ byteAt b 16 ∧ byteAt b 16 ≤ 63 ∧ byteAt b 17 < 4 ∧ 1 ≤ fld b 18 2 ∧ fld b 18 2 ≤
      4096 ∧ (getTen u (byteAt b 16)).st = .off) ∧
    (∃ (p : Packet) (s t u : State) (b : Bytes), u = accept p t ∧ b = paramBytes p ∧ Ready (infoStwPageAlloc ((byteAt
      b 17).testBit 0)) p s t ∧ 2 ≤ byteAt b 16 ∧ byteAt b 16 ≤ 63 ∧ byteAt b 17 < 4 ∧ 1 ≤ fld b 18 2 ∧ fld b 18 2 ≤
      4096 ∧ (getTen u (byteAt b 16)).st = .quarantined) ∧
    (∃ (p : Packet) (s t u : State) (b : Bytes), u = accept p t ∧ b = paramBytes p ∧ Ready infoStwPageFree p s t ∧
      b.length = 4 + 2 * fld b 2 2 ∧ 2 ≤ byteAt b 0 ∧ byteAt b 0 ≤ 63 ∧ byteAt b 1 = 0 ∧ (getTen u (byteAt b 0)).st =
      .off) ∧
    (∃ (p : Packet) (s t u : State) (b : Bytes), u = accept p t ∧ b = paramBytes p ∧ Ready infoStwPageFree p s t ∧
      b.length = 4 + 2 * fld b 2 2 ∧ 2 ≤ byteAt b 0 ∧ byteAt b 0 ≤ 63 ∧ byteAt b 1 = 0 ∧ (getTen u (byteAt b 0)).st =
      .quarantined) ∧
    (∃ (p : Packet) (s t u : State) (b : Bytes), u = accept p t ∧ b = paramBytes p ∧ Ready infoStwRenew p s t ∧ 2 ≤
      byteAt b 0 ∧ byteAt b 0 ≤ 63 ∧ (getTen u (byteAt b 0)).st = .off) ∧
    (∃ (p : Packet) (s t u : State) (b : Bytes), u = accept p t ∧ b = paramBytes p ∧ Ready infoStwRenew p s t ∧ 2 ≤
      byteAt b 0 ∧ byteAt b 0 ≤ 63 ∧ (getTen u (byteAt b 0)).st = .quarantined) ∧
    (∃ (p : Packet) (s t u : State) (b : Bytes), u = accept p t ∧ b = paramBytes p ∧ Ready infoStwDmaGrant p s t ∧ 2 ≤
      byteAt b 0 ∧ byteAt b 0 ≤ 63 ∧ freeCh t ≠ none ∧ (getTen u (byteAt b 0)).st = .off) ∧
    (∃ (p : Packet) (s t u : State) (b : Bytes), u = accept p t ∧ b = paramBytes p ∧ Ready infoStwDmaGrant p s t ∧ 2 ≤
      byteAt b 0 ∧ byteAt b 0 ≤ 63 ∧ freeCh t ≠ none ∧ (getTen u (byteAt b 0)).st = .quarantined) ∧
    (∃ (p : Packet) (s t u : State) (b : Bytes), u = accept p t ∧ b = paramBytes p ∧ Ready infoTenantRevoke p s t ∧ 2
      ≤ byteAt b 0 ∧ byteAt b 0 ≤ 63 ∧ (getTen u (byteAt b 0)).st = .off) ∧
    (∃ (p : Packet) (s t u : State) (b : Bytes), u = accept p t ∧ b = paramBytes p ∧ Ready infoStwQuarantine p s t ∧ 2
      ≤ byteAt b 0 ∧ byteAt b 0 ≤ 63 ∧ (getTen u (byteAt b 0)).st = .off) ∧
    (∃ (p : Packet) (s t u : State) (b : Bytes), u = accept p t ∧ b = paramBytes p ∧ Ready infoStwRelease p s t ∧ 2 ≤
      byteAt b 0 ∧ byteAt b 0 ≤ 63 ∧ (getTen u (byteAt b 0)).st ≠ .quarantined) ∧
    (∃ (p : Packet) (s t u : State) (b : Bytes) (img : Bytes), u = accept p t ∧ b = paramBytes p ∧ Ready
      infoEngImageLoad p s t ∧ 76 ≤ fld b 8 4 ∧ fld b 8 4 ≤ 65696 ∧ 2 ≤ byteAt b 12 ∧ byteAt b 12 ≤ 63 ∧ rsv b 13 16 =
      true ∧ (getTen u (byteAt b 12)).st = .active ∧ img.length ≠ fld b 8 4) ∧
    (∃ (p : Packet) (s t u : State) (b : Bytes) (img : Bytes), u = accept p t ∧ b = paramBytes p ∧ Ready
      infoEngImageLoad p s t ∧ 76 ≤ fld b 8 4 ∧ fld b 8 4 ≤ 65696 ∧ 2 ≤ byteAt b 12 ∧ byteAt b 12 ≤ 63 ∧ rsv b 13 16 =
      true ∧ (getTen u (byteAt b 12)).st = .active ∧ img.length = fld b 8 4 ∧ imgStatus u img ≠ 0) ∧
    (∃ (p : Packet) (s t u : State) (b : Bytes) (im : Image), u = accept p t ∧ b = paramBytes p ∧ Ready
      infoEngImageFree p s t ∧ (imageOf t (fld b 0 2)).isSome = true ∧ imageOf u (fld b 0 2) = some im ∧ fld (u.par
      0xD009 (0xC0 + im.tenant)) 0 2 = fld b 0 2) ∧
    (∃ (p : Packet) (s t u : State) (b : Bytes), u = accept p t ∧ b = paramBytes p ∧ Ready (infoStwPageAlloc ((byteAt
      b 17).testBit 0)) p s t ∧ 2 ≤ byteAt b 16 ∧ byteAt b 16 ≤ 63 ∧ byteAt b 17 < 4 ∧ 1 ≤ fld b 18 2 ∧ fld b 18 2 ≤
      4096 ∧ (getTen u (byteAt b 16)).st = .active ∧ tenN u 0xD005 (byteAt b 16) < heldCount u (byteAt b 16) + fld b
      18 2) ∧
    (∃ (p : Packet) (s t u : State) (b : Bytes), u = accept p t ∧ b = paramBytes p ∧ Ready infoStwPageFree p s t ∧
      b.length = 4 + 2 * fld b 2 2 ∧ 2 ≤ byteAt b 0 ∧ byteAt b 0 ≤ 63 ∧ byteAt b 1 = 0 ∧ (getTen u (byteAt b 0)).st =
      .active ∧ (pagesNamed b).any (fun g => (getPg u g).owner != some (byteAt b 0)) = true) ∧
    (∃ (p : Packet) (s t u : State) (b : Bytes), u = accept p t ∧ b = paramBytes p ∧ Ready infoStwPageFree p s t ∧
      b.length = 4 + 2 * fld b 2 2 ∧ 2 ≤ byteAt b 0 ∧ byteAt b 0 ≤ 63 ∧ byteAt b 1 = 0 ∧ (getTen u (byteAt b 0)).st =
      .active ∧ (pagesNamed b).any (fun g => (getPg u g).owner != some (byteAt b 0)) = false ∧ (pagesNamed b).any (fun
      g => ringPage u (byteAt b 0) g || (getPg u g).image || (List.range 16).any (fun k => (getCh u k).run.isSome &&
      (getCh u k).pages.contains g)) = true) ∧
    (∃ (p : Packet) (s t u : State) (b : Bytes), u = accept p t ∧ b = paramBytes p ∧ Ready infoStwDmaGrant p s t ∧ 2 ≤
      byteAt b 0 ∧ byteAt b 0 ≤ 63 ∧ freeCh t ≠ none ∧ (getTen u (byteAt b 0)).st = .active ∧ tenN u 0xD006 (byteAt b
      0) ≤ (heldChs u (byteAt b 0)).length) ∧
    (∃ (p : Packet) (s t u : State) (b : Bytes), u = accept p t ∧ b = paramBytes p ∧ Ready infoStwDmaGrant p s t ∧ 2 ≤
      byteAt b 0 ∧ byteAt b 0 ≤ 63 ∧ freeCh t = none) ∧
    (∃ (p : Packet) (s t u : State) (b : Bytes), u = accept p t ∧ b = paramBytes p ∧ Ready infoStwDmaRelease p s t ∧
      byteAt b 0 ≤ 15 ∧ (getCh u (byteAt b 0)).tenant = none) ∧
    (∃ (p : Packet) (s t u : State) (b : Bytes), u = accept p t ∧ b = paramBytes p ∧ Ready infoStwDmaRelease p s t ∧
      byteAt b 0 ≤ 15 ∧ (getCh u (byteAt b 0)).tenant ≠ none ∧ (getCh u (byteAt b 0)).run ≠ none) ∧
    (∃ (p : Packet) (s t u : State) (b : Bytes), u = accept p t ∧ b = paramBytes p ∧ Ready infoEngTest p s t ∧
      engUsable u (byteAt b 0) = false) :=
  ⟨⟨pk infoEngImageLoad.op 0 (zeros 8 ++ le 4 76 ++ [63, 0, 0, 0]), withTen 63 .active, taken infoEngImageLoad.op (pk
      infoEngImageLoad.op 0 (zeros 8 ++ le 4 76 ++ [63, 0, 0, 0])) (withTen 63 .active), _, _, vendorless, rfl, rfl,
      ready_of (by decide +kernel), by decide +kernel⟩,
    ⟨pk infoEngImageFree.op 0 ([0, 1]), withImg, taken infoEngImageFree.op (pk infoEngImageFree.op 0 ([0, 1]))
      (withImg), _, _, img0, rfl, rfl, ready_of (by decide +kernel), by decide +kernel⟩,
    ⟨pk (infoStwPageAlloc true).op 0 (zeros 8 ++ le 4 8192 ++ zeros 4 ++ [63, 3] ++ le 2 4096), setP (withTen 63
      .active) 0xD005 (0xC0 + 63) (le 2 4096), taken (infoStwPageAlloc true).op (pk (infoStwPageAlloc true).op 0
      (zeros 8 ++ le 4 8192 ++ zeros 4 ++ [63, 3] ++ le 2 4096)) (setP (withTen 63 .active) 0xD005 (0xC0 + 63) (le 2
      4096)), _, _, rfl, rfl, ready_of (by decide +kernel), by decide +kernel⟩,
    ⟨pk infoStwPageFree.op 0 ([63, 0, 1, 0, 7, 0]), withPage, taken infoStwPageFree.op (pk infoStwPageFree.op 0 ([63,
      0, 1, 0, 7, 0])) (withPage), _, _, rfl, rfl, ready_of (by decide +kernel), by decide +kernel⟩,
    ⟨pk infoStwRenew.op 0 ([63]), withTen 63 .active, taken infoStwRenew.op (pk infoStwRenew.op 0 ([63])) (withTen 63
      .active), _, _, rfl, rfl, ready_of (by decide +kernel), by decide +kernel⟩,
    ⟨pk infoStwDmaGrant.op 0 ([63]), setP (withTen 63 .active) 0xD006 (0xC0 + 63) [1], taken infoStwDmaGrant.op (pk
      infoStwDmaGrant.op 0 ([63])) (setP (withTen 63 .active) 0xD006 (0xC0 + 63) [1]), _, _, 0, rfl, rfl, ready_of
      (by decide +kernel), by decide +kernel⟩,
    ⟨pk infoStwDmaRelease.op 0 ([15]), withCh none, taken infoStwDmaRelease.op (pk infoStwDmaRelease.op 0 ([15]))
      (withCh none), _, _, rfl, rfl, ready_of (by decide +kernel), by decide +kernel⟩,
    ⟨pk infoTenantRevoke.op 0 ([2]), withTen 2 .active, taken infoTenantRevoke.op (pk infoTenantRevoke.op 0 ([2]))
      (withTen 2 .active), _, _, rfl, rfl, ready_of (by decide +kernel), by decide +kernel⟩,
    ⟨pk infoStwQuarantine.op 0 ([63]), withTen 63 .quarantined, taken infoStwQuarantine.op (pk infoStwQuarantine.op 0
      ([63])) (withTen 63 .quarantined), _, _, rfl, rfl, ready_of (by decide +kernel), by decide +kernel⟩,
    ⟨pk infoStwRelease.op 0 ([2]), withTen 2 .quarantined, taken infoStwRelease.op (pk infoStwRelease.op 0 ([2]))
      (withTen 2 .quarantined), _, _, rfl, rfl, ready_of (by decide +kernel), by decide +kernel⟩,
    ⟨pk infoEngTest.op 0 ([255]), base, taken infoEngTest.op (pk infoEngTest.op 0 ([255])) (base), _, _, rfl, rfl,
      ready_of (by decide +kernel), by decide +kernel⟩,
    ⟨pk infoEngImageLoad.op 0 (zeros 8 ++ le 4 76 ++ [63, 0, 0, 0]), base, taken infoEngImageLoad.op (pk
      infoEngImageLoad.op 0 (zeros 8 ++ le 4 76 ++ [63, 0, 0, 0])) (base), _, _, [], rfl, rfl, ready_of
      (by decide +kernel), by decide +kernel⟩,
    ⟨pk infoEngImageLoad.op 0 (zeros 8 ++ le 4 76 ++ [63, 0, 0, 0]), withTen 63 .quarantined, taken
      infoEngImageLoad.op (pk infoEngImageLoad.op 0 (zeros 8 ++ le 4 76 ++ [63, 0, 0, 0])) (withTen 63 .quarantined),
      _, _, [], rfl, rfl, ready_of (by decide +kernel), by decide +kernel⟩,
    ⟨pk (infoStwPageAlloc true).op 0 (zeros 8 ++ le 4 8192 ++ zeros 4 ++ [63, 3] ++ le 2 4096), base, taken
      (infoStwPageAlloc true).op (pk (infoStwPageAlloc true).op 0 (zeros 8 ++ le 4 8192 ++ zeros 4 ++ [63, 3] ++ le 2
      4096)) (base), _, _, rfl, rfl, ready_of (by decide +kernel), by decide +kernel⟩,
    ⟨pk (infoStwPageAlloc true).op 0 (zeros 8 ++ le 4 8192 ++ zeros 4 ++ [63, 3] ++ le 2 4096), withTen 63
      .quarantined, taken (infoStwPageAlloc true).op (pk (infoStwPageAlloc true).op 0 (zeros 8 ++ le 4 8192 ++ zeros 4
      ++ [63, 3] ++ le 2 4096)) (withTen 63 .quarantined), _, _, rfl, rfl, ready_of (by decide +kernel),
      by decide +kernel⟩,
    ⟨pk infoStwPageFree.op 0 ([63, 0, 1, 0, 7, 0]), base, taken infoStwPageFree.op (pk infoStwPageFree.op 0 ([63, 0,
      1, 0, 7, 0])) (base), _, _, rfl, rfl, ready_of (by decide +kernel), by decide +kernel⟩,
    ⟨pk infoStwPageFree.op 0 ([63, 0, 1, 0, 7, 0]), withTen 63 .quarantined, taken infoStwPageFree.op (pk
      infoStwPageFree.op 0 ([63, 0, 1, 0, 7, 0])) (withTen 63 .quarantined), _, _, rfl, rfl, ready_of
      (by decide +kernel), by decide +kernel⟩,
    ⟨pk infoStwRenew.op 0 ([63]), base, taken infoStwRenew.op (pk infoStwRenew.op 0 ([63])) (base), _, _, rfl, rfl,
      ready_of (by decide +kernel), by decide +kernel⟩,
    ⟨pk infoStwRenew.op 0 ([63]), withTen 63 .quarantined, taken infoStwRenew.op (pk infoStwRenew.op 0 ([63]))
      (withTen 63 .quarantined), _, _, rfl, rfl, ready_of (by decide +kernel), by decide +kernel⟩,
    ⟨pk infoStwDmaGrant.op 0 ([63]), base, taken infoStwDmaGrant.op (pk infoStwDmaGrant.op 0 ([63])) (base), _, _,
      rfl, rfl, ready_of (by decide +kernel), by decide +kernel⟩,
    ⟨pk infoStwDmaGrant.op 0 ([63]), withTen 63 .quarantined, taken infoStwDmaGrant.op (pk infoStwDmaGrant.op 0
      ([63])) (withTen 63 .quarantined), _, _, rfl, rfl, ready_of (by decide +kernel), by decide +kernel⟩,
    ⟨pk infoTenantRevoke.op 0 ([63]), base, taken infoTenantRevoke.op (pk infoTenantRevoke.op 0 ([63])) (base), _, _,
      rfl, rfl, ready_of (by decide +kernel), by decide +kernel⟩,
    ⟨pk infoStwQuarantine.op 0 ([63]), base, taken infoStwQuarantine.op (pk infoStwQuarantine.op 0 ([63])) (base), _,
      _, rfl, rfl, ready_of (by decide +kernel), by decide +kernel⟩,
    ⟨pk infoStwRelease.op 0 ([63]), base, taken infoStwRelease.op (pk infoStwRelease.op 0 ([63])) (base), _, _, rfl,
      rfl, ready_of (by decide +kernel), by decide +kernel⟩,
    ⟨pk infoEngImageLoad.op 0 (zeros 8 ++ le 4 76 ++ [63, 0, 0, 0]), withTen 63 .active, taken infoEngImageLoad.op (pk
      infoEngImageLoad.op 0 (zeros 8 ++ le 4 76 ++ [63, 0, 0, 0])) (withTen 63 .active), _, _, [], rfl, rfl, ready_of
      (by decide +kernel), by decide +kernel⟩,
    ⟨pk infoEngImageLoad.op 0 (zeros 8 ++ le 4 76 ++ [63, 0, 0, 0]), withTen 63 .active, taken infoEngImageLoad.op (pk
      infoEngImageLoad.op 0 (zeros 8 ++ le 4 76 ++ [63, 0, 0, 0])) (withTen 63 .active), _, _, zeros 76, rfl, rfl,
      ready_of (by decide +kernel), by decide +kernel⟩,
    ⟨pk infoEngImageFree.op 0 ([0, 1]), setP withImg 0xD009 (0xC0 + 5) [0, 1], taken infoEngImageFree.op (pk
      infoEngImageFree.op 0 ([0, 1])) (setP withImg 0xD009 (0xC0 + 5) [0, 1]), _, _, img0, rfl, rfl, ready_of
      (by decide +kernel), by decide +kernel⟩,
    ⟨pk (infoStwPageAlloc true).op 0 (zeros 8 ++ le 4 8192 ++ zeros 4 ++ [63, 3] ++ le 2 4096), setP (withTen 63
      .active) 0xD005 (0xC0 + 63) (le 2 4095), taken (infoStwPageAlloc true).op (pk (infoStwPageAlloc true).op 0
      (zeros 8 ++ le 4 8192 ++ zeros 4 ++ [63, 3] ++ le 2 4096)) (setP (withTen 63 .active) 0xD005 (0xC0 + 63) (le 2
      4095)), _, _, rfl, rfl, ready_of (by decide +kernel), by decide +kernel⟩,
    ⟨pk infoStwPageFree.op 0 ([63, 0, 1, 0, 7, 0]), withTen 63 .active, taken infoStwPageFree.op (pk
      infoStwPageFree.op 0 ([63, 0, 1, 0, 7, 0])) (withTen 63 .active), _, _, rfl, rfl, ready_of (by decide +kernel),
      by decide +kernel⟩,
    ⟨pk infoStwPageFree.op 0 ([63, 0, 1, 0, 7, 0]), setPg 7 { owner := some 63, image := true } (withTen 63 .active),
      taken infoStwPageFree.op (pk infoStwPageFree.op 0 ([63, 0, 1, 0, 7, 0])) (setPg 7 {
        owner := some 63, image := true } (withTen 63 .active)), _, _, rfl, rfl, ready_of (by decide +kernel),
      by decide +kernel⟩,
    ⟨pk infoStwDmaGrant.op 0 ([63]), setP (withTen 63 .active) 0xD006 (0xC0 + 63) [0], taken infoStwDmaGrant.op (pk
      infoStwDmaGrant.op 0 ([63])) (setP (withTen 63 .active) 0xD006 (0xC0 + 63) [0]), _, _, rfl, rfl, ready_of
      (by decide +kernel), by decide +kernel⟩,
    ⟨pk infoStwDmaGrant.op 0 ([63]), (List.range 16).foldl (fun s n => updCh n (fun x => { x with tenant := some 5 })
      s) (setP (withTen 63 .active) 0xD006 (0xC0 + 63) [1]), taken infoStwDmaGrant.op (pk infoStwDmaGrant.op 0 ([63]))
      ((List.range 16).foldl (fun s n => updCh n (fun x => { x with tenant := some 5 }) s) (setP (withTen 63 .active)
      0xD006 (0xC0 + 63) [1])), _, _, rfl, rfl, ready_of (by decide +kernel), by decide +kernel⟩,
    ⟨pk infoStwDmaRelease.op 0 ([15]), base, taken infoStwDmaRelease.op (pk infoStwDmaRelease.op 0 ([15])) (base), _,
      _, rfl, rfl, ready_of (by decide +kernel), by decide +kernel⟩,
    ⟨pk infoStwDmaRelease.op 0 ([15]), withCh (some { tag := 1 }), taken infoStwDmaRelease.op (pk infoStwDmaRelease.op
      0 ([15])) (withCh (some { tag := 1 })), _, _, rfl, rfl, ready_of (by decide +kernel), by decide +kernel⟩,
    ⟨pk infoEngTest.op 0 ([255]), { base with pwr := { (base).pwr with gatedClusters := 2 ^ 16 - 1 } }, taken
      infoEngTest.op (pk infoEngTest.op 0 ([255])) ({ base with
        pwr := { (base).pwr with gatedClusters := 2 ^ 16 - 1 } }), _, _, rfl, rfl, ready_of (by decide +kernel),
      by decide +kernel⟩⟩

theorem witness_StoreCommandsRun :
    (∃ (p : Packet) (s t u : State) (b : Bytes), u = accept p t ∧ b = paramBytes p ∧ Ready infoStoreScrub p s t ∧ fld
      b 16 2 ≤ 32767 ∧ 1 ≤ fld b 18 2 ∧ fld b 16 2 + fld b 18 2 ≤ 32768) ∧
    (∃ (p : Packet) (s t u : State) (b : Bytes), u = accept p t ∧ b = paramBytes p ∧ Ready infoStoreFallow p s t ∧ fld
      b 0 2 = 1 ∧ b.length = 4 ∧ fld b 2 2 ≤ 32767 ∧ getPg u (fld b 2 2) = {} ∧ fallowCount u < 1024) ∧
    (∃ (p : Packet) (s t u : State), u = accept p t ∧ Ready infoStoreFlush p s t) ∧
    (∃ (p : Packet) (s t u : State) (b : Bytes), u = accept p t ∧ b = paramBytes p ∧ Ready infoStoreInject p s t ∧ fld
      b 0 2 ≤ 32767 ∧ 1 ≤ byteAt b 2 ∧ byteAt b 2 ≤ 64 ∧ byteAt b 3 = 0 ∧ (getPg u (fld b 0 2) = {} ∨ (getPg u (fld b
      0 2)).owner ≠ none)) ∧
    (∃ (p : Packet) (s t u : State) (b : Bytes), u = accept p t ∧ b = paramBytes p ∧ Ready infoDmaStart p s t ∧ byteAt
      b 0 ≤ 15 ∧ rsv b 1 8 = true ∧ fld b 8 8 % 32 = 0 ∧ (getCh u (byteAt b 0)).tenant ≠ none ∧ (getCh u (byteAt b
      0)).run = none) ∧
    (∃ (p : Packet) (s t u : State) (b : Bytes), u = accept p t ∧ b = paramBytes p ∧ Ready infoDmaAbort p s t ∧ byteAt
      b 0 ≤ 15 ∧ (getCh u (byteAt b 0)).run ≠ none) ∧
    (∃ (p : Packet) (s t u : State) (b : Bytes), u = accept p t ∧ b = paramBytes p ∧ Ready infoCrcUnit p s t ∧ byteAt
      b 0 ≤ 7 ∧ byteAt b 1 = 0 ∧ rsv b 4 8 = true) ∧
    (∃ (p : Packet) (s t u : State) (b : Bytes), u = accept p t ∧ b = paramBytes p ∧ Ready infoCrcUnit p s t ∧ byteAt
      b 0 ≤ 7 ∧ byteAt b 1 = 1 ∧ byteAt b 2 ≤ 3 ∧ byteAt b 3 ≤ 2 ∧ rsv b 4 8 = true ∧ (getCrc u (byteAt b 0)).claim =
      none) ∧
    (∃ (p : Packet) (s t u : State) (b : Bytes), u = accept p t ∧ b = paramBytes p ∧ Ready infoCrcUnit p s t ∧ byteAt
      b 0 ≤ 7 ∧ byteAt b 1 = 2 ∧ rsv b 4 8 = true ∧ (getCrc u (byteAt b 0)).claim = none) ∧
    (∃ (p : Packet) (s t u : State) (b : Bytes), u = accept p t ∧ b = paramBytes p ∧ Ready infoCrcUnit p s t ∧ byteAt
      b 0 ≤ 7 ∧ byteAt b 1 = 3 ∧ rsv b 4 8 = true) ∧
    (∃ (p : Packet) (s t u : State) (b : Bytes), u = accept p t ∧ b = paramBytes p ∧ Ready infoCrcUnit p s t ∧ byteAt
      b 0 ≤ 7 ∧ byteAt b 1 = 4 ∧ rsv b 4 8 = true) ∧
    (∃ (p : Packet) (s t u : State) (b : Bytes), u = accept p t ∧ b = paramBytes p ∧ Ready infoStoreFallow p s t ∧ fld
      b 0 2 = 1 ∧ b.length = 4 ∧ fld b 2 2 ≤ 32767 ∧ ((getPg u (fld b 2 2)).owner ≠ none ∨ (getPg u (fld b 2 2)).zero
      ≠ none) ∧ (getPg u (fld b 2 2)).quar = none ∧ SMap.wf {} u.stw.pages = true) ∧
    (∃ (p : Packet) (s t u : State) (b : Bytes), u = accept p t ∧ b = paramBytes p ∧ Ready infoStoreInject p s t ∧ fld
      b 0 2 ≤ 32767 ∧ 1 ≤ byteAt b 2 ∧ byteAt b 2 ≤ 64 ∧ byteAt b 3 = 0 ∧ getPg u (fld b 0 2) ≠ {} ∧ (getPg u (fld b 0
      2)).owner = none) ∧
    (∃ (p : Packet) (s t u : State) (b : Bytes), u = accept p t ∧ b = paramBytes p ∧ Ready infoDmaStart p s t ∧ byteAt
      b 0 ≤ 15 ∧ rsv b 1 8 = true ∧ fld b 8 8 % 32 = 0 ∧ (getCh u (byteAt b 0)).tenant = none) ∧
    (∃ (p : Packet) (s t u : State) (b : Bytes), u = accept p t ∧ b = paramBytes p ∧ Ready infoDmaStart p s t ∧ byteAt
      b 0 ≤ 15 ∧ rsv b 1 8 = true ∧ fld b 8 8 % 32 = 0 ∧ (getCh u (byteAt b 0)).tenant ≠ none ∧ (getCh u (byteAt b
      0)).run ≠ none) ∧
    (∃ (p : Packet) (s t u : State) (b : Bytes), u = accept p t ∧ b = paramBytes p ∧ Ready infoDmaAbort p s t ∧ byteAt
      b 0 ≤ 15 ∧ (getCh u (byteAt b 0)).run = none) ∧
    (∃ (p : Packet) (s t u : State) (b : Bytes), u = accept p t ∧ b = paramBytes p ∧ Ready infoCrcUnit p s t ∧ byteAt
      b 0 ≤ 7 ∧ byteAt b 1 = 1 ∧ byteAt b 2 ≤ 3 ∧ byteAt b 3 ≤ 2 ∧ rsv b 4 8 = true ∧ (getCrc u (byteAt b 0)).claim ≠
      none) ∧
    (∃ (p : Packet) (s t u : State) (b : Bytes), u = accept p t ∧ b = paramBytes p ∧ Ready infoCrcUnit p s t ∧ byteAt
      b 0 ≤ 7 ∧ byteAt b 1 = 2 ∧ rsv b 4 8 = true ∧ (getCrc u (byteAt b 0)).claim ≠ none) :=
  ⟨⟨pk infoStoreScrub.op 0 (zeros 16 ++ le 2 32767 ++ le 2 1), base, taken infoStoreScrub.op (pk infoStoreScrub.op 0
      (zeros 16 ++ le 2 32767 ++ le 2 1)) (base), _, _, rfl, rfl, ready_of (by decide +kernel), by decide +kernel⟩,
    ⟨pk infoStoreFallow.op 0 ([1, 0, 0xFF, 0x7F]), base, taken infoStoreFallow.op (pk infoStoreFallow.op 0 ([1, 0,
      0xFF, 0x7F])) (base), _, _, rfl, rfl, ready_of (by decide +kernel), by decide +kernel⟩,
    ⟨pk infoStoreFlush.op 0 ([]), base, taken infoStoreFlush.op (pk infoStoreFlush.op 0 ([])) (base), _, rfl, ready_of
      (by decide +kernel)⟩,
    ⟨pk infoStoreInject.op 0 ([0xFF, 0x7F, 64, 0]), base, taken infoStoreInject.op (pk infoStoreInject.op 0 ([0xFF,
      0x7F, 64, 0])) (base), _, _, rfl, rfl, ready_of (by decide +kernel), by decide +kernel⟩,
    ⟨pk infoDmaStart.op 0 ([15] ++ zeros 7 ++ le 8 64), withCh none, taken infoDmaStart.op (pk infoDmaStart.op 0 ([15]
      ++ zeros 7 ++ le 8 64)) (withCh none), _, _, rfl, rfl, ready_of (by decide +kernel), by decide +kernel⟩,
    ⟨pk infoDmaAbort.op 0 ([15]), withCh (some { tag := 1 }), taken infoDmaAbort.op (pk infoDmaAbort.op 0 ([15]))
      (withCh (some { tag := 1 })), _, _, rfl, rfl, ready_of (by decide +kernel), by decide +kernel⟩,
    ⟨pk infoCrcUnit.op 0 ([7, 0, 0, 0] ++ zeros 20), base, taken infoCrcUnit.op (pk infoCrcUnit.op 0 ([7, 0, 0, 0] ++
      zeros 20)) (base), _, _, rfl, rfl, ready_of (by decide +kernel), by decide +kernel⟩,
    ⟨pk infoCrcUnit.op 0 ([7, 1, 3, 2] ++ zeros 20), base, taken infoCrcUnit.op (pk infoCrcUnit.op 0 ([7, 1, 3, 2] ++
      zeros 20)) (base), _, _, rfl, rfl, ready_of (by decide +kernel), by decide +kernel⟩,
    ⟨pk infoCrcUnit.op 0 ([0, 2, 0, 0] ++ zeros 20), base, taken infoCrcUnit.op (pk infoCrcUnit.op 0 ([0, 2, 0, 0] ++
      zeros 20)) (base), _, _, rfl, rfl, ready_of (by decide +kernel), by decide +kernel⟩,
    ⟨pk infoCrcUnit.op 0 ([0, 3, 0, 0] ++ zeros 20), base, taken infoCrcUnit.op (pk infoCrcUnit.op 0 ([0, 3, 0, 0] ++
      zeros 20)) (base), _, _, rfl, rfl, ready_of (by decide +kernel), by decide +kernel⟩,
    ⟨pk infoCrcUnit.op 0 ([0, 4, 0, 0] ++ zeros 20), base, taken infoCrcUnit.op (pk infoCrcUnit.op 0 ([0, 4, 0, 0] ++
      zeros 20)) (base), _, _, rfl, rfl, ready_of (by decide +kernel), by decide +kernel⟩,
    ⟨pk infoStoreFallow.op 0 ([1, 0, 7, 0]), setPg 7 { owner := some 5 } base, taken infoStoreFallow.op (pk
      infoStoreFallow.op 0 ([1, 0, 7, 0])) (setPg 7 { owner := some 5 } base), _, _, rfl, rfl, ready_of
      (by decide +kernel), by decide +kernel⟩,
    ⟨pk infoStoreInject.op 0 ([7, 0, 64, 0]), setPg 7 { zero := some 0 } base, taken infoStoreInject.op (pk
      infoStoreInject.op 0 ([7, 0, 64, 0])) (setPg 7 { zero := some 0 } base), _, _, rfl, rfl, ready_of
      (by decide +kernel), by decide +kernel⟩,
    ⟨pk infoDmaStart.op 0 ([15] ++ zeros 7 ++ le 8 64), base, taken infoDmaStart.op (pk infoDmaStart.op 0 ([15] ++
      zeros 7 ++ le 8 64)) (base), _, _, rfl, rfl, ready_of (by decide +kernel), by decide +kernel⟩,
    ⟨pk infoDmaStart.op 0 ([15] ++ zeros 7 ++ le 8 64), withCh (some { tag := 1 }), taken infoDmaStart.op (pk
      infoDmaStart.op 0 ([15] ++ zeros 7 ++ le 8 64)) (withCh (some { tag := 1 })), _, _, rfl, rfl, ready_of
      (by decide +kernel), by decide +kernel⟩,
    ⟨pk infoDmaAbort.op 0 ([15]), withCh none, taken infoDmaAbort.op (pk infoDmaAbort.op 0 ([15])) (withCh none), _,
      _, rfl, rfl, ready_of (by decide +kernel), by decide +kernel⟩,
    ⟨pk infoCrcUnit.op 0 ([0, 1, 3, 2] ++ zeros 20), { base with
        str := { base.str with crc := [{ claim := some 3 }] } }, taken infoCrcUnit.op (pk infoCrcUnit.op 0 ([0, 1, 3,
      2] ++ zeros 20)) ({ base with str := { base.str with crc := [{ claim := some 3 }] } }), _, _, rfl, rfl, ready_of
      (by decide +kernel), by decide +kernel⟩,
    ⟨pk infoCrcUnit.op 0 ([0, 2, 0, 0] ++ zeros 20), { base with
        str := { base.str with crc := [{ claim := some 3 }] } }, taken infoCrcUnit.op (pk infoCrcUnit.op 0 ([0, 2, 0,
      0] ++ zeros 20)) ({ base with str := { base.str with crc := [{ claim := some 3 }] } }), _, _, rfl, rfl, ready_of
      (by decide +kernel), by decide +kernel⟩⟩

/-! ## Witnesses of the statements about events, one for each clause with hypotheses -/

theorem witness_ProtocolEventsAct :
    (∃ (s t : State) (q : Fin 8), Running s t ∧ fetching t = true ∧ nextVisit t = some q.val ∧ (getQ t q.val).retry =
      .none_) ∧
    (∃ (s t : State) (q : Fin 8), Running s t ∧ fetching t = true ∧ nextVisit t = some q.val ∧ (getQ t q.val).retry =
      .again) ∧
    (∃ (s t : State) (q : Fin 8) (op : BitVec 16) (p : Packet), Running s t ∧ fetching t = true ∧ nextVisit t = some
      q.val ∧ (getQ t q.val).retry = .again ∧ p.q.val = q.val ∧ p.paramInline = false ∧ checkLen op.toNat p = none) ∧
    (∃ (s t : State) (q : Fin 8), Running s t ∧ (getQ t q.val).retry = .again) ∧
    (∃ (s t : State) (q : Fin 8), Running s t ∧ (getQ t q.val).retry = .last) ∧
    (∃ (s t : State) (q : Fin 8) (h : Held), Running s t ∧ t.cmd.held.find? (·.q == q.val) = some h ∧ t.sys.fwRunning
      = true ∧ cqFull t q.val = false) ∧
    (∃ (s t : State) (q : Fin 8), Running s t ∧ coalDue t q.val = true) ∧
    (∃ (s t : State) (q : Fin 9) (tag : BitVec 12) (seq : BitVec 16) (k : CmdKey) (o : OpenCmd) (x : State), Running s
      t ∧ k = keyOf q tag seq ∧ openCmd t k = some o ∧ o.deadline ≤ t.elapsed ∧ chainOf t k = none ∧ x = finish k (.st
      stTimeout) (keCut stTimeout k t)) ∧
    (∃ (s t : State) (q : Fin 9) (tag : BitVec 12) (seq : BitVec 16) (o : OpenCmd) (n : Nat), Running s t ∧ openCmd t
      (keyOf q tag seq) = some o ∧ o.deadline ≤ t.elapsed ∧ chainOf t (keyOf q tag seq) = some n) ∧
    (∃ (s t : State) (q : Fin 9) (tag : BitVec 12) (seq : BitVec 16) (k : CmdKey), Running s t ∧ k = keyOf q tag seq ∧
      t.cmd.expired.contains k = true) ∧
    (∃ (s t : State) (core : Fin 4), Running s t ∧ t.sys.fwRunning = true) ∧
    (∃ (s t : State), Running s t ∧ t.sys.fwRestarting = true ∧ t.sys.fwActivate = none) ∧
    (∃ (s t : State) (k : CmdKey) (x : State), Running s t ∧ t.sys.fwRestarting = true ∧ t.sys.fwActivate = some k ∧ x
      = firmwareSwitched t) ∧
    (∃ (s t : State) (o : FlashOp) (rest : List FlashOp), Running s t ∧ t.flash.ops = o :: rest ∧ o.kind = .fwChunk ∧
      o.aux ≠ 1) ∧
    (∃ (s t : State) (o : FlashOp) (rest : List FlashOp), Running s t ∧ t.flash.ops = o :: rest ∧ o.kind =
      .bootRecord) ∧
    (∃ (s t : State) (q : Fin 8) (op : BitVec 16) (p : Packet) (x : Refuse), Running s t ∧ fetching t = true ∧
      nextVisit t = some q.val ∧ (getQ t q.val).retry = .again ∧ p.q.val = q.val ∧ p.paramInline = false ∧ checkLen
      op.toNat p = some x) ∧
    (∃ (s t : State) (q : Fin 8) (x : BitVec 16 × Packet), Running s t ∧ fetching t = true ∧ nextVisit t = some q.val) ∧
    (∃ (s t : State) (o : FlashOp) (rest : List FlashOp), Running s t ∧ t.flash.ops = o :: rest ∧ o.kind = .fwChunk ∧
      o.aux2 = t.flash.updateSeq) ∧
    (∃ (s t : State) (o : FlashOp) (rest : List FlashOp), Running s t ∧ t.flash.ops = o :: rest ∧ o.kind = .fwChunk ∧
      o.aux2 ≠ t.flash.updateSeq) ∧
    (∃ (s t : State) (o : FlashOp) (rest : List FlashOp), Running s t ∧ t.flash.ops = o :: rest ∧ o.kind = .fwChunk ∧
      o.aux = 1) ∧
    (∃ (s t : State) (o : FlashOp) (rest : List FlashOp) (x : State), Running s t ∧ t.flash.ops = o :: rest ∧ o.kind =
      .bootRecord ∧ recWrite 0 0x1000 o.aux t = some x ∧ o.aux2 ≠ 1) ∧
    (∃ (s t : State) (o : FlashOp) (rest : List FlashOp) (x : State), Running s t ∧ t.flash.ops = o :: rest ∧ o.kind =
      .bootRecord ∧ recWrite 0 0x1000 o.aux t = some x ∧ (o.owner.bind (openCmd (flashEnded 0 x))).isSome = false) ∧
    (∃ (s t : State) (o : FlashOp) (rest : List FlashOp) (x : State), Running s t ∧ t.flash.ops = o :: rest ∧ o.kind =
      .bootRecord ∧ recWrite 0 0x1000 o.aux t = some x ∧ o.aux2 = 1 ∧ (o.owner.bind (openCmd (flashEnded 0 x))).isSome
      = true) :=
  ⟨⟨base, _, 0, running_of (by decide +kernel), by decide +kernel⟩,
    ⟨updQ 0 (fun u => { u with retry := .again }) base, _, 0, running_of (by decide +kernel), by decide +kernel⟩,
    ⟨updQ 0 (fun u => { u with retry := .again }) base, _, 0, BitVec.ofNat 16 infoDmJoin.op, pk infoDmJoin.op 0
      joinBytes, running_of (by decide +kernel), by decide +kernel⟩,
    ⟨updQ 0 (fun u => { u with retry := .again }) base, _, 0, running_of (by decide +kernel), by decide +kernel⟩,
    ⟨updQ 0 (fun u => { u with retry := .last }) base, _, 0, running_of (by decide +kernel), by decide +kernel⟩,
    ⟨{ base with cmd := { (base).cmd with held := [{ q := 0, cpl := {}, timed := false }] } }, _, 0, {
        q := 0, cpl := {}, timed := false }, running_of (by decide +kernel), by decide +kernel⟩,
    ⟨updQ 0 (fun u => { u with unsignalled := 1, coalTime := 1, coalStart := some 0 }) base, _, 0, running_of
      (by decide +kernel), by decide +kernel⟩,
    ⟨{ base with cmd := { (base).cmd with opens := [open0] } }, _, 0, 7, 7, _, open0, _, running_of
      (by decide +kernel), rfl, by decide +kernel, by decide +kernel, by decide +kernel, rfl⟩,
    ⟨{ (withCh (some { q := 0, tag := 7, seq := 7 })) with cmd := {
          ((withCh (some { q := 0, tag := 7, seq := 7 }))).cmd with opens := [open0] } }, _, 0, 7, 7, open0, 15,
      running_of (by decide +kernel), by decide +kernel⟩,
    ⟨{ base with cmd := { (base).cmd with expired := [{ q := 0, tag := 7, seq := 7 }] } }, _, 0, 7, 7, _, running_of
      (by decide +kernel), rfl, by decide +kernel⟩,
    ⟨base, _, 0, running_of (by decide +kernel), by decide +kernel⟩,
    ⟨{ base with sys := { (base).sys with fwRestarting := true } }, _, running_of (by decide +kernel),
      by decide +kernel⟩,
    ⟨{ base with
        sys := { (base).sys with fwRestarting := true, fwActivate := some { q := 0, tag := 7, seq := 7 } } }, _, {
        q := 0, tag := 7, seq := 7 }, _, running_of (by decide +kernel), by decide +kernel, by decide +kernel, rfl⟩,
    ⟨{ base with flash := { (base).flash with ops := [{ kind := .fwChunk }] } }, _, { kind := .fwChunk }, [],
      running_of (by decide +kernel), by decide +kernel⟩,
    ⟨{ base with flash := { (base).flash with ops := [{ kind := .bootRecord }] } }, _, { kind := .bootRecord }, [],
      running_of (by decide +kernel), by decide +kernel⟩,
    ⟨updQ 0 (fun u => { u with retry := .again }) base, _, 0, 0, pk 0 0 (zeros 4097), (checkLen 0 (pk 0 0 (zeros
      4097))).getD { step := 0, st := 0 }, running_of (by decide +kernel), by decide +kernel⟩,
    ⟨updQ 0 (fun u => { u with retry := .late }) base, _, 0, (0, pk 0 0 []), running_of (by decide +kernel),
      by decide +kernel⟩,
    ⟨{ base with flash := { (base).flash with ops := [{ kind := .fwChunk }] } }, _, { kind := .fwChunk }, [],
      running_of (by decide +kernel), by decide +kernel⟩,
    ⟨{ base with flash := { (base).flash with ops := [{ kind := .fwChunk, aux2 := 5 }] } }, _, {
        kind := .fwChunk, aux2 := 5 }, [], running_of (by decide +kernel), by decide +kernel⟩,
    ⟨{ base with flash := { (base).flash with ops := [{ kind := .fwChunk, aux := 1 }] } }, _, {
        kind := .fwChunk, aux := 1 }, [], running_of (by decide +kernel), by decide +kernel⟩,
    ⟨{ base with flash := { (base).flash with ops := [{ kind := .bootRecord }] } }, _, { kind := .bootRecord }, [],
      (recWrite 0 0x1000 0 ({ base with flash := { (base).flash with ops := [{ kind := .bootRecord }] } })).getD base,
      running_of (by decide +kernel), by decide +kernel, by decide +kernel, some_getD (by decide +kernel),
      by decide +kernel⟩,
    ⟨{ base with flash := { (base).flash with ops := [{ kind := .bootRecord, aux2 := 1 }] } }, _, {
        kind := .bootRecord, aux2 := 1 }, [], (recWrite 0 0x1000 0 ({ base with
        flash := { (base).flash with ops := [{ kind := .bootRecord, aux2 := 1 }] } })).getD base, running_of
      (by decide +kernel), by decide +kernel, by decide +kernel, some_getD (by decide +kernel), by decide +kernel⟩,
    ⟨brOpen, _, brOp, [], (recWrite 0 0x1000 0 brOpen).getD base, running_of (by decide +kernel), by decide +kernel,
      by decide +kernel, some_getD (by decide +kernel), by decide +kernel⟩⟩

theorem witness_RegisterAccessesAct :
    (∃ (s t : State) (q : Fin 8) (v : BitVec 32), Awake s t ∧ t.sys.perst = false ∧ t.sys.ready = true ∧ (getQ t
      q.val).enabled = true ∧ v.toNat % 65536 < 2 ^ (getQ t q.val).sqLog2) ∧
    (∃ (s t : State) (q : Fin 8) (v : BitVec 32), Awake s t ∧ t.sys.perst = false ∧ t.sys.ready = true ∧ ((getQ t
      q.val).enabled = false ∨ 2 ^ (getQ t q.val).sqLog2 ≤ v.toNat % 65536)) ∧
    (∃ (s t : State) (q : Fin 8) (v : BitVec 32) (n : Nat), Awake s t ∧ t.sys.perst = false ∧ t.sys.ready = true ∧
      (getQ t q.val).enabled = true ∧ n = 2 ^ (getQ t q.val).cqLog2 ∧ v.toNat % 65536 < n ∧ (v.toNat % 65536 + n -
      (getQ t q.val).cqHead) % n ≤ ((getQ t q.val).cqTail + n - (getQ t q.val).cqHead) % n) ∧
    (∃ (s t : State) (q : Fin 8) (x : State), Awake s t ∧ t.sys.perst = false ∧ t.pwr.state ≠ 1 ∧ t.sys.ready = true ∧
      (getQ t q.val).enabled = false ∧ 4 ≤ (getQ t q.val).sqLog2 ∧ (getQ t q.val).sqLog2 ≤ 12 ∧ 4 ≤ (getQ t
      q.val).cqLog2 ∧ (getQ t q.val).cqLog2 ≤ 12 ∧ (getQ t q.val).sqBase % 4096 = 0 ∧ (getQ t q.val).cqBase % 4096 = 0
      ∧ x = updQ q.val (fun u => { u with
        enabled := true, sqLatch := none, cqLatch := none, sqTail := 0, sqHead := 0, cqHead := 0, cqTail := 0, phase
          := true, unsignalled := 0, coalStart := none, retry := .none_ }) t) ∧
    (∃ (s t : State) (q : Fin 8), Awake s t ∧ t.sys.perst = false ∧ t.pwr.state ≠ 1 ∧ t.sys.ready = true) ∧
    (∃ (s t : State) (q : Fin 8) (v : BitVec 32), Awake s t ∧ t.sys.perst = false ∧ t.pwr.state ≠ 1 ∧ t.sys.ready =
      true ∧ (getQ t q.val).enabled = false ∧ (getQ t q.val).unsignalled = 0) ∧
    (∃ (s t : State) (q : Fin 8) (v : BitVec 32), Awake s t ∧ t.sys.perst = false ∧ t.pwr.state ≠ 1 ∧ t.sys.ready =
      true ∧ (getQ t q.val).enabled = false) ∧
    (∃ (s t : State) (q : Fin 8) (v : BitVec 32), Awake s t ∧ t.sys.perst = false ∧ t.pwr.state ≠ 1 ∧ t.sys.ready =
      true ∧ (getQ t q.val).enabled = false) ∧
    (∃ (s t : State) (q : Fin 8) (v : BitVec 32), Awake s t ∧ t.sys.perst = false ∧ t.pwr.state ≠ 1 ∧ t.sys.ready =
      true ∧ (getQ t q.val).enabled = false) ∧
    (∃ (s t : State) (q : Fin 8) (v : BitVec 32), Awake s t ∧ t.sys.perst = false ∧ t.pwr.state ≠ 1 ∧ t.sys.ready =
      true ∧ (getQ t q.val).enabled = false) ∧
    (∃ (s t : State) (v : BitVec 32), Awake s t ∧ t.sys.perst = false ∧ t.pwr.state ≠ 1 ∧ t.sys.locked = false ∧
      v.toNat % 2 = 1) ∧
    (∃ (s t : State) (v : BitVec 32), Awake s t ∧ t.sys.perst = false ∧ t.pwr.state ≠ 1 ∧ t.sys.locked = true) ∧
    (∃ (s t : State) (v : BitVec 32), Awake s t ∧ t.sys.perst = false ∧ t.pwr.state ≠ 1 ∧ t.boot.stage = 7 ∧ v.toNat ≠
      0) ∧
    (∃ (s t : State) (v : BitVec 32), Awake s t ∧ t.sys.perst = false ∧ t.pwr.state ≠ 1) ∧
    (∃ (s t : State) (v : BitVec 32), Awake s t ∧ t.sys.perst = false ∧ t.pwr.state ≠ 1 ∧ (ringSlots t = 0 ∨ v.toNat %
      1024 < ringSlots t)) ∧
    (∃ (s t : State) (n : Fin 2048), Awake s t ∧ t.sys.perst = false ∧ t.pwr.state ≠ 1) ∧
    (∃ (s t : State) (n : Fin 2048) (x : State), Awake s t ∧ t.pwr.state ≠ 1 ∧ x = beginWake 2 0 t) ∧
    (∃ (s t : State), Awake s t ∧ t.sys.perst = false ∧ t.pwr.state ≠ 1) ∧
    (∃ (s t : State) (x : State), Awake s t ∧ t.pwr.state ≠ 1 ∧ x = beginWake 2 0 t) ∧
    (∃ (s t : State) (k : Fin 8) (v : BitVec 32), Awake s t ∧ t.sys.perst = false ∧ t.pwr.state ≠ 1) ∧
    (∃ (s t : State) (k : Fin 64) (v : BitVec 32), Awake s t ∧ t.sys.perst = false ∧ t.pwr.state ≠ 1) ∧
    (∃ (s t : State) (addr : BitVec 26) (v : BusWrite), Awake s t ∧ t.sys.perst = false ∧ t.pwr.state ≠ 1 ∧
      stagingClosed addr.toNat t = false ∧ addr.toNat % 4 = 0) ∧
    (∃ (s t : State) (addr : BitVec 26) (v : BusWrite), Awake s t ∧ t.sys.perst = false ∧ t.pwr.state ≠ 1 ∧
      stagingClosed addr.toNat t = false ∧ addr.toNat % 8 = 0) ∧
    (∃ (s t : State) (addr : BitVec 26) (v : BusWrite), Awake s t ∧ t.sys.perst = false ∧ t.pwr.state ≠ 1 ∧
      stagingClosed addr.toNat t = false) ∧
    (∃ (s t : State) (addr : BitVec 26) (v : BusWrite), Awake s t ∧ t.sys.perst = false ∧ t.pwr.state ≠ 1 ∧
      stagingClosed addr.toNat t = false) ∧
    (∃ (s t : State) (addr : BitVec 32) (bytes : Bytes), Awake s t ∧ t.pwr.state ≠ 1 ∧ addr.toNat < 2 ^ 31) ∧
    (∃ (s t : State) (addr : BitVec 32) (bytes : Bytes), Awake s t ∧ t.pwr.state ≠ 1 ∧ 2 ^ 31 ≤ addr.toNat) ∧
    (∃ (s t : State) (addr : BitVec 32) (n : Nat), Awake s t ∧ t.pwr.state ≠ 1 ∧ addr.toNat < 2 ^ 31) ∧
    (∃ (s t : State) (addr : BitVec 32) (n : Nat), Awake s t ∧ t.pwr.state ≠ 1 ∧ 2 ^ 31 ≤ addr.toNat) ∧
    (∃ (s t : State) (x : State), Awake s t ∧ t.pwr.state ≠ 1 ∧ x = beginWake 2 0 t) ∧
    (∃ (s t : State) (x : State), Awake s t ∧ t.pwr.state ≠ 1 ∧ x = beginWake 2 0 t ∧ x.cmd.mb.busy = false ∧
      x.sys.ready = true) ∧
    (∃ (s t : State) (q : Fin 8) (v : BitVec 32), Awake s t ∧ t.sys.perst = false ∧ t.sys.ready = false) ∧
    (∃ (s t : State) (q : Fin 8) (v : BitVec 32), Awake s t ∧ t.sys.perst = false ∧ t.sys.ready = false) ∧
    (∃ (s t : State) (q : Fin 8), Awake s t ∧ t.sys.perst = false ∧ t.pwr.state ≠ 1 ∧ t.sys.ready = false) ∧
    (∃ (s t : State) (q : Fin 8), Awake s t ∧ t.sys.perst = false ∧ t.pwr.state ≠ 1 ∧ t.sys.ready = false) ∧
    (∃ (s t : State) (q : Fin 8) (v : BitVec 32), Awake s t ∧ t.sys.perst = false ∧ t.pwr.state ≠ 1 ∧ t.sys.ready =
      false) ∧
    (∃ (s t : State) (q : Fin 8) (cq : Bool) (v : BitVec 32), Awake s t ∧ t.sys.perst = false ∧ t.pwr.state ≠ 1 ∧
      t.sys.ready = false) ∧
    (∃ (s t : State) (q : Fin 8) (cq : Bool) (v : BitVec 32), Awake s t ∧ t.sys.perst = false ∧ t.pwr.state ≠ 1 ∧
      t.sys.ready = false) ∧
    (∃ (s t : State) (q : Fin 8) (v : BitVec 32), Awake s t ∧ t.sys.perst = true) ∧
    (∃ (s t : State) (q : Fin 8) (v : BitVec 32), Awake s t ∧ t.sys.perst = true) ∧
    (∃ (s t : State) (q : Fin 8), Awake s t ∧ t.sys.perst = true) ∧
    (∃ (s t : State) (q : Fin 8), Awake s t ∧ t.sys.perst = true) ∧
    (∃ (s t : State) (q : Fin 8) (v : BitVec 32), Awake s t ∧ t.sys.perst = true) ∧
    (∃ (s t : State) (q : Fin 8) (cq : Bool) (v : BitVec 32), Awake s t ∧ t.sys.perst = true) ∧
    (∃ (s t : State) (q : Fin 8) (cq : Bool) (v : BitVec 32), Awake s t ∧ t.sys.perst = true) ∧
    (∃ (s t : State) (v : BitVec 32), Awake s t ∧ t.sys.perst = true) ∧
    (∃ (s t : State) (v : BitVec 32), Awake s t ∧ t.sys.perst = true) ∧
    (∃ (s t : State) (v : BitVec 32), Awake s t ∧ t.sys.perst = true) ∧
    (∃ (s t : State) (v : BitVec 32), Awake s t ∧ t.sys.perst = true) ∧
    (∃ (s t : State) (n : Fin 2048), Awake s t ∧ t.sys.perst = true) ∧
    (∃ (s t : State), Awake s t ∧ t.sys.perst = true) ∧
    (∃ (s t : State) (k : Fin 8) (v : BitVec 32), Awake s t ∧ t.sys.perst = true) ∧
    (∃ (s t : State) (k : Fin 64) (v : BitVec 32), Awake s t ∧ t.sys.perst = true) ∧
    (∃ (s t : State) (addr : BitVec 26) (size : AccSize) (v : BusWrite), Awake s t ∧ t.sys.perst = true) ∧
    (∃ (s t : State) (q : Fin 8) (v : BitVec 32) (n : Nat), Awake s t ∧ t.sys.perst = false ∧ t.sys.ready = true ∧ n =
      2 ^ (getQ t q.val).cqLog2 ∧ ((getQ t q.val).enabled = false ∨ n ≤ v.toNat % 65536 ∨ ((getQ t q.val).cqTail + n -
      (getQ t q.val).cqHead) % n < (v.toNat % 65536 + n - (getQ t q.val).cqHead) % n)) ∧
    (∃ (s t : State) (q : Fin 8), Awake s t ∧ t.sys.perst = false ∧ t.pwr.state ≠ 1 ∧ t.sys.ready = true ∧ (getQ t
      q.val).enabled = true) ∧
    (∃ (s t : State) (q : Fin 8), Awake s t ∧ t.sys.perst = false ∧ t.pwr.state ≠ 1 ∧ t.sys.ready = true ∧ (getQ t
      q.val).enabled = false ∧ ((getQ t q.val).sqLog2 < 4 ∨ 12 < (getQ t q.val).sqLog2 ∨ (getQ t q.val).cqLog2 < 4 ∨
      12 < (getQ t q.val).cqLog2 ∨ (getQ t q.val).sqBase % 4096 ≠ 0 ∨ (getQ t q.val).cqBase % 4096 ≠ 0)) ∧
    (∃ (s t : State) (q : Fin 8) (v : BitVec 32) (x : State), Awake s t ∧ t.sys.perst = false ∧ t.pwr.state ≠ 1 ∧
      t.sys.ready = true ∧ (getQ t q.val).enabled = false ∧ ¬ ((getQ t q.val).unsignalled ≠ 0 ∧ max 1 (bits v.toNat 23
      16) ≤ (getQ t q.val).unsignalled) ∧ x = updQ q.val (fun u => { u with
        sqLog2 := if u.enabled then u.sqLog2 else v.toNat % 16, cqLog2 := if u.enabled then u.cqLog2 else bits v.toNat
          7 4, vector := bits v.toNat 13 8, coalCount := bits v.toNat 23 16, coalTime := bits v.toNat 31 24 }) t) ∧
    (∃ (s t : State) (q : Fin 8) (v : BitVec 32) (x : State), Awake s t ∧ t.sys.perst = false ∧ t.pwr.state ≠ 1 ∧
      t.sys.ready = true ∧ (getQ t q.val).enabled = false ∧ (getQ t q.val).unsignalled ≠ 0 ∧ max 1 (bits v.toNat 23
      16) ≤ (getQ t q.val).unsignalled ∧ x = updQ q.val (fun u => { u with
        sqLog2 := if u.enabled then u.sqLog2 else v.toNat % 16, cqLog2 := if u.enabled then u.cqLog2 else bits v.toNat
          7 4, vector := bits v.toNat 13 8, coalCount := bits v.toNat 23 16, coalTime := bits v.toNat 31 24 }) t) ∧
    (∃ (s t : State) (q : Fin 8) (v : BitVec 32) (x : State), Awake s t ∧ t.sys.perst = false ∧ t.pwr.state ≠ 1 ∧
      t.sys.ready = true ∧ (getQ t q.val).enabled = true ∧ ¬ ((getQ t q.val).unsignalled ≠ 0 ∧ max 1 (bits v.toNat 23
      16) ≤ (getQ t q.val).unsignalled) ∧ v.toNat % 256 ≠ (getQ t q.val).sqLog2 + 16 * (getQ t q.val).cqLog2 ∧ x =
      updQ q.val (fun u => { u with
        sqLog2 := if u.enabled then u.sqLog2 else v.toNat % 16, cqLog2 := if u.enabled then u.cqLog2 else bits v.toNat
          7 4, vector := bits v.toNat 13 8, coalCount := bits v.toNat 23 16, coalTime := bits v.toNat 31 24 }) t) ∧
    (∃ (s t : State) (q : Fin 8) (v : BitVec 32) (x : State), Awake s t ∧ t.sys.perst = false ∧ t.pwr.state ≠ 1 ∧
      t.sys.ready = true ∧ (getQ t q.val).enabled = true ∧ ¬ ((getQ t q.val).unsignalled ≠ 0 ∧ max 1 (bits v.toNat 23
      16) ≤ (getQ t q.val).unsignalled) ∧ v.toNat % 256 = (getQ t q.val).sqLog2 + 16 * (getQ t q.val).cqLog2 ∧ x =
      updQ q.val (fun u => { u with
        sqLog2 := if u.enabled then u.sqLog2 else v.toNat % 16, cqLog2 := if u.enabled then u.cqLog2 else bits v.toNat
          7 4, vector := bits v.toNat 13 8, coalCount := bits v.toNat 23 16, coalTime := bits v.toNat 31 24 }) t) ∧
    (∃ (s t : State) (q : Fin 8) (v : BitVec 32) (x : State), Awake s t ∧ t.sys.perst = false ∧ t.pwr.state ≠ 1 ∧
      t.sys.ready = true ∧ (getQ t q.val).enabled = true ∧ (getQ t q.val).unsignalled ≠ 0 ∧ max 1 (bits v.toNat 23 16)
      ≤ (getQ t q.val).unsignalled ∧ v.toNat % 256 ≠ (getQ t q.val).sqLog2 + 16 * (getQ t q.val).cqLog2 ∧ x = updQ
      q.val (fun u => { u with
        sqLog2 := if u.enabled then u.sqLog2 else v.toNat % 16, cqLog2 := if u.enabled then u.cqLog2 else bits v.toNat
          7 4, vector := bits v.toNat 13 8, coalCount := bits v.toNat 23 16, coalTime := bits v.toNat 31 24 }) t) ∧
    (∃ (s t : State) (q : Fin 8) (v : BitVec 32) (x : State), Awake s t ∧ t.sys.perst = false ∧ t.pwr.state ≠ 1 ∧
      t.sys.ready = true ∧ (getQ t q.val).enabled = true ∧ (getQ t q.val).unsignalled ≠ 0 ∧ max 1 (bits v.toNat 23 16)
      ≤ (getQ t q.val).unsignalled ∧ v.toNat % 256 = (getQ t q.val).sqLog2 + 16 * (getQ t q.val).cqLog2 ∧ x = updQ
      q.val (fun u => { u with
        sqLog2 := if u.enabled then u.sqLog2 else v.toNat % 16, cqLog2 := if u.enabled then u.cqLog2 else bits v.toNat
          7 4, vector := bits v.toNat 13 8, coalCount := bits v.toNat 23 16, coalTime := bits v.toNat 31 24 }) t) ∧
    (∃ (s t : State) (q : Fin 8) (cq : Bool) (v : BitVec 32), Awake s t ∧ t.sys.perst = false ∧ t.pwr.state ≠ 1 ∧
      t.sys.ready = true ∧ (getQ t q.val).enabled = true) ∧
    (∃ (s t : State) (q : Fin 8) (v : BitVec 32), Awake s t ∧ t.sys.perst = false ∧ t.pwr.state ≠ 1 ∧ t.sys.ready =
      true ∧ (getQ t q.val).enabled = true) ∧
    (∃ (s t : State) (q : Fin 8) (v : BitVec 32), Awake s t ∧ t.sys.perst = false ∧ t.pwr.state ≠ 1 ∧ t.sys.ready =
      true ∧ (getQ t q.val).enabled = true) ∧
    (∃ (s t : State) (v : BitVec 32), Awake s t ∧ t.sys.perst = false ∧ t.pwr.state ≠ 1 ∧ t.sys.locked = false ∧
      v.toNat % 2 = 0) ∧
    (∃ (s t : State) (v : BitVec 32), Awake s t ∧ t.sys.perst = false ∧ t.pwr.state ≠ 1 ∧ t.boot.stage = 7 ∧ v.toNat =
      0) ∧
    (∃ (s t : State) (v : BitVec 32), Awake s t ∧ t.sys.perst = false ∧ t.pwr.state ≠ 1 ∧ t.boot.stage ≠ 7) ∧
    (∃ (s t : State) (v : BitVec 32), Awake s t ∧ t.sys.perst = false ∧ t.pwr.state ≠ 1 ∧ ringSlots t ≠ 0 ∧ ringSlots
      t ≤ v.toNat % 1024) ∧
    (∃ (s t : State) (addr : BitVec 26) (size : AccSize) (v : BusWrite), Awake s t ∧ t.sys.perst = false ∧ t.pwr.state
      ≠ 1 ∧ stagingClosed addr.toNat t = true) ∧
    (∃ (s t : State) (addr : BitVec 26) (v : BusWrite), Awake s t ∧ t.sys.perst = false ∧ t.pwr.state ≠ 1 ∧
      stagingClosed addr.toNat t = false ∧ addr.toNat % 4 ≠ 0) ∧
    (∃ (s t : State) (addr : BitVec 26) (v : BusWrite), Awake s t ∧ t.sys.perst = false ∧ t.pwr.state ≠ 1 ∧
      stagingClosed addr.toNat t = false ∧ addr.toNat % 8 ≠ 0) ∧
    (∃ (s t : State) (addr : BitVec 32) (bytes : Bytes), Awake s t ∧ t.pwr.state = 1) ∧
    (∃ (s t : State) (addr : BitVec 32) (n : Nat), Awake s t ∧ t.pwr.state = 1) ∧
    (∃ (s t : State), Awake s t ∧ t.pwr.state = 1) ∧
    (∃ (s t : State), Awake s t ∧ t.pwr.state = 1) ∧
    (∃ (s t : State) (x : State), Awake s t ∧ t.pwr.state ≠ 1 ∧ x = beginWake 2 0 t ∧ (x.cmd.mb.busy = true ∨
      x.sys.ready = false)) ∧
    (∃ (s t : State) (n : Fin 2048), Awake s t ∧ t.pwr.state = 1) ∧
    (∃ (s t : State), Awake s t ∧ t.pwr.state = 1) :=
  ⟨⟨base, _, 0, 1, awake_of (by decide +kernel), by decide +kernel⟩,
    ⟨base, _, 0, 0xFFFF, awake_of (by decide +kernel), by decide +kernel⟩,
    ⟨base, _, 0, 0, _, awake_of (by decide +kernel), by decide +kernel, by decide +kernel, by decide +kernel, rfl,
      by decide +kernel⟩,
    ⟨updQ 1 (fun u => { u with sqLog2 := 4, cqLog2 := 12 }) base, _, 1, _, awake_of (by decide +kernel),
      by refine ⟨?_, ?_, ?_, ?_, ?_, ?_, ?_, ?_, ?_, ?_, rfl⟩ <;> decide +kernel⟩,
    ⟨base, _, 0, awake_of (by decide +kernel), by decide +kernel⟩,
    ⟨base, _, 1, 0, awake_of (by decide +kernel), by decide +kernel⟩,
    ⟨base, _, 1, 0, awake_of (by decide +kernel), by decide +kernel⟩,
    ⟨base, _, 1, 0, awake_of (by decide +kernel), by decide +kernel⟩,
    ⟨base, _, 1, 0, awake_of (by decide +kernel), by decide +kernel⟩,
    ⟨base, _, 1, 0, awake_of (by decide +kernel), by decide +kernel⟩,
    ⟨base, _, 1, awake_of (by decide +kernel), by decide +kernel⟩,
    ⟨{ base with sys := { (base).sys with locked := true } }, _, 1, awake_of (by decide +kernel), by decide +kernel⟩,
    ⟨{ base with boot := { (base).boot with stage := 7 } }, _, 1, awake_of (by decide +kernel), by decide +kernel⟩,
    ⟨base, _, 0, awake_of (by decide +kernel), by decide +kernel⟩,
    ⟨base, _, 0, awake_of (by decide +kernel), by decide +kernel⟩,
    ⟨base, _, 0, awake_of (by decide +kernel), by decide +kernel⟩,
    ⟨base, _, 0, _, awake_of (by decide +kernel), by decide +kernel, rfl⟩,
    ⟨base, _, awake_of (by decide +kernel), by decide +kernel⟩,
    ⟨base, _, _, awake_of (by decide +kernel), by decide +kernel, rfl⟩,
    ⟨base, _, 0, 0, awake_of (by decide +kernel), by decide +kernel⟩,
    ⟨base, _, 0, 0, awake_of (by decide +kernel), by decide +kernel⟩,
    ⟨base, _, 0, { value := 0 }, awake_of (by decide +kernel), by decide +kernel⟩,
    ⟨base, _, 0, { value := 0 }, awake_of (by decide +kernel), by decide +kernel⟩,
    ⟨base, _, 0, { value := 0 }, awake_of (by decide +kernel), by decide +kernel⟩,
    ⟨base, _, 0, { value := 0 }, awake_of (by decide +kernel), by decide +kernel⟩,
    ⟨base, _, 0x7FFFFFFF, [], awake_of (by decide +kernel), by decide +kernel⟩,
    ⟨base, _, 0x80000000, [], awake_of (by decide +kernel), by decide +kernel⟩,
    ⟨base, _, 0x7FFFFFFF, 1, awake_of (by decide +kernel), by decide +kernel⟩,
    ⟨base, _, 0x80000000, 1, awake_of (by decide +kernel), by decide +kernel⟩,
    ⟨base, _, _, awake_of (by decide +kernel), by decide +kernel, rfl⟩,
    ⟨base, _, _, awake_of (by decide +kernel), by decide +kernel, rfl, by decide +kernel⟩,
    ⟨{ base with sys := { (base).sys with ready := false } }, _, 0, 1, awake_of (by decide +kernel),
      by decide +kernel⟩,
    ⟨{ base with sys := { (base).sys with ready := false } }, _, 0, 1, awake_of (by decide +kernel),
      by decide +kernel⟩,
    ⟨{ base with sys := { (base).sys with ready := false } }, _, 0, awake_of (by decide +kernel), by decide +kernel⟩,
    ⟨{ base with sys := { (base).sys with ready := false } }, _, 0, awake_of (by decide +kernel), by decide +kernel⟩,
    ⟨{ base with sys := { (base).sys with ready := false } }, _, 0, 0, awake_of (by decide +kernel),
      by decide +kernel⟩,
    ⟨{ base with sys := { (base).sys with ready := false } }, _, 0, true, 0, awake_of (by decide +kernel),
      by decide +kernel⟩,
    ⟨{ base with sys := { (base).sys with ready := false } }, _, 0, true, 0, awake_of (by decide +kernel),
      by decide +kernel⟩,
    ⟨{ base with sys := { (base).sys with perst := true } }, _, 0, 1, awake_of (by decide +kernel), by decide +kernel⟩,
    ⟨{ base with sys := { (base).sys with perst := true } }, _, 0, 1, awake_of (by decide +kernel), by decide +kernel⟩,
    ⟨{ base with sys := { (base).sys with perst := true } }, _, 0, awake_of (by decide +kernel), by decide +kernel⟩,
    ⟨{ base with sys := { (base).sys with perst := true } }, _, 0, awake_of (by decide +kernel), by decide +kernel⟩,
    ⟨{ base with sys := { (base).sys with perst := true } }, _, 0, 0, awake_of (by decide +kernel), by decide +kernel⟩,
    ⟨{ base with sys := { (base).sys with perst := true } }, _, 0, true, 0, awake_of (by decide +kernel),
      by decide +kernel⟩,
    ⟨{ base with sys := { (base).sys with perst := true } }, _, 0, true, 0, awake_of (by decide +kernel),
      by decide +kernel⟩,
    ⟨{ base with sys := { (base).sys with perst := true } }, _, 1, awake_of (by decide +kernel), by decide +kernel⟩,
    ⟨{ base with sys := { (base).sys with perst := true } }, _, 1, awake_of (by decide +kernel), by decide +kernel⟩,
    ⟨{ base with sys := { (base).sys with perst := true } }, _, 1, awake_of (by decide +kernel), by decide +kernel⟩,
    ⟨{ base with sys := { (base).sys with perst := true } }, _, 1, awake_of (by decide +kernel), by decide +kernel⟩,
    ⟨{ base with sys := { (base).sys with perst := true } }, _, 0, awake_of (by decide +kernel), by decide +kernel⟩,
    ⟨{ base with sys := { (base).sys with perst := true } }, _, awake_of (by decide +kernel), by decide +kernel⟩,
    ⟨{ base with sys := { (base).sys with perst := true } }, _, 0, 1, awake_of (by decide +kernel), by decide +kernel⟩,
    ⟨{ base with sys := { (base).sys with perst := true } }, _, 0, 1, awake_of (by decide +kernel), by decide +kernel⟩,
    ⟨{ base with sys := { (base).sys with perst := true } }, _, 0, .b32, { value := 1 }, awake_of (by decide +kernel),
      by decide +kernel⟩,
    ⟨base, _, 0, 0xFFFF, _, awake_of (by decide +kernel), by decide +kernel, by decide +kernel, rfl,
      by decide +kernel⟩,
    ⟨base, _, 0, awake_of (by decide +kernel), by decide +kernel⟩,
    ⟨updQ 1 (fun u => { u with sqLog2 := 13 }) base, _, 1, awake_of (by decide +kernel), by decide +kernel⟩,
    ⟨updQ 1 (fun u => { u with unsignalled := 1 }) base, _, 1, 0xFF0000, _, awake_of (by decide +kernel),
      by decide +kernel, by decide +kernel, by decide +kernel, by decide +kernel, by decide +kernel, rfl⟩,
    ⟨updQ 1 (fun u => { u with unsignalled := 1 }) base, _, 1, 0, _, awake_of (by decide +kernel), by decide +kernel,
      by decide +kernel, by decide +kernel, by decide +kernel, by decide +kernel, by decide +kernel, rfl⟩,
    ⟨base, _, 0, 0xFF, _, awake_of (by decide +kernel), by decide +kernel, by decide +kernel, by decide +kernel,
      by decide +kernel, by decide +kernel, by decide +kernel, rfl⟩,
    ⟨updQ 0 (fun u => { u with sqLog2 := 4, cqLog2 := 4 }) base, _, 0, 0x44, _, awake_of (by decide +kernel),
      by decide +kernel, by decide +kernel, by decide +kernel, by decide +kernel, by decide +kernel,
      by decide +kernel, rfl⟩,
    ⟨updQ 0 (fun u => { u with unsignalled := 1 }) base, _, 0, 0xFF, _, awake_of (by decide +kernel),
      by decide +kernel, by decide +kernel, by decide +kernel, by decide +kernel, by decide +kernel,
      by decide +kernel, by decide +kernel, rfl⟩,
    ⟨updQ 0 (fun u => { u with sqLog2 := 4, cqLog2 := 4, unsignalled := 1 }) base, _, 0, 0x44, _, awake_of
      (by decide +kernel), by decide +kernel, by decide +kernel, by decide +kernel, by decide +kernel,
      by decide +kernel, by decide +kernel, by decide +kernel, rfl⟩,
    ⟨base, _, 0, false, 1, awake_of (by decide +kernel), by decide +kernel⟩,
    ⟨base, _, 0, 1, awake_of (by decide +kernel), by decide +kernel⟩,
    ⟨base, _, 0, 1, awake_of (by decide +kernel), by decide +kernel⟩,
    ⟨base, _, 2, awake_of (by decide +kernel), by decide +kernel⟩,
    ⟨{ base with boot := { (base).boot with stage := 7 } }, _, 0, awake_of (by decide +kernel), by decide +kernel⟩,
    ⟨base, _, 1, awake_of (by decide +kernel), by decide +kernel⟩,
    ⟨setP base 0xF002 0 (1 :: 0 :: 0 :: 0 :: 4 :: zeros 11), _, 4, awake_of (by decide +kernel), by decide +kernel⟩,
    ⟨base, _, 0x1000000, .b32, { value := 1 }, awake_of (by decide +kernel), by decide +kernel⟩,
    ⟨base, _, 2, { value := 1 }, awake_of (by decide +kernel), by decide +kernel⟩,
    ⟨base, _, 4, { value := 1 }, awake_of (by decide +kernel), by decide +kernel⟩,
    ⟨{ base with pwr := { (base).pwr with state := 1 } }, _, 0, [], awake_of (by decide +kernel), by decide +kernel⟩,
    ⟨{ base with pwr := { (base).pwr with state := 1 } }, _, 0, 4, awake_of (by decide +kernel), by decide +kernel⟩,
    ⟨{ base with pwr := { (base).pwr with state := 1 } }, _, awake_of (by decide +kernel), by decide +kernel⟩,
    ⟨{ base with pwr := { (base).pwr with state := 1 } }, _, awake_of (by decide +kernel), by decide +kernel⟩,
    ⟨{ base with sys := { (base).sys with ready := false } }, _, _, awake_of (by decide +kernel), by decide +kernel,
      rfl, by decide +kernel⟩,
    ⟨{ base with pwr := { (base).pwr with state := 1 } }, _, 0, awake_of (by decide +kernel), by decide +kernel⟩,
    ⟨{ base with pwr := { (base).pwr with state := 1 } }, _, awake_of (by decide +kernel), by decide +kernel⟩⟩

theorem witness_BootRowsAct :
    (∃ (s : State) (strap : BitVec 2), s.boot.inReset = true ∧ s.pwr.tripped = false) ∧
    (∃ (s : State), s.boot.inReset = false ∧ s.pwr.tripped = false) ∧
    (∃ (s : State), s.boot.inReset = false) ∧
    (∃ (s t : State), Awake s t ∧ t.boot.stage = 1) ∧
    (∃ (s t : State), Awake s t ∧ t.boot.stage = 1) ∧
    (∃ (s t : State) (i : Nat), Awake s t ∧ t.boot.stage = 2 ∧ i = (if bootRecord t = some 1 then 1 else 0)) ∧
    (∃ (s t : State), Awake s t ∧ t.boot.stage = 3) ∧
    (∃ (s t : State), Awake s t ∧ t.boot.stage = 3 ∧ t.boot.tried = false) ∧
    (∃ (s t : State) (img : Bytes), Awake s t ∧ t.boot.stage = 4 ∧ t.boot.checking = true ∧ img = slotImage t
      t.boot.slot) ∧
    (∃ (s t : State) (img : Bytes), Awake s t ∧ t.boot.stage = 4 ∧ t.boot.checking = false ∧ t.boot.loadLen ≤ 1835008
      ∧ img = SMap.getAll (0 : Byte) t.boot.staging 0 t.boot.loadLen) ∧
    (∃ (s t : State) (engFail : BitVec 256) (coreFail : BitVec 48) (u v w x : State), Running s t ∧ t.boot.stage = 5 ∧
      u = { t with
        boot := { t.boot with stage := 6 }, sys := { t.sys with ready := true, fwRunning := true }, pwr := { t.pwr
            with state := 2, vcore := startVcore } } ∧ boardMap u = none ∧ v = domainStart (epochStart (fallowStart
      (calStart u))) ∧ w = { v with
        boot := { v.boot with calValid := v.cal.valid }, stw := { v.stw with disabled := engFail.toNat } } ∧ popcount
      256 engFail.toNat ≤ 4 ∧ x = checkCores { w with fec := { w.fec with disabled := coreFail.toNat } }) ∧
    (∃ (s t : State) (x : State), Awake s t ∧ 2 ≤ t.boot.stage ∧ t.boot.stage ≠ 0xF ∧ t.boot.xoFound = true ∧
      t.sys.deviceFault = false ∧ x = (List.range 12).foldl (fun s i => if cliOn s i then setFault i false
      (noClientData i s) else s) (setOutputs { t with
        boot := (if t.boot.stage = 6 then t.boot else { t.boot with error := 1 }), sys := { t.sys with
          deviceFault := true } }) ∧ x.pwr.move = none) ∧
    (∃ (s : State) (strap : BitVec 2), (s.boot.inReset = false ∨ s.pwr.tripped = true)) ∧
    (∃ (s : State), (s.boot.inReset = true ∨ s.pwr.tripped = true)) ∧
    (∃ (s : State), s.boot.inReset = true) ∧
    (∃ (s t : State), Awake s t ∧ t.boot.stage = 3 ∧ t.boot.tried = true) ∧
    (∃ (s t : State), Awake s t ∧ t.boot.stage = 4 ∧ t.boot.checking = false ∧ 1835008 < t.boot.loadLen) ∧
    (∃ (s t : State) (engFail : BitVec 256) (coreFail : BitVec 48) (m : Bytes) (u v w x y : State), Running s t ∧
      t.boot.stage = 5 ∧ u = { t with
        boot := { t.boot with stage := 6 }, sys := { t.sys with ready := true, fwRunning := true }, pwr := { t.pwr
            with state := 2, vcore := startVcore } } ∧ boardMap u = some m ∧ v = domainStart (epochStart (fallowStart
      (calStart (updBoot (fun b => { b with boardValid := true }) (u.setPar 0x1001 0 m))))) ∧ w = { v with
        boot := { v.boot with calValid := v.cal.valid }, stw := { v.stw with disabled := engFail.toNat } } ∧ y = (if 4
      < popcount 256 engFail.toNat then svcCause 4 w else w) ∧ x = checkCores { y with
        fec := { y.fec with disabled := coreFail.toNat } }) ∧
    (∃ (s t : State) (engFail : BitVec 256) (coreFail : BitVec 48) (u v w x : State), Running s t ∧ t.boot.stage = 5 ∧
      u = { t with
        boot := { t.boot with stage := 6 }, sys := { t.sys with ready := true, fwRunning := true }, pwr := { t.pwr
            with state := 2, vcore := startVcore } } ∧ boardMap u = none ∧ v = domainStart (epochStart (fallowStart
      (calStart u))) ∧ w = svcCause 4 { v with
        boot := { v.boot with calValid := v.cal.valid }, stw := { v.stw with disabled := engFail.toNat } } ∧ 4 <
      popcount 256 engFail.toNat ∧ x = checkCores { w with fec := { w.fec with disabled := coreFail.toNat } }) ∧
    (∃ (s t : State) (m : PwrMove) (x : State), Awake s t ∧ 2 ≤ t.boot.stage ∧ t.boot.stage ≠ 0xF ∧ t.boot.xoFound =
      true ∧ t.sys.deviceFault = false ∧ x = (List.range 12).foldl (fun s i => if cliOn s i then setFault i false
      (noClientData i s) else s) (setOutputs { t with
        boot := (if t.boot.stage = 6 then t.boot else { t.boot with error := 1 }), sys := { t.sys with
          deviceFault := true } }) ∧ x.pwr.move = some m) :=
  ⟨⟨State.reset, 0, by decide +kernel⟩,
    ⟨base, by decide +kernel⟩,
    ⟨base, by decide +kernel⟩,
    ⟨{ base with boot := { (base).boot with stage := 1 } }, _, awake_of (by decide +kernel), by decide +kernel⟩,
    ⟨{ base with boot := { (base).boot with stage := 1 } }, _, awake_of (by decide +kernel), by decide +kernel⟩,
    ⟨{ base with boot := { (base).boot with stage := 2 } }, _, _, awake_of (by decide +kernel), by decide +kernel,
      rfl⟩,
    ⟨{ base with boot := { (base).boot with stage := 3 } }, _, awake_of (by decide +kernel), by decide +kernel⟩,
    ⟨{ base with boot := { (base).boot with stage := 3 } }, _, awake_of (by decide +kernel), by decide +kernel⟩,
    ⟨{ base with boot := { (base).boot with stage := 4, checking := true } }, _, _, awake_of (by decide +kernel),
      by decide +kernel, by decide +kernel, rfl⟩,
    ⟨{ base with boot := { (base).boot with stage := 4 } }, _, _, awake_of (by decide +kernel), by decide +kernel,
      by decide +kernel, by decide +kernel, rfl⟩,
    ⟨{ base with boot := { (base).boot with stage := 5 } }, _, 0, 0, _, _, _, _, running_of (by decide +kernel),
      by decide +kernel, rfl, by decide +kernel, rfl, rfl, by decide +kernel, rfl⟩,
    ⟨base, _, _, awake_of (by decide +kernel), by decide +kernel, by decide +kernel, by decide +kernel,
      by decide +kernel, rfl, by decide +kernel⟩,
    ⟨base, 0, by decide +kernel⟩,
    ⟨State.reset, by decide +kernel⟩,
    ⟨State.reset, by decide +kernel⟩,
    ⟨{ base with boot := { (base).boot with stage := 3, tried := true } }, _, awake_of (by decide +kernel),
      by decide +kernel⟩,
    ⟨{ base with boot := { (base).boot with stage := 4, loadLen := 1835009 } }, _, awake_of (by decide +kernel),
      by decide +kernel⟩,
    ⟨flashProgram 0x8000 boardBytes ({ base with boot := { (base).boot with stage := 5 } }), _, 31, 0, zeros 64, _, _,
      _, _, _, running_of (by decide +kernel), by decide +kernel, rfl, by decide +kernel, rfl, rfl, rfl, rfl⟩,
    ⟨{ base with boot := { (base).boot with stage := 5 } }, _, 31, 0, _, _, _, _, running_of (by decide +kernel),
      by decide +kernel, rfl, by decide +kernel, rfl, rfl, by decide +kernel, rfl⟩,
    ⟨{ base with
        pwr := { (base).pwr with
          move := some {
            target := 2, want := 0, source := 0, had := 0, whisper := false, owner := none, started := 0, begun :=
              true } } }, _, {
        target := 2, want := 0, source := 0, had := 0, whisper := false, owner := none, started := 0, begun := true },
      _, awake_of (by decide +kernel), by decide +kernel, by decide +kernel, by decide +kernel, by decide +kernel,
      rfl, by decide +kernel⟩⟩

theorem witness_PowerEventsAct :
    (∃ (s t : State) (x : Int), Running s t ∧ 1000 < x ∧ x < 1050 ∧ t.pwr.tjEpoch ≠ some (t.tick / 500)) ∧
    (∃ (s t : State) (x : Int), Running s t ∧ 1050 ≤ x ∧ x < 1150 ∧ t.pwr.warn = false ∧ t.pwr.tjEpoch ≠ some (t.tick
      / 500)) ∧
    (∃ (s t : State) (x : Int), Running s t ∧ x ≤ 1000 ∧ (t.pwr.warn = true ∨ t.pwr.crit = true) ∧ t.pwr.tjEpoch ≠
      some (t.tick / 500)) ∧
    (∃ (s t : State) (faults : BitVec 8) (quiet : List (Nat × Nat × Nat)) (e : Nat × Nat × Nat) (rest : List (Nat ×
      Nat × Nat)), Running s t ∧ pmbStuck t = false ∧ railMap t = quiet ++ e :: rest ∧ (∀ x ∈ quiet, bit faults.toNat
      x.1 = false) ∧ bit faults.toNat e.1 = true) ∧
    (∃ (s t : State) (gpio : Fin 16) (falling : Bool), Awake s t ∧ bit (t.parN 0x1003 0) gpio.val = true ∧ bit (t.parN
      0x1004 0) gpio.val = falling) ∧
    (∃ (s t : State) (x : State), Awake s t ∧ t.pwr.state = 1 ∧ t.pwr.waking = true ∧ x = tmRestart (pllTo .freerun
      (voutCore startVcore true { t with pwr := { t.pwr with state := 2, waking := false } }))) ∧
    (∃ (s t : State) (pin : Fin 19), Running s t ∧ drives t pin.val = true) ∧
    (∃ (s t : State) (pin : Fin 5), Running s t ∧ drivenLow t (19 + pin.val) = true ∧ bit t.pwr.stuck (19 + pin.val) =
      false) ∧
    (∃ (t : State) (m : PwrMove), stopped t = false ∧ t.pwr.move = some m ∧ m.begun = true ∧ m.target ≠ 1 ∧ runMask t
      = m.want) ∧
    (∃ (t : State) (m : PwrMove), stopped t = false ∧ t.pwr.move = some m ∧ m.begun = true ∧ m.target = 1 ∧
      parkBlocked t = false) ∧
    (∃ (t : State) (k : Fin 8) (m : PwrMove) (e : Nat × Nat × Nat), stopped t = false ∧ t.pwr.move = some m ∧ m.begun
      = true ∧ m.had = 0 ∧ m.want ≠ 0 ∧ (railsOwned t).find? (·.1 == k.val) = some e) ∧
    (∃ (t : State) (g : GateReq), stopped t = false ∧ t.pwr.gates.find? (fun g => g.due ≤ t.elapsed) = some g) ∧
    (∃ (s t : State) (fails : Fin 4) (data : Bytes) (r : PmbReq) (rest : List PmbReq), Running s t ∧ t.pwr.pmb = r ::
      rest ∧ pmbStuck t = false ∧ fails.val ≠ 3) ∧
    (∃ (s t : State) (reads : Vector RailIn 8), Running s t ∧ t.pwr.lastTel + t.parN 0x1005 0 * 500 ≤ t.elapsed) ∧
    (∃ (s t : State) (e : Nat × Nat × Nat) (x : State), Running s t ∧ t.pwr.avsEpoch ≠ some (t.tick / 500) ∧ t.parN
      0x1000 0 ≠ 0 ∧ x = updPwr (fun p => { p with avsEpoch := some (t.tick / 500) }) t ∧ x.parN 0x1000 0 ≠ 0 ∧
      x.pwr.vcore < 780 ∧ (railMap t).find? (·.2.2 == 1) = some e ∧ pmbStuck x = false) ∧
    (∃ (s t : State) (x : Int), Running s t ∧ 1050 ≤ x ∧ x < 1150 ∧ t.pwr.warn = true ∧ t.pwr.tjEpoch ≠ some (t.tick /
      500)) ∧
    (∃ (s t : State) (x : Int), Running s t ∧ 1150 ≤ x ∧ t.pwr.warn = true ∧ t.pwr.crit = false ∧ t.pwr.tjEpoch ≠ some
      (t.tick / 500)) ∧
    (∃ (s t : State) (x : Int), Running s t ∧ 1150 ≤ x ∧ t.pwr.warn = false ∧ t.pwr.crit = false ∧ t.pwr.tjEpoch ≠
      some (t.tick / 500)) ∧
    (∃ (s t : State) (x : Int), Running s t ∧ 1150 ≤ x ∧ t.pwr.warn = true ∧ t.pwr.crit = true ∧ t.pwr.tjEpoch ≠ some
      (t.tick / 500)) ∧
    (∃ (s t : State) (x : Int), Running s t ∧ x ≤ 1000 ∧ t.pwr.warn = false ∧ t.pwr.crit = false ∧ t.pwr.tjEpoch ≠
      some (t.tick / 500)) ∧
    (∃ (s t : State) (faults : BitVec 8), Running s t ∧ pmbStuck t = false ∧ (∀ x ∈ railMap t, bit faults.toNat x.1 =
      false)) ∧
    (∃ (s t : State) (faults : BitVec 8), Running s t ∧ pmbStuck t = true) ∧
    (∃ (s t : State) (fails : Fin 4) (data : Bytes) (r : PmbReq) (rest : List PmbReq) (x : State), Running s t ∧
      t.pwr.pmb = r :: rest ∧ x = bump 74 { t with pwr := { t.pwr with pmb := rest } } ∧ (fails.val = 3 ∨ pmbStuck t =
      true)) ∧
    (∃ (s t : State) (down ok : Bool) (e : Nat × Nat × Nat) (x : State), Running s t ∧ t.pwr.avsEpoch ≠ some (t.tick /
      500) ∧ x = updPwr (fun p => { p with avsEpoch := some (t.tick / 500) }) t ∧ x.parN 0x1000 0 ≠ 0 ∧ x.pwr.vcore <
      780 ∧ (railMap t).find? (·.2.2 == 1) = some e ∧ (ok = false ∨ pmbStuck x = true)) ∧
    (∃ (s t : State) (e : Nat × Nat × Nat) (x : State), Running s t ∧ t.pwr.avsEpoch ≠ some (t.tick / 500) ∧ x =
      updPwr (fun p => { p with avsEpoch := some (t.tick / 500) }) t ∧ x.parN 0x1000 0 ≠ 0 ∧ x.pwr.vcore < 780 ∧
      (railMap t).find? (·.2.2 == 1) = some e ∧ pmbStuck x = false) ∧
    (∃ (s t : State) (e : Nat × Nat × Nat) (x : State), Running s t ∧ t.pwr.avsEpoch ≠ some (t.tick / 500) ∧ x =
      updPwr (fun p => { p with avsEpoch := some (t.tick / 500) }) t ∧ x.parN 0x1000 0 ≠ 0 ∧ 620 < x.pwr.vcore ∧
      (railMap t).find? (·.2.2 == 1) = some e ∧ pmbStuck x = false) ∧
    (∃ (s t : State) (down ok : Bool) (x : State), Running s t ∧ t.pwr.avsEpoch ≠ some (t.tick / 500) ∧ x = updPwr
      (fun p => { p with avsEpoch := some (t.tick / 500) }) t ∧ x.parN 0x1000 0 ≠ 0 ∧ 780 ≤ x.pwr.vcore ∧ (∀ k,
      x.pwr.avsLimitTick = some k → 500000 ≤ x.elapsed - k)) ∧
    (∃ (s t : State) (down ok : Bool) (x : State), Running s t ∧ t.pwr.avsEpoch ≠ some (t.tick / 500) ∧ x = updPwr
      (fun p => { p with avsEpoch := some (t.tick / 500) }) t ∧ x.parN 0x1000 0 ≠ 0 ∧ (down = false ∨ x.pwr.vcore ≤
      620)) ∧
    (∃ (s t : State) (up down : Bool) (e : Nat × Nat × Nat) (x : State), Running s t ∧ t.pwr.avsEpoch ≠ some (t.tick /
      500) ∧ x = updPwr (fun p => { p with avsEpoch := some (t.tick / 500) }) t ∧ x.parN 0x1000 0 = 0 ∧ x.pwr.vcore ≠
      startVcore ∧ (railMap t).find? (·.2.2 == 1) = some e ∧ pmbStuck x = false) ∧
    (∃ (s t : State) (x : Int), Running s t ∧ t.pwr.tjEpoch = some (t.tick / 500)) ∧
    (∃ (s t : State) (up down ok : Bool), Running s t ∧ t.pwr.avsEpoch = some (t.tick / 500)) :=
  ⟨⟨base, _, 1049, running_of (by decide +kernel), by decide +kernel⟩,
    ⟨base, _, 1050, running_of (by decide +kernel), by decide +kernel⟩,
    ⟨{ base with pwr := { (base).pwr with warn := true } }, _, 1000, running_of (by decide +kernel),
      by decide +kernel⟩,
    ⟨setP base 0x1001 0 (0x40 :: 0 :: 1 :: zeros 61), _, 1, [], (0, 0x40, 1), [], running_of (by decide +kernel),
      by decide +kernel, by decide +kernel, (fun _ h => by cases h), by decide +kernel⟩,
    ⟨setP (setP base 0x1003 0 [1, 0]) 0x1004 0 [0, 0], _, 0, false, awake_of (by decide +kernel), by decide +kernel⟩,
    ⟨{ base with pwr := { (base).pwr with state := 1, waking := true } }, _, _, awake_of (by decide +kernel),
      by decide +kernel, by decide +kernel, rfl⟩,
    ⟨base, _, 16, running_of (by decide +kernel), by decide +kernel⟩,
    ⟨base, _, 4, running_of (by decide +kernel), by decide +kernel⟩,
    ⟨{ base with
        pwr := { (base).pwr with
          move := some {
            target := 2, want := 0, source := 0, had := 0, whisper := false, owner := none, started := 0, begun :=
              true } } }, {
        target := 2, want := 0, source := 0, had := 0, whisper := false, owner := none, started := 0, begun := true },
      by decide +kernel⟩,
    ⟨{ base with
        pwr := { (base).pwr with
          move := some {
            target := 1, want := 0, source := 0, had := 0, whisper := false, owner := none, started := 0, begun :=
              true } } }, {
        target := 1, want := 0, source := 0, had := 0, whisper := false, owner := none, started := 0, begun := true },
      by decide +kernel⟩,
    ⟨{ (setP base 0x1001 0 (0x40 :: 0 :: 3 :: zeros 61)) with pwr := {
          ((setP base 0x1001 0 (0x40 :: 0 :: 3 :: zeros 61))).pwr with move := some {
            target := 4, want := 1, source := 0, had := 0, whisper := false, owner := none, started := 0, begun :=
              true } } }, 0, {
        target := 4, want := 1, source := 0, had := 0, whisper := false, owner := none, started := 0, begun := true },
      (0, 0x40, 3), by decide +kernel⟩,
    ⟨{ base with
        pwr := { (base).pwr with gates := [{ owner := none, due := 0, ungate := false, clusters := 0, cores := 0 }] }
          }, { owner := none, due := 0, ungate := false, clusters := 0, cores := 0 }, by decide +kernel⟩,
    ⟨{ base with pwr := { (base).pwr with pmb := [{ owner := {}, addr := 0, code := 0, kind := 0, data := [] }] } },
      _, 2, [], { owner := {}, addr := 0, code := 0, kind := 0, data := [] }, [], running_of (by decide +kernel),
      by decide +kernel⟩,
    ⟨base, _, Vector.replicate 8 {}, running_of (by decide +kernel), by decide +kernel⟩,
    ⟨setP (setP base 0x1001 0 (0x40 :: 0 :: 1 :: zeros 61)) 0x1000 0 [1], _, (0, 0x40, 1), _, running_of
      (by decide +kernel), by decide +kernel, by decide +kernel, rfl, by decide +kernel⟩,
    ⟨{ base with pwr := { (base).pwr with warn := true } }, _, 1149, running_of (by decide +kernel),
      by decide +kernel⟩,
    ⟨{ base with pwr := { (base).pwr with warn := true } }, _, 1150, running_of (by decide +kernel),
      by decide +kernel⟩,
    ⟨base, _, 1150, running_of (by decide +kernel), by decide +kernel⟩,
    ⟨{ base with pwr := { (base).pwr with warn := true, crit := true } }, _, 1200, running_of (by decide +kernel),
      by decide +kernel⟩,
    ⟨base, _, 1000, running_of (by decide +kernel), by decide +kernel⟩,
    ⟨setP base 0x1001 0 (0x40 :: 0 :: 1 :: zeros 61), _, 0, running_of (by decide +kernel), by decide +kernel⟩,
    ⟨{ setP base 0x1001 0 (0x40 :: 0 :: 1 :: zeros 61) with pwr := {
          (setP base 0x1001 0 (0x40 :: 0 :: 1 :: zeros 61)).pwr with stuck := 2 ^ 24 - 1 } }, _, 1, running_of
      (by decide +kernel), by decide +kernel⟩,
    ⟨{ base with pwr := { (base).pwr with pmb := [{ owner := {}, addr := 0, code := 0, kind := 0, data := [] }] } },
      _, 3, [], { owner := {}, addr := 0, code := 0, kind := 0, data := [] }, [], _, running_of (by decide +kernel),
      by decide +kernel, rfl, by decide +kernel⟩,
    ⟨setP ({ setP base 0x1001 0 (0x40 :: 0 :: 1 :: zeros 61) with pwr := {
          (setP base 0x1001 0 (0x40 :: 0 :: 1 :: zeros 61)).pwr with vcore := 700 } }) 0x1000 0 [1], _, true, false,
      (0, 0x40, 1), _, running_of (by decide +kernel), by decide +kernel, rfl, by decide +kernel⟩,
    ⟨setP ({ setP base 0x1001 0 (0x40 :: 0 :: 1 :: zeros 61) with pwr := {
          (setP base 0x1001 0 (0x40 :: 0 :: 1 :: zeros 61)).pwr with vcore := 700 } }) 0x1000 0 [1], _, (0, 0x40, 1),
      _, running_of (by decide +kernel), by decide +kernel, rfl, by decide +kernel⟩,
    ⟨setP ({ setP base 0x1001 0 (0x40 :: 0 :: 1 :: zeros 61) with pwr := {
          (setP base 0x1001 0 (0x40 :: 0 :: 1 :: zeros 61)).pwr with vcore := 621 } }) 0x1000 0 [1], _, (0, 0x40, 1),
      _, running_of (by decide +kernel), by decide +kernel, rfl, by decide +kernel⟩,
    ⟨setP ({ setP base 0x1001 0 (0x40 :: 0 :: 1 :: zeros 61) with pwr := {
          (setP base 0x1001 0 (0x40 :: 0 :: 1 :: zeros 61)).pwr with vcore := 780 } }) 0x1000 0 [1], _, true, false,
      _, running_of (by decide +kernel), by decide +kernel, rfl, by decide +kernel, by decide +kernel, fun _ h =>
      none_vac (by decide +kernel) h⟩,
    ⟨setP ({ setP base 0x1001 0 (0x40 :: 0 :: 1 :: zeros 61) with pwr := {
          (setP base 0x1001 0 (0x40 :: 0 :: 1 :: zeros 61)).pwr with vcore := 620 } }) 0x1000 0 [1], _, true, true, _,
      running_of (by decide +kernel), by decide +kernel, rfl, by decide +kernel⟩,
    ⟨setP ({ setP base 0x1001 0 (0x40 :: 0 :: 1 :: zeros 61) with pwr := {
          (setP base 0x1001 0 (0x40 :: 0 :: 1 :: zeros 61)).pwr with vcore := 781 } }) 0x1000 0 [0], _, true, false,
      (0, 0x40, 1), _, running_of (by decide +kernel), by decide +kernel, rfl, by decide +kernel, vcore_ne,
      by decide +kernel⟩,
    ⟨{ base with pwr := { (base).pwr with tjEpoch := some (base.tick / 500) } }, _, 1300, running_of
      (by decide +kernel), by decide +kernel⟩,
    ⟨{ base with pwr := { (base).pwr with avsEpoch := some (base.tick / 500) } }, _, true, false, true, running_of
      (by decide +kernel), by decide +kernel⟩⟩

theorem witness_TimingEventsAct :
    (∃ (s t : State) (r : Fin 9), Running s t ∧ qualifyDue t r.val = true) ∧
    (∃ (s t : State) (r : Fin 9), Running s t ∧ (getRef t r.val).qualified = true ∧ refHolds t r.val = false) ∧
    (∃ (s t : State) (r : Fin 9) (e : Nat), Running s t ∧ (getRef t r.val).wtrEnd = some e ∧ e ≤ t.elapsed) ∧
    (∃ (s t : State), Running s t ∧ lockDue t = true) ∧
    (∃ (s t : State), Running s t ∧ t.tm.adjActive = true ∧ t.tm.adjFs = 0) ∧
    (∃ (s t : State) (o : Fin 2), Running s t ∧ ppsDue t o.val = true) ∧
    (∃ (s t : State), Running s t ∧ bit (t.parN 0x2013 0) 0 = true ∧ t.tick % tps = 5000 ∧ t.tm.todSent ≠ some
      t.elapsed) ∧
    (∃ (s t : State) (bytes : Bytes), Running s t ∧ bit (t.parN 0x2013 0) 1 = true ∧ bytes.length = 16 ∧ slice bytes 0
      3 = [0xA5, 0x5A, 0x01] ∧ unbe (slice bytes 14 2) = todCrc (bytes.take 14)) ∧
    (∃ (s t : State) (bytes : Bytes), Running s t ∧ bit (t.parN 0x2013 0) 1 = true ∧ bytes.length ≠ 16) ∧
    (∃ (s t : State) (bytes : Bytes), Running s t ∧ bit (t.parN 0x2013 0) 1 = true ∧ (slice bytes 0 3 ≠ [0xA5, 0x5A,
      0x01] ∨ unbe (slice bytes 14 2) ≠ todCrc (bytes.take 14))) ∧
    (∃ (s t : State) (bytes : Bytes), Running s t ∧ bit (t.parN 0x2013 0) 1 = false) :=
  ⟨⟨updRef 0 (fun x => { x with present := true, goodSince := some 0 }) (setP base 0x2000 0x10 [1]), _, 0, running_of
      (by decide +kernel), by decide +kernel⟩,
    ⟨updRef 6 (fun x => { x with qualified := true }) base, _, 6, running_of (by decide +kernel), by decide +kernel⟩,
    ⟨updRef 6 (fun x => { x with wtrEnd := some 100000000 }) base, _, 6, 100000000, running_of (by decide +kernel),
      by decide +kernel⟩,
    ⟨{ base with tm := { (base).tm with sel := some 7, pll := .acquiring, inBandSince := some 0 } }, _, running_of
      (by decide +kernel), by decide +kernel⟩,
    ⟨{ base with tm := { (base).tm with adjActive := true } }, _, running_of (by decide +kernel), by decide +kernel⟩,
    ⟨updPps 0 (fun x => { x with enabled := true, waiting := true }) base, _, 0, running_of (by decide +kernel),
      by decide +kernel⟩,
    ⟨{ setP base 0x2013 0 [1] with tick := 5000 }, _, running_of (by decide +kernel), by decide +kernel⟩,
    ⟨setP base 0x2013 0 [2], _, todBytes, running_of (by decide +kernel), by decide +kernel⟩,
    ⟨setP base 0x2013 0 [2], _, [], running_of (by decide +kernel), by decide +kernel⟩,
    ⟨setP base 0x2013 0 [2], _, zeros 16, running_of (by decide +kernel), by decide +kernel⟩,
    ⟨base, _, todBytes, running_of (by decide +kernel), by decide +kernel⟩⟩

theorem witness_ReceiverTransitionsAct :
    (∃ (s t : State) (c : Line), Running s t ∧ (t.tx.get c).retune = true ∧ ((t.cal.left >>> (8 + 4 * c.ix)) % 16) =
      0) ∧
    (∃ (s t : State) (c : Line), Running s t ∧ (getRx t c).st = .signal ∧ 8 ≤ (getRx t c).above) ∧
    (∃ (s t : State) (c : Line), Running s t ∧ (getRx t c).st ≠ .off ∧ (getRx t c).st ≠ .signal ∧ 8 ≤ (getRx t
      c).below) ∧
    (∃ (s t : State) (c : Line) (coarse : Int) (best : Vector Int 3), Running s t ∧ scanDone t c = true ∧ scanFound
      (getRx t c) = (coarse, best.toList) ∧ (getRx t c).scanFixed = true) ∧
    (∃ (s t : State) (c : Line) (coarse : Int) (best : Vector Int 3) (v : Int) (rest : List Int), Running s t ∧
      scanDone t c = true ∧ scanFound (getRx t c) = (coarse, best.toList) ∧ (getRx t c).scanFixed = false ∧ bestScores
      3 (getRx t c).fine = v :: rest) ∧
    (∃ (s t : State) (c : Line), Running s t ∧ (getRx t c).st = .timing ∧ 64 ≤ (getRx t c).timingGood) ∧
    (∃ (s t : State) (c : Line), Running s t ∧ (getRx t c).st = .equalise ∧ 64 ≤ (getRx t c).cmaGood) ∧
    (∃ (s t : State) (c : Line), Running s t ∧ (getRx t c).st = .timing ∧ 5000 ≤ t.elapsed - (getRx t c).since) ∧
    (∃ (s t : State) (c : Line), Running s t ∧ (getRx t c).st = .equalise ∧ 15000 ≤ t.elapsed - (getRx t c).since) ∧
    (∃ (s t : State) (c : Line), Running s t ∧ (getRx t c).st = .pilot ∧ (getRx t c).convLost = true) ∧
    (∃ (s t : State) (c : Line) (k : Nat), Running s t ∧ (getRx t c).timer = some k ∧ ((getRx t c).st = .cdScan ∨
      (getRx t c).st = .timing ∨ (getRx t c).st = .equalise) ∧ k + t.parN 0x4011 c.inst ≤ t.elapsed ∧ mayStopTimer t c
      = false) ∧
    (∃ (s t : State) (c : Line), Running s t ∧ (getRx t c).st = .pilot ∧ 3 ≤ (getRx t c).fasRun) ∧
    (∃ (s t : State) (c : Line) (x : State), Running s t ∧ lossReason t c ≠ 0 ∧ x = leaveTracking c (lossReason t c)
      t) ∧
    (∃ (s t : State) (c : Line) (m : RxMode), Running s t ∧ (getRx t c).st = .tracking ∧ 256 ≤ (getRx t c).noConv ∧ m
      = { const := t.parN 0x4001 c.inst, k := t.parN 0x4002 c.inst, roll := t.parN 0x4003 c.inst, rate := t.parN
            0x4004 c.inst }) :=
  ⟨⟨updTx .a (fun x => { x with retune := true }) base, _, .a, running_of (by decide +kernel), by decide +kernel⟩,
    ⟨updRx .a (fun r => { r with st := .signal, above := 8 }) base, _, .a, running_of (by decide +kernel),
      by decide +kernel⟩,
    ⟨updRx .a (fun r => { r with st := .tracking, below := 8 }) base, _, .a, running_of (by decide +kernel),
      by decide +kernel⟩,
    ⟨updRx .a (fun r => { r with st := .cdScan, scanFixed := true }) base, _, .a, 0, #v[0, 0, 0], running_of
      (by decide +kernel), by decide +kernel⟩,
    ⟨updRx .a (fun r => { r with
        st := .cdScan, scanStep := 50, scores := [(0, 5)], fine := [(-50, 1), (0, 9), (50, 3)] }) base, _, .a, 0,
      #v[0, 50, -50], 0, [50, -50], running_of (by decide +kernel), by decide +kernel⟩,
    ⟨updRx .a (fun r => { r with st := .timing, timingGood := 64 }) base, _, .a, running_of (by decide +kernel),
      by decide +kernel⟩,
    ⟨updRx .a (fun r => { r with st := .equalise, cmaGood := 64 }) base, _, .a, running_of (by decide +kernel),
      by decide +kernel⟩,
    ⟨updRx .a (fun r => { r with st := .timing }) base, _, .a, running_of (by decide +kernel), by decide +kernel⟩,
    ⟨updRx .a (fun r => { r with st := .equalise }) base, _, .a, running_of (by decide +kernel), by decide +kernel⟩,
    ⟨updRx .a (fun r => { r with st := .pilot, convLost := true }) base, _, .a, running_of (by decide +kernel),
      by decide +kernel⟩,
    ⟨updRx .a (fun r => { r with st := .timing, timer := some 0 }) base, _, .a, 0, running_of (by decide +kernel),
      by decide +kernel⟩,
    ⟨updRx .a (fun r => { r with st := .pilot, fasRun := 3 }) base, _, .a, running_of (by decide +kernel),
      by decide +kernel⟩,
    ⟨updRx .a (fun r => { r with st := .tracking, freqBad := true }) base, _, .a, _, running_of (by decide +kernel),
      by decide +kernel, rfl⟩,
    ⟨updRx .a (fun r => { r with st := .tracking, noConv := 256, mode := { const := 99 } }) base, _, .a, _, running_of
      (by decide +kernel), by decide +kernel, by decide +kernel, rfl⟩⟩

theorem witness_DecoderEventsAct :
    (∃ (s t : State) (c : Line) (frame : Fin 4) (cw : Fin 256) (j : Job) (x : State), Running s t ∧ j = jobOf t c (256
      * frame.val + cw.val) ∧ inFirst t j = some true ∧ poolUntil (fun s => inFirst s j != some true) (poolRest t) t =
      some x) ∧
    (∃ (s t : State) (c : Line) (cw : Fin 1024) (j : Job) (x : State), Running s t ∧ j = jobOf t c cw.val ∧ inFirst t
      j ≠ none ∧ poolUntil (fun s => inFirst s j == some false && begun s j) (poolRest t) t = some x) ∧
    (∃ (s t : State) (c : Line) (cw : Fin 1024) (j : Job) (x : State) (o : Outcome) (bs : List Bool), Running s t ∧ j
      = jobOf t c cw.val ∧ releaseAhead t j = true ∧ poolUntil (fun s => (leaveRound s j).any fun r => r ≤
      s.fec.round) (poolRest t) t = some x ∧ cwAt x j = some (.decided o true bs)) ∧
    (∃ (s t : State) (c : Line) (cw : Fin 1024) (j : Job) (x : State) (o : Outcome) (bs : List Bool), Running s t ∧ j
      = jobOf t c cw.val ∧ releaseAhead t j = true ∧ poolUntil (fun s => (leaveRound s j).any fun r => r ≤
      s.fec.round) (poolRest t) t = some x ∧ cwAt x j = some (.decided o false bs)) ∧
    (∃ (s t : State) (core : Fin 48) (pass : Bool), Running s t ∧ coreTestDue t core.val = true) ∧
    (∃ (s t : State) (c : Line) (cw : Fin 1024) (j : Job) (x y : State) (llr : List Int) (n : Nat), Running s t ∧ j =
      jobOf t c cw.val ∧ releaseAhead t j = true ∧ poolUntil (fun s => (leaveRound s j).any fun r => r ≤ s.fec.round)
      (poolRest t) t = some x ∧ cwAt x j = some (.waiting llr n) ∧ y = firstEnds false j (if n = 0 ∧ drawAny j x =
      none then .starved else .deadline) llr n x) ∧
    (∃ (s t : State) (c : Line) (cw : Fin 1024) (j : Job) (x y : State) (o : Outcome) (llr : List Int) (bs : List
      Bool) (n : Nat) (p : Outcome) (ds : List Bool), Running s t ∧ j = jobOf t c cw.val ∧ releaseAhead t j = true ∧
      poolUntil (fun s => (leaveRound s j).any fun r => r ≤ s.fec.round) (poolRest t) t = some x ∧ cwAt x j = some
      (.failed o llr bs n) ∧ y = fecOnce j.c 5 (bump (fecCnt j.c 5) (setCw j (.decided o false bs) (noteOutcome j o
      x))) ∧ cwAt y j = some (.decided p false ds)) ∧
    (∃ (s t : State) (c : Line) (cw : Fin 1024), Running s t ∧ releaseAhead t (jobOf t c cw.val) = false) ∧
    (∃ (s t : State) (c : Line) (frame : Fin 4) (cw : Fin 256), Running s t ∧ inFirst t (jobOf t c (256 * frame.val +
      cw.val)) ≠ some true) ∧
    (∃ (s t : State) (c : Line) (cw : Fin 1024), Running s t ∧ inFirst t (jobOf t c cw.val) = none) :=
  ⟨⟨decSt (.waiting [] 6), _, .a, 0, 0, _, poolStep (decSt (.waiting [] 6)), running_of (by decide +kernel), rfl,
      by decide +kernel, poolUntil_next (by decide +kernel) (by decide +kernel) (by decide +kernel)⟩,
    ⟨decSt (.failed .limit [] [] 1), _, .a, 0, _, decSt (.failed .limit [] [] 1), running_of (by decide +kernel), rfl,
      by decide +kernel, poolUntil_now (by decide +kernel)⟩,
    ⟨decSt (.decided .converged true []), _, .a, 0, _, decSt (.decided .converged true []), .converged, [], running_of
      (by decide +kernel), rfl, by decide +kernel, poolUntil_now (by decide +kernel), by decide +kernel⟩,
    ⟨decSt (.decided .limit false []), _, .a, 0, _, decSt (.decided .limit false []), .limit, [], running_of
      (by decide +kernel), rfl, by decide +kernel, poolUntil_now (by decide +kernel), by decide +kernel⟩,
    ⟨base, _, 47, true, running_of (by decide +kernel), by decide +kernel⟩,
    ⟨decSt (.waiting [] 6), _, .a, 0, _, decSt (.waiting [] 6), _, [], 6, running_of (by decide +kernel), rfl,
      by decide +kernel, poolUntil_now (by decide +kernel), by decide +kernel, rfl⟩,
    ⟨decSt (.failed .limit [] [] 0), _, .a, 0, _, decSt (.failed .limit [] [] 0), _, .limit, [], [], 0, .limit, [],
      running_of (by decide +kernel), rfl, by decide +kernel, poolUntil_now (by decide +kernel), by decide +kernel,
      rfl, by decide +kernel⟩,
    ⟨base, _, .a, 0, running_of (by decide +kernel), by decide +kernel⟩,
    ⟨base, _, .a, 0, 0, running_of (by decide +kernel), by decide +kernel⟩,
    ⟨base, _, .a, 0, running_of (by decide +kernel), by decide +kernel⟩⟩

theorem witness_FrameEventsAct :
    (∃ (s t : State) (c : Line) (lag : Option (BitVec 32)) (f : DecFrame) (rest : List DecFrame) (m : Mode), Running s
      t ∧ (getFec t c).ready = f :: rest ∧ m = ({
        n := f.n, const := f.mode.const, k := f.mode.k, rate := f.mode.rate, roll := f.mode.roll } : Mode)) ∧
    (∃ (s t : State) (c : Line), Running s t ∧ (getFrm t c).inF = false ∧ 3 ≤ (getFrm t c).run ∧ lockInd t c = true) ∧
    (∃ (s t : State) (c : Line), Running s t ∧ (getFrm t c).inF = true ∧ (5 ≤ (getFrm t c).miss ∨ lockInd t c =
      false)) ∧
    (∃ (s t : State) (c : Line), Running s t ∧ (getFrm t c).inF = false ∧ 1500 ≤ (getFrm t c).oof) ∧
    (∃ (s t : State) (c : Line), Running s t ∧ (getFrm t c).inM = false ∧ 1500 ≤ (getFrm t c).oom) ∧
    (∃ (s t : State) (c : Line) (m : GccMsg) (rest : List GccMsg) (x : State), Running s t ∧ (getFrm t c).gcc.done = m
      :: rest ∧ x = updFrm c (fun f => { f with gcc := { f.gcc with done := rest } }) t ∧ m.chan ≠ 2 ∧ (getFrm x
      c).gcc.queue.length < 16) ∧
    (∃ (s t : State) (c : Line) (m : GccMsg) (rest : List GccMsg) (x : State), Running s t ∧ (getFrm t c).gcc.done = m
      :: rest ∧ x = updFrm c (fun f => { f with gcc := { f.gcc with done := rest } }) t ∧ m.chan ≠ 2 ∧ 16 ≤ (getFrm x
      c).gcc.queue.length) ∧
    (∃ (s t : State) (m : GccMsg) (rest : List GccMsg) (x : State), Running s t ∧ (getFrm t .a).gcc.done = m :: rest ∧
      x = updFrm .a (fun f => { f with gcc := { f.gcc with done := rest } }) t ∧ m.chan = 2) ∧
    (∃ (s t : State) (m : GccMsg) (rest : List GccMsg) (x : State), Running s t ∧ (getFrm t .b).gcc.done = m :: rest ∧
      x = updFrm .b (fun f => { f with gcc := { f.gcc with done := rest } }) t ∧ m.chan = 2) :=
  ⟨⟨updFecC .a (fun f => { f with ready := [{}] }) base, _, .a, none, {}, [], _, running_of (by decide +kernel),
      by decide +kernel, rfl⟩,
    ⟨updFrm .a (fun f => { f with run := 3 }) (updRx .a (fun r => { r with st := .pilot }) base), _, .a, running_of
      (by decide +kernel), by decide +kernel⟩,
    ⟨updFrm .a (fun f => { f with inF := true, miss := 5 }) (base), _, .a, running_of (by decide +kernel),
      by decide +kernel⟩,
    ⟨updFrm .a (fun f => { f with oof := 1500 }) (base), _, .a, running_of (by decide +kernel), by decide +kernel⟩,
    ⟨updFrm .a (fun f => { f with oom := 1500 }) (base), _, .a, running_of (by decide +kernel), by decide +kernel⟩,
    ⟨updFrm .a (fun f => { f with gcc := { f.gcc with done := [gcc0] } }) (base), _, .a, gcc0, [], _, running_of
      (by decide +kernel), by decide +kernel, rfl, by decide +kernel⟩,
    ⟨updFrm .a (fun f => { f with gcc := { f.gcc with done := [gcc0], queue := List.replicate 16 gcc0 } }) (base), _,
      .a, gcc0, [], _, running_of (by decide +kernel), by decide +kernel, rfl, by decide +kernel⟩,
    ⟨updFrm .a (fun f => { f with gcc := { f.gcc with done := [{ chan := 2, tick := 5, bytes := [1] }] } }) (base), _,
      { chan := 2, tick := 5, bytes := [1] }, [], _, running_of (by decide +kernel), by decide +kernel, rfl,
      by decide +kernel⟩,
    ⟨updFrm .b (fun f => { f with gcc := { f.gcc with done := [{ chan := 2, tick := 5, bytes := [1] }] } }) (base), _,
      { chan := 2, tick := 5, bytes := [1] }, [], _, running_of (by decide +kernel), by decide +kernel, rfl,
      by decide +kernel⟩⟩

theorem witness_ClientEventsAct :
    (∃ (s t : State) (cl : Fin 12), Running s t ∧ (getCli t cl.val).disrupt = true) ∧
    (∃ (s t : State) (cl : Fin 12), Running s t ∧ cliOn t cl.val = true ∧ (getCli t cl.val).squelch ≠ squelchWanted t
      cl.val) ∧
    (∃ (s t : State) (cl : Fin 12) (aligned : Bool), Running s t ∧ cliOn t cl.val = true ∧ (getCli t cl.val).pcsRx.up
      = aligned ∧ (getCli t cl.val).aligned ≠ aligned) ∧
    (∃ (s t : State) (lane : Fin 32) (ok : Bool), Running s t ∧ bit t.cli.powered lane.val = true ∧ bit t.cli.laneOk
      lane.val ≠ ok) ∧
    (∃ (s t : State) (cl : Fin 12) (ns : Fin 2000) (frac : BitVec 16) (pkt : Bytes) (e : Bytes) (k : Nat), Running s t
      ∧ cliOn t cl.val = true ∧ ((chunks 40 (t.par 0x7010 (0x40 + cl.val))).zipIdx.find? fun e => bit (byteAt e.1 0) 0
      && tsMatch e.1 pkt) = some (e, k) ∧ bit (byteAt e 0) 2 = false ∧ (getCli t cl.val).tsIn = []) ∧
    (∃ (s t : State) (cl : Fin 12) (ns : Fin 2000) (frac : BitVec 16) (pkt : Bytes) (e : Bytes) (k : Nat), Running s t
      ∧ cliOn t cl.val = true ∧ ((chunks 40 (t.par 0x7010 (0x40 + cl.val))).zipIdx.find? fun e => bit (byteAt e.1 0) 0
      && tsMatch e.1 pkt) = some (e, k) ∧ bit (byteAt e 0) 2 = false ∧ (getCli t cl.val).tsIn ≠ [] ∧ (getCli t
      cl.val).tsIn.length < 64) ∧
    (∃ (s t : State) (cl : Fin 12) (ns : Fin 2000) (frac : BitVec 16) (pkt : Bytes) (e : Bytes) (k : Nat), Running s t
      ∧ cliOn t cl.val = true ∧ ((chunks 40 (t.par 0x7010 (0x40 + cl.val))).zipIdx.find? fun e => bit (byteAt e.1 0) 0
      && tsMatch e.1 pkt) = some (e, k) ∧ bit (byteAt e 0) 2 = false ∧ 64 ≤ (getCli t cl.val).tsIn.length) ∧
    (∃ (s t : State) (cl : Fin 12) (ns : Fin 2000) (frac : BitVec 16) (pkt : Bytes) (e : Bytes) (k : Nat), Running s t
      ∧ cliOn t cl.val = true ∧ ((chunks 40 (t.par 0x7010 (0x40 + cl.val))).zipIdx.find? fun e => bit (byteAt e.1 0) 0
      && tsMatch e.1 pkt) = some (e, k) ∧ bit (byteAt e 0) 2 = true ∧ pkt.length < byteAt e 4 + 10 ∧ (getCli t
      cl.val).tsIn = []) ∧
    (∃ (s t : State) (cl : Fin 12) (ns : Fin 2000) (frac : BitVec 16) (pkt : Bytes) (e : Bytes) (k : Nat), Running s t
      ∧ cliOn t cl.val = true ∧ ((chunks 40 (t.par 0x7010 (0x40 + cl.val))).zipIdx.find? fun e => bit (byteAt e.1 0) 1
      && tsMatch e.1 pkt) = some (e, k) ∧ bit (byteAt e 0) 2 = false ∧ (getCli t cl.val).tsOut = []) ∧
    (∃ (s t : State) (cl : Fin 12) (ns : Fin 2000) (frac : BitVec 16) (pkt : Bytes) (e : Bytes) (k : Nat), Running s t
      ∧ cliOn t cl.val = true ∧ ((chunks 40 (t.par 0x7010 (0x40 + cl.val))).zipIdx.find? fun e => bit (byteAt e.1 0) 1
      && tsMatch e.1 pkt) = some (e, k) ∧ bit (byteAt e 0) 2 = false ∧ (getCli t cl.val).tsOut ≠ [] ∧ (getCli t
      cl.val).tsOut.length < 64) ∧
    (∃ (s t : State) (cl : Fin 12) (ns : Fin 2000) (frac : BitVec 16) (pkt : Bytes) (e : Bytes) (k : Nat), Running s t
      ∧ cliOn t cl.val = true ∧ ((chunks 40 (t.par 0x7010 (0x40 + cl.val))).zipIdx.find? fun e => bit (byteAt e.1 0) 1
      && tsMatch e.1 pkt) = some (e, k) ∧ bit (byteAt e 0) 2 = false ∧ 64 ≤ (getCli t cl.val).tsOut.length) ∧
    (∃ (s t : State) (cl : Fin 12) (ns : Fin 2000) (frac : BitVec 16) (pkt : Bytes) (e : Bytes) (k : Nat), Running s t
      ∧ cliOn t cl.val = true ∧ ((chunks 40 (t.par 0x7010 (0x40 + cl.val))).zipIdx.find? fun e => bit (byteAt e.1 0) 1
      && tsMatch e.1 pkt) = some (e, k) ∧ bit (byteAt e 0) 2 = true ∧ pkt.length < byteAt e 4 + 10 ∧ (getCli t
      cl.val).tsOut = []) ∧
    (∃ (s t : State) (cl : Fin 12), Running s t ∧ cliOn t cl.val = false) :=
  ⟨⟨updCli 11 (fun x => { x with disrupt := true }) base, _, 11, running_of (by decide +kernel), by decide +kernel⟩,
    ⟨updCli 11 (fun x => { x with squelch := true }) (withCli 11), _, 11, running_of (by decide +kernel),
      by decide +kernel⟩,
    ⟨updCli 11 (fun x => { x with pcsRx := { x.pcsRx with up := true } }) (withCli 11), _, 11, true, running_of
      (by decide +kernel), by decide +kernel⟩,
    ⟨{ (withCli 0) with cli := { ((withCli 0)).cli with powered := 1 } }, _, 0, true, running_of (by decide +kernel),
      by decide +kernel⟩,
    ⟨setP (withCli 0) 0x7010 0x40 (1 :: zeros 39), _, 0, 1999, 0, [], 1 :: zeros 39, 0, running_of
      (by decide +kernel), by decide +kernel⟩,
    ⟨updCli 0 (fun x => { x with tsIn := [ts0] }) (setP (withCli 0) 0x7010 0x40 (1 :: zeros 39)), _, 0, 1999, 0, [], 1
      :: zeros 39, 0, running_of (by decide +kernel), by decide +kernel⟩,
    ⟨updCli 0 (fun x => { x with tsIn := List.replicate 64 ts0 }) (setP (withCli 0) 0x7010 0x40 (1 :: zeros 39)), _,
      0, 1999, 0, [], 1 :: zeros 39, 0, running_of (by decide +kernel), by decide +kernel⟩,
    ⟨setP (withCli 0) 0x7010 0x40 (5 :: zeros 39), _, 0, 1999, 0, [], 5 :: zeros 39, 0, running_of
      (by decide +kernel), by decide +kernel⟩,
    ⟨setP (withCli 0) 0x7010 0x40 (2 :: zeros 39), _, 0, 1999, 0, [], 2 :: zeros 39, 0, running_of
      (by decide +kernel), by decide +kernel⟩,
    ⟨updCli 0 (fun x => { x with tsOut := [ts0] }) (setP (withCli 0) 0x7010 0x40 (2 :: zeros 39)), _, 0, 1999, 0, [],
      2 :: zeros 39, 0, running_of (by decide +kernel), by decide +kernel⟩,
    ⟨updCli 0 (fun x => { x with tsOut := List.replicate 64 ts0 }) (setP (withCli 0) 0x7010 0x40 (2 :: zeros 39)), _,
      0, 1999, 0, [], 2 :: zeros 39, 0, running_of (by decide +kernel), by decide +kernel⟩,
    ⟨setP (withCli 0) 0x7010 0x40 (6 :: zeros 39), _, 0, 1999, 0, [], 6 :: zeros 39, 0, running_of
      (by decide +kernel), by decide +kernel⟩,
    ⟨base, _, 11, running_of (by decide +kernel), by decide +kernel⟩⟩

theorem witness_KeyEventsAct :
    (∃ (s t : State) (c : Line) (sa : Fin 26), Running s t ∧ carried t c sa.val = true ∧ (getSa t c sa.val).tx.cur ≠
      none ∧ useLimit t c ≤ (getSa t c sa.val).tx.count) ∧
    (∃ (s t : State) (c : Line) (sa : Fin 26), Running s t ∧ (getSa t c sa.val).rx.retired ≠ none ∧ (getSa t c
      sa.val).rx.retireAfter < (getFrm t c).frameTick) ∧
    (∃ (s t : State) (o : FlashOp) (rest : List FlashOp) (x : State), Running s t ∧ t.flash.ops = o :: rest ∧ o.kind =
      .epochRecord ∧ recWrite 0x2000 0x3000 (max o.aux t.cry.high) t = some x) ∧
    (∃ (s t : State) (o : FlashOp) (rest : List FlashOp), Running s t ∧ t.flash.ops = o :: rest ∧ o.kind =
      .epochRecord) ∧
    (∃ (s t : State) (o : PkOp) (rest : List PkOp) (k : Nat), Running s t ∧ t.cry.pk = o :: rest ∧ o.start = some k ∧
      k + pkTicks o.kind t ≤ t.elapsed) ∧
    (∃ (s t : State) (c : Line) (m : Bytes) (rest : List Bytes), Running s t ∧ (getCry t c).msgs = m :: rest ∧ byteAt
      m 0 = 1) ∧
    (∃ (s t : State) (c : Line) (m : Bytes) (rest : List Bytes), Running s t ∧ (getCry t c).msgs = m :: rest ∧ byteAt
      m 0 = 2) ∧
    (∃ (s t : State) (c : Line) (m : Bytes) (rest : List Bytes), Running s t ∧ (getCry t c).msgs = m :: rest ∧ byteAt
      m 0 = 3) ∧
    (∃ (s t : State) (c : Line) (m : Bytes) (rest : List Bytes), Running s t ∧ (getCry t c).msgs = m :: rest ∧ byteAt
      m 0 = 4) ∧
    (∃ (s t : State) (c : Line) (m : Bytes) (rest : List Bytes), Running s t ∧ (getCry t c).msgs = m :: rest ∧ byteAt
      m 0 = 5) ∧
    (∃ (s t : State) (c : Line) (x : Exch) (k : Nat), Running s t ∧ getExch t c = some x ∧ x.init = true ∧ (x.stage =
      .waitAnswer ∨ x.stage = .waitDone) ∧ x.sentAt = some k ∧ k + 500 * t.parN 0x9001 c.inst ≤ t.elapsed ∧ x.sends <
      4) ∧
    (∃ (s t : State) (c : Line) (x : Exch), Running s t ∧ getExch t c = some x ∧ noPeerDue t x = true) ∧
    (∃ (s t : State) (o : FlashOp) (rest : List FlashOp), Running s t ∧ t.flash.ops = o :: rest ∧ o.kind =
      .epochRecord ∧ recWrite 0x2000 0x3000 (max o.aux t.cry.high) t = none) ∧
    (∃ (s t : State) (o : PkOp) (rest : List PkOp), Running s t ∧ t.cry.pk = o :: rest ∧ o.start = none) ∧
    (∃ (s t : State) (o : PkOp) (rest : List PkOp) (k : Nat), Running s t ∧ t.cry.pk = o :: rest ∧ o.start = some k ∧
      o.kind = .verify ∧ k < t.elapsed) :=
  ⟨⟨updTxH .a 24 (fun h => { h with cur := some { key := [], salt := [], epoch := 0 }, count := 2 ^ 64 }) base, _,
      .a, 24, running_of (by decide +kernel), by decide +kernel⟩,
    ⟨updFrm .a (fun f => { f with frameTick := 1 }) (updRxH .a 25 (fun h => { h with
        retired := some { k := { key := [], salt := [], epoch := 0 } } }) base), _, .a, 25, running_of
      (by decide +kernel), by decide +kernel⟩,
    ⟨{ base with flash := { (base).flash with ops := [{ kind := .epochRecord }] } }, _, { kind := .epochRecord }, [],
      (recWrite 0x2000 0x3000 (max 0 0) ({ base with
        flash := { (base).flash with ops := [{ kind := .epochRecord }] } })).getD base, running_of
      (by decide +kernel), by decide +kernel, by decide +kernel, some_getD (by decide +kernel)⟩,
    ⟨{ base with flash := { (base).flash with ops := [{ kind := .epochRecord }] } }, _, { kind := .epochRecord }, [],
      running_of (by decide +kernel), by decide +kernel⟩,
    ⟨{ base with cry := { (base).cry with pk := [{ kind := .verify, start := some 99998750 }] } }, _, {
        kind := .verify, start := some 99998750 }, [], 99998750, running_of (by decide +kernel), by decide +kernel⟩,
    ⟨{ base with cry := { (base).cry with a := { base.cry.a with msgs := [[1]] } } }, _, .a, [1], [], running_of
      (by decide +kernel), by decide +kernel⟩,
    ⟨{ base with cry := { (base).cry with a := { base.cry.a with msgs := [[2]] } } }, _, .a, [2], [], running_of
      (by decide +kernel), by decide +kernel⟩,
    ⟨{ base with cry := { (base).cry with a := { base.cry.a with msgs := [[3]] } } }, _, .a, [3], [], running_of
      (by decide +kernel), by decide +kernel⟩,
    ⟨{ base with cry := { (base).cry with a := { base.cry.a with msgs := [[4]] } } }, _, .a, [4], [], running_of
      (by decide +kernel), by decide +kernel⟩,
    ⟨{ base with cry := { (base).cry with a := { base.cry.a with msgs := [[5]] } } }, _, .a, [5], [], running_of
      (by decide +kernel), by decide +kernel⟩,
    ⟨{ base with cry := { (base).cry with a := { base.cry.a with exch := some exch0 } } }, _, .a, exch0, 0, running_of
      (by decide +kernel), by decide +kernel⟩,
    ⟨{ base with cry := { (base).cry with a := { base.cry.a with exch := some { exch0 with firstAt := some 0 } } } },
      _, .a, { exch0 with firstAt := some 0 }, running_of (by decide +kernel), by decide +kernel⟩,
    ⟨flashProgram 0x2000 lastRec ({ base with flash := { (base).flash with ops := [{ kind := .epochRecord }] } }), _,
      { kind := .epochRecord }, [], running_of (by decide +kernel), by decide +kernel⟩,
    ⟨{ base with cry := { (base).cry with pk := [{ kind := .verify }] } }, _, { kind := .verify }, [], running_of
      (by decide +kernel), by decide +kernel⟩,
    ⟨{ base with cry := { (base).cry with pk := [{ kind := .verify, start := some 99999999 }] } }, _, {
        kind := .verify, start := some 99999999 }, [], 99999999, running_of (by decide +kernel), by decide +kernel⟩⟩

theorem witness_WhisperEventsAct :
    (∃ (s t : State) (c : Line), Running s t ∧ whRuns t c = true ∧ (getWh t c).light = true ∧ (getWh t c).lock = false
      ∧ (getWh t c).dem.lockNow = true) ∧
    (∃ (s t : State) (c : Line), Running s t ∧ whRuns t c = true ∧ (getWh t c).lock = true ∧ (getWh t c).dem.lockNow =
      false ∧ (getWh t c).rx = none) ∧
    (∃ (s t : State) (c : Line), Running s t ∧ whRuns t c = true ∧ (getWh t c).light = false ∧ (getWh t
      c).dem.lightNow = true ∧ (getWh t c).lock = false) ∧
    (∃ (s t : State) (c : Line) (diffs : Vector Nat 4) (m : Nat), Running s t ∧ whRuns t c = true ∧ (getWh t c).light
      = true ∧ (getWh t c).lock = true ∧ (getWh t c).rx = none ∧ (getWh t c).dem.tests = some diffs.toList ∧
      detectMode t c diffs.toList = some m) ∧
    (∃ (s t : State) (c : Line) (raw : BitVec 32) (r : WRx) (b : Bytes) (w : Nat), Running s t ∧ (getWh t c).rx = some
      r ∧ r.hdr = none ∧ r.bits.length = 32 ∧ bitsNum r.bits.reverse = raw.toNat ∧ b = whScramble 0 (be 4 raw.toNat) ∧
      w = unbe b ∧ byteAt b 3 = crc8 (b.take 3) ∧ bits w 19 18 = r.mode ∧ w / 2 ^ 23 ≤ 256 ∧ bits w 22 20 ≤ 2 ∧ bits w
      17 16 = 0) ∧
    (∃ (s t : State) (c : Line) (raw : Bytes) (r : WRx) (h : WHdr), Running s t ∧ (getWh t c).rx = some r ∧ r.hdr =
      some h ∧ raw.length = h.len + 4 ∧ packBits r.bits.reverse = raw ∧ unbe ((whScramble 32 raw).drop h.len) ≠ crc32c
      (h.bytes ++ (whScramble 32 raw).take h.len)) ∧
    (∃ (s t : State) (c : Line) (raw : Bytes) (r : WRx) (h : WHdr) (x : State), Running s t ∧ (getWh t c).rx = some r
      ∧ r.hdr = some h ∧ raw.length = h.len + 4 ∧ packBits r.bits.reverse = raw ∧ unbe ((whScramble 32 raw).drop
      h.len) = crc32c (h.bytes ++ (whScramble 32 raw).take h.len) ∧ h.chan ≠ 0 ∧ x = bump (whCnt c (11 + h.chan))
      (updWh c (fun y => { y with lastGood := t.tick }) (updWh c (fun y => { y with rx := none, frost := false }) t))) ∧
    (∃ (s t : State) (c : Line) (raw : Bytes) (r : WRx) (h : WHdr) (x : State), Running s t ∧ (getWh t c).rx = some r
      ∧ r.hdr = some h ∧ raw.length = h.len + 4 ∧ packBits r.bits.reverse = raw ∧ unbe ((whScramble 32 raw).drop
      h.len) = crc32c (h.bytes ++ (whScramble 32 raw).take h.len) ∧ h.chan = 0 ∧ x = bump (whCnt c (11 + h.chan))
      (updWh c (fun y => { y with lastGood := t.tick }) (updWh c (fun y => { y with rx := none, frost := false }) t))
      ∧ (getWh (updWh c (fun y => { y with lastGoodSeq := h.seq }) x) c).queue.length < 16) ∧
    (∃ (t : State) (chain : Fin 4) (wait : Bool), stopped t = false ∧ (getChain t chain.val).swap = some wait ∧ t.tick
      % 4 = 0 ∧ (wait = true → (getWh t (chainLine chain.val)).rx = none)) ∧
    (∃ (t : State) (c : Line) (f : WFrame), stopped t = false ∧ whBoundary t = true ∧ whSends t c = true ∧ (getWh t
      c).cur = none ∧ (∀ k, (getWh t c).lastEnd = some k → k + 8 ≤ t.elapsed) ∧ whNext t c = some f ∧ (getWh t
      c).pendMode = none ∧ (getWh t c).pendDepth = none) ∧
    (∃ (t : State) (c : Line) (x : WCur), stopped t = false ∧ (getWh t c).cur = some x ∧ x.start + 8 * x.span ≤
      t.elapsed) ∧
    (∃ (s t : State) (c : Line), Running s t ∧ whRuns t c = true ∧ (getWh t c).lock = true ∧ (getWh t c).dem.lockNow =
      false ∧ (getWh t c).rx ≠ none) ∧
    (∃ (s t : State) (c : Line) (x : State), Running s t ∧ whRuns t c = true ∧ (getWh t c).light = true ∧ (getWh t
      c).dem.lightNow = false ∧ x = raise (lineEvt 0xA0 c 4) (updWh c (fun x => { x with light := false }) t) ∧ (getWh
      x c).rx = none) ∧
    (∃ (s t : State) (c : Line) (x : State), Running s t ∧ whRuns t c = true ∧ (getWh t c).light = true ∧ (getWh t
      c).dem.lightNow = false ∧ x = raise (lineEvt 0xA0 c 4) (updWh c (fun x => { x with light := false }) t) ∧ (getWh
      x c).rx ≠ none) ∧
    (∃ (s t : State) (c : Line), Running s t ∧ whRuns t c = true ∧ (getWh t c).light = false ∧ (getWh t
      c).dem.lightNow = true ∧ (getWh t c).lock = true) ∧
    (∃ (s t : State) (c : Line) (diffs : Vector Nat 4), Running s t ∧ whRuns t c = true ∧ (getWh t c).light = true ∧
      (getWh t c).lock = true ∧ (getWh t c).rx = none ∧ (getWh t c).dem.tests = some diffs.toList ∧ detectMode t c
      diffs.toList = none) ∧
    (∃ (s t : State) (c : Line) (raw : BitVec 32) (r : WRx) (b : Bytes) (w : Nat), Running s t ∧ (getWh t c).rx = some
      r ∧ r.hdr = none ∧ r.bits.length = 32 ∧ bitsNum r.bits.reverse = raw.toNat ∧ b = whScramble 0 (be 4 raw.toNat) ∧
      w = unbe b ∧ (byteAt b 3 ≠ crc8 (b.take 3) ∨ bits w 19 18 ≠ r.mode ∨ 256 < w / 2 ^ 23 ∨ 2 < bits w 22 20 ∨ bits
      w 17 16 ≠ 0)) ∧
    (∃ (s t : State) (c : Line) (raw : Bytes) (r : WRx) (h : WHdr) (x : State), Running s t ∧ (getWh t c).rx = some r
      ∧ r.hdr = some h ∧ raw.length = h.len + 4 ∧ packBits r.bits.reverse = raw ∧ unbe ((whScramble 32 raw).drop
      h.len) = crc32c (h.bytes ++ (whScramble 32 raw).take h.len) ∧ h.chan = 0 ∧ x = updWh c (fun y => { y with
        lastGoodSeq := h.seq }) (bump (whCnt c (11 + h.chan)) (updWh c (fun y => { y with lastGood := t.tick }) (updWh
      c (fun y => { y with rx := none, frost := false }) t))) ∧ 16 ≤ (getWh x c).queue.length) ∧
    (∃ (t : State) (c : Line) (f : WFrame) (x y : State), stopped t = false ∧ whBoundary t = true ∧ whSends t c = true
      ∧ (getWh t c).cur = none ∧ (∀ k, (getWh t c).lastEnd = some k → k + 8 ≤ t.elapsed) ∧ whNext t c = some f ∧ x =
      (match (getWh t c).pendMode with
        | some m => t.setPar 0xA001 c.inst (le 4 m)
        | none => t) ∧ y = (match
      (getWh t c).pendDepth with
        | some d => x.setPar 0xA002 c.inst (le 4 d)
        | none => x)) :=
  ⟨⟨updWh .a (fun x => { x with light := true, dem := { x.dem with lockNow := true } }) ({
        setP (setP base 0xA000 1 [2]) 0xA003 1 [1] with pwr := { base.pwr with state := 3, aRun := true } }), _, .a,
      running_of (by decide +kernel), by decide +kernel⟩,
    ⟨updWh .a (fun x => { x with lock := true }) ({
        setP (setP base 0xA000 1 [2]) 0xA003 1 [1] with pwr := { base.pwr with state := 3, aRun := true } }), _, .a,
      running_of (by decide +kernel), by decide +kernel⟩,
    ⟨updWh .a (fun x => { x with light := false, dem := { x.dem with lightNow := true } }) ({
        setP (setP base 0xA000 1 [2]) 0xA003 1 [1] with pwr := { base.pwr with state := 3, aRun := true } }), _, .a,
      running_of (by decide +kernel), by decide +kernel⟩,
    ⟨updWh .a (fun x => { x with light := true, lock := true, dem := { x.dem with tests := some [0, 33, 33, 33] } })
      ({ setP (setP base 0xA000 1 [2]) 0xA003 1 [1] with pwr := { base.pwr with state := 3, aRun := true } }), _, .a,
      #v[0, 33, 33, 33], 0, running_of (by decide +kernel), by decide +kernel⟩,
    ⟨updWh .a (fun x => { x with
        rx := some {
          mode := 0, bits := (List.range 32).map fun i => Nat.testBit (unbe (whScramble 0 (0 :: 0 :: 0 :: [byteOf
            (crc8 [0, 0, 0])]))) i } }) ({
        setP (setP base 0xA000 1 [2]) 0xA003 1 [1] with pwr := { base.pwr with state := 3, aRun := true } }), _, .a,
      BitVec.ofNat 32 (unbe (whScramble 0 (0 :: 0 :: 0 :: [byteOf (crc8 [0, 0, 0])]))), {
        mode := 0, bits := (List.range 32).map fun i => Nat.testBit (unbe (whScramble 0 (0 :: 0 :: 0 :: [byteOf (crc8
          [0, 0, 0])]))) i }, _, _, running_of (by decide +kernel), by decide +kernel, by decide +kernel,
      by decide +kernel, by decide +kernel, rfl, rfl, by decide +kernel⟩,
    ⟨updWh .a (fun x => { x with
        rx := some {
          mode := 0, hdr := some { bytes := [], len := 0, chan := 0, seq := 0 }, bits := List.replicate 32 false } })
      ({ setP (setP base 0xA000 1 [2]) 0xA003 1 [1] with pwr := { base.pwr with state := 3, aRun := true } }), _, .a,
      zeros 4, {
        mode := 0, hdr := some { bytes := [], len := 0, chan := 0, seq := 0 }, bits := List.replicate 32 false }, {
        bytes := [], len := 0, chan := 0, seq := 0 }, running_of (by decide +kernel), by decide +kernel⟩,
    ⟨updWh .a (fun x => { x with
        rx := some {
          mode := 0, hdr := some { bytes := [], len := 0, chan := 1, seq := 0 }, bits := ((whScramble 32 (zeros
            4)).flatMap fun v => (List.range 8).map fun i => v.toNat.testBit (7 - i)).reverse } }) ({
        setP (setP base 0xA000 1 [2]) 0xA003 1 [1] with pwr := { base.pwr with state := 3, aRun := true } }), _, .a,
      whScramble 32 (zeros 4), {
        mode := 0, hdr := some { bytes := [], len := 0, chan := 1, seq := 0 }, bits := ((whScramble 32 (zeros
          4)).flatMap fun v => (List.range 8).map fun i => v.toNat.testBit (7 - i)).reverse }, {
        bytes := [], len := 0, chan := 1, seq := 0 }, _, running_of (by decide +kernel), by decide +kernel,
      by decide +kernel, by decide +kernel, by decide +kernel, by decide +kernel, by decide +kernel, rfl⟩,
    ⟨updWh .a (fun x => { x with
        rx := some {
          mode := 0, hdr := some { bytes := [], len := 0, chan := 0, seq := 0 }, bits := ((whScramble 32 (zeros
            4)).flatMap fun v => (List.range 8).map fun i => v.toNat.testBit (7 - i)).reverse } }) ({
        setP (setP base 0xA000 1 [2]) 0xA003 1 [1] with pwr := { base.pwr with state := 3, aRun := true } }), _, .a,
      whScramble 32 (zeros 4), {
        mode := 0, hdr := some { bytes := [], len := 0, chan := 0, seq := 0 }, bits := ((whScramble 32 (zeros
          4)).flatMap fun v => (List.range 8).map fun i => v.toNat.testBit (7 - i)).reverse }, {
        bytes := [], len := 0, chan := 0, seq := 0 }, _, running_of (by decide +kernel), by decide +kernel,
      by decide +kernel, by decide +kernel, by decide +kernel, by decide +kernel, by decide +kernel, rfl,
      by decide +kernel⟩,
    ⟨updChain 3 (fun x => { x with swap := some false }) base, 3, false, by decide +kernel, by decide +kernel,
      by decide +kernel, fun h => by cases h⟩,
    ⟨{ updWh .a (fun x => { x with host := [{ chan := 0, seq := 0, mode := none, payload := [], at_ := 0 }] }) ({
          setP (setP base 0xA000 1 [2]) 0xA003 1 [1] with pwr := { base.pwr with state := 3, aRun := true } }) with
         tick := 8, tx := { base.tx with a := { base.tx.a with eff := 1 } } }, .a, {
        chan := 0, seq := 0, mode := none, payload := [], at_ := 0 }, by decide +kernel, by decide +kernel,
      by decide +kernel, by decide +kernel, fun _ h => none_vac (by decide +kernel) h, by decide +kernel⟩,
    ⟨updWh .a (fun x => { x with
        cur := some {
          f := { chan := 0, seq := 0, mode := none, payload := [], at_ := 0 }, mode := 0, tick := 0, start := 0, span
            := 12500000 } }) ({
        setP (setP base 0xA000 1 [2]) 0xA003 1 [1] with pwr := { base.pwr with state := 3, aRun := true } }), .a, {
        f := { chan := 0, seq := 0, mode := none, payload := [], at_ := 0 }, mode := 0, tick := 0, start := 0, span :=
          12500000 }, by decide +kernel⟩,
    ⟨updWh .a (fun x => { x with lock := true, rx := some { mode := 0 } }) ({
        setP (setP base 0xA000 1 [2]) 0xA003 1 [1] with pwr := { base.pwr with state := 3, aRun := true } }), _, .a,
      running_of (by decide +kernel), by decide +kernel⟩,
    ⟨updWh .a (fun x => { x with light := true }) ({
        setP (setP base 0xA000 1 [2]) 0xA003 1 [1] with pwr := { base.pwr with state := 3, aRun := true } }), _, .a,
      _, running_of (by decide +kernel), by decide +kernel, by decide +kernel, by decide +kernel, rfl,
      by decide +kernel⟩,
    ⟨updWh .a (fun x => { x with light := true, rx := some { mode := 0 } }) ({
        setP (setP base 0xA000 1 [2]) 0xA003 1 [1] with pwr := { base.pwr with state := 3, aRun := true } }), _, .a,
      _, running_of (by decide +kernel), by decide +kernel, by decide +kernel, by decide +kernel, rfl,
      by decide +kernel⟩,
    ⟨updWh .a (fun x => { x with light := false, lock := true, dem := { x.dem with lightNow := true } }) ({
        setP (setP base 0xA000 1 [2]) 0xA003 1 [1] with pwr := { base.pwr with state := 3, aRun := true } }), _, .a,
      running_of (by decide +kernel), by decide +kernel⟩,
    ⟨updWh .a (fun x => { x with light := true, lock := true, dem := { x.dem with tests := some [33, 33, 33, 33] } })
      ({ setP (setP base 0xA000 1 [2]) 0xA003 1 [1] with pwr := { base.pwr with state := 3, aRun := true } }), _, .a,
      #v[33, 33, 33, 33], running_of (by decide +kernel), by decide +kernel⟩,
    ⟨updWh .a (fun x => { x with rx := some { mode := 0, bits := List.replicate 32 false } }) ({
        setP (setP base 0xA000 1 [2]) 0xA003 1 [1] with pwr := { base.pwr with state := 3, aRun := true } }), _, .a,
      0, { mode := 0, bits := List.replicate 32 false }, _, _, running_of (by decide +kernel), by decide +kernel,
      by decide +kernel, by decide +kernel, by decide +kernel, rfl, rfl, by decide +kernel⟩,
    ⟨updWh .a (fun x => { x with
        queue := List.replicate 16 wmsg0, rx := some {
          mode := 0, hdr := some { bytes := [], len := 0, chan := 0, seq := 0 }, bits := ((whScramble 32 (zeros
            4)).flatMap fun v => (List.range 8).map fun i => v.toNat.testBit (7 - i)).reverse } }) ({
        setP (setP base 0xA000 1 [2]) 0xA003 1 [1] with pwr := { base.pwr with state := 3, aRun := true } }), _, .a,
      whScramble 32 (zeros 4), {
        mode := 0, hdr := some { bytes := [], len := 0, chan := 0, seq := 0 }, bits := ((whScramble 32 (zeros
          4)).flatMap fun v => (List.range 8).map fun i => v.toNat.testBit (7 - i)).reverse }, {
        bytes := [], len := 0, chan := 0, seq := 0 }, _, running_of (by decide +kernel), by decide +kernel,
      by decide +kernel, by decide +kernel, by decide +kernel, by decide +kernel, by decide +kernel, rfl,
      by decide +kernel⟩,
    ⟨{ updWh .a (fun x => { x with
          pendMode := some 1, pendDepth := some 2, host := [{
            chan := 0, seq := 0, mode := none, payload := [], at_ := 0 }] }) ({
          setP (setP base 0xA000 1 [2]) 0xA003 1 [1] with pwr := { base.pwr with state := 3, aRun := true } }) with
         tick := 8, tx := { base.tx with a := { base.tx.a with eff := 1 } } }, .a, {
        chan := 0, seq := 0, mode := none, payload := [], at_ := 0 }, _, _, by decide +kernel, by decide +kernel,
      by decide +kernel, by decide +kernel, fun _ h => none_vac (by decide +kernel) h, by decide +kernel, rfl, rfl⟩⟩

theorem witness_DomainMessagesAct :
    (∃ (s t : State) (k : Nat) (b : Bytes) (rest : List (Nat × Bytes)) (m : DmIn) (x y : State), Running s t ∧
      t.dm.inbox = (k, b) :: rest ∧ parseDm b = some m ∧ t.dm.member = true ∧ m.domain = t.dm.domain ∧ y = { t with
        dm := { t.dm with inbox := rest } } ∧ (x = (if k = 2 ∨ k = 3 then updPath { y with
        dm := { y.dm with whAt := y.dm.whAt.set (k - 2) (some t.elapsed) } } k else y)) ∧ byteAt b 0 = 1) ∧
    (∃ (s t : State) (k : Nat) (b : Bytes) (rest : List (Nat × Bytes)) (m : DmIn) (x y : State), Running s t ∧
      t.dm.inbox = (k, b) :: rest ∧ parseDm b = some m ∧ t.dm.member = true ∧ m.domain = t.dm.domain ∧ y = { t with
        dm := { t.dm with inbox := rest } } ∧ (x = (if k = 2 ∨ k = 3 then updPath { y with
        dm := { y.dm with whAt := y.dm.whAt.set (k - 2) (some t.elapsed) } } k else y)) ∧ byteAt b 0 = 2) ∧
    (∃ (s t : State) (k : Nat) (b : Bytes) (rest : List (Nat × Bytes)) (m : DmIn) (x y : State), Running s t ∧
      t.dm.inbox = (k, b) :: rest ∧ parseDm b = some m ∧ t.dm.member = true ∧ m.domain = t.dm.domain ∧ y = { t with
        dm := { t.dm with inbox := rest } } ∧ (x = (if k = 2 ∨ k = 3 then updPath { y with
        dm := { y.dm with whAt := y.dm.whAt.set (k - 2) (some t.elapsed) } } k else y)) ∧ byteAt b 0 = 3) ∧
    (∃ (s t : State) (k : Nat) (b : Bytes) (rest : List (Nat × Bytes)) (m : DmIn) (x y : State), Running s t ∧
      t.dm.inbox = (k, b) :: rest ∧ parseDm b = some m ∧ t.dm.member = true ∧ m.domain = t.dm.domain ∧ y = { t with
        dm := { t.dm with inbox := rest } } ∧ (x = (if k = 2 ∨ k = 3 then updPath { y with
        dm := { y.dm with whAt := y.dm.whAt.set (k - 2) (some t.elapsed) } } k else y)) ∧ byteAt b 0 = 4) ∧
    (∃ (s t : State) (k : Nat) (b : Bytes) (rest : List (Nat × Bytes)) (m : DmIn) (x y : State), Running s t ∧
      t.dm.inbox = (k, b) :: rest ∧ parseDm b = some m ∧ t.dm.member = true ∧ m.domain = t.dm.domain ∧ y = { t with
        dm := { t.dm with inbox := rest } } ∧ (x = (if k = 2 ∨ k = 3 then updPath { y with
        dm := { y.dm with whAt := y.dm.whAt.set (k - 2) (some t.elapsed) } } k else y)) ∧ byteAt b 0 = 5) ∧
    (∃ (s t : State) (k : Nat) (b : Bytes) (rest : List (Nat × Bytes)) (m : DmIn) (x y : State), Running s t ∧
      t.dm.inbox = (k, b) :: rest ∧ parseDm b = some m ∧ t.dm.member = true ∧ m.domain = t.dm.domain ∧ y = { t with
        dm := { t.dm with inbox := rest } } ∧ (x = (if k = 2 ∨ k = 3 then updPath { y with
        dm := { y.dm with whAt := y.dm.whAt.set (k - 2) (some t.elapsed) } } k else y)) ∧ byteAt b 0 = 6) ∧
    (∃ (s t : State) (k : Nat) (b : Bytes) (rest : List (Nat × Bytes)) (m : DmIn) (x y : State), Running s t ∧
      t.dm.inbox = (k, b) :: rest ∧ parseDm b = some m ∧ t.dm.member = true ∧ m.domain = t.dm.domain ∧ y = { t with
        dm := { t.dm with inbox := rest } } ∧ (x = (if k = 2 ∨ k = 3 then updPath { y with
        dm := { y.dm with whAt := y.dm.whAt.set (k - 2) (some t.elapsed) } } k else y)) ∧ byteAt b 0 = 7) ∧
    (∃ (s t : State) (k : Nat) (b : Bytes) (rest : List (Nat × Bytes)), Running s t ∧ t.dm.inbox = (k, b) :: rest ∧
      byteAt b 0 = 1 ∧ (∀ m, parseDm b = some m → t.dm.member = false ∨ m.domain ≠ t.dm.domain)) ∧
    (∃ (s t : State) (k : Nat) (b : Bytes) (rest : List (Nat × Bytes)), Running s t ∧ t.dm.inbox = (k, b) :: rest ∧
      byteAt b 0 = 2 ∧ (∀ m, parseDm b = some m → t.dm.member = false ∨ m.domain ≠ t.dm.domain)) ∧
    (∃ (s t : State) (k : Nat) (b : Bytes) (rest : List (Nat × Bytes)), Running s t ∧ t.dm.inbox = (k, b) :: rest ∧
      byteAt b 0 = 3 ∧ (∀ m, parseDm b = some m → t.dm.member = false ∨ m.domain ≠ t.dm.domain)) ∧
    (∃ (s t : State) (k : Nat) (b : Bytes) (rest : List (Nat × Bytes)), Running s t ∧ t.dm.inbox = (k, b) :: rest ∧
      byteAt b 0 = 4 ∧ (∀ m, parseDm b = some m → t.dm.member = false ∨ m.domain ≠ t.dm.domain)) ∧
    (∃ (s t : State) (k : Nat) (b : Bytes) (rest : List (Nat × Bytes)), Running s t ∧ t.dm.inbox = (k, b) :: rest ∧
      byteAt b 0 = 5 ∧ (∀ m, parseDm b = some m → t.dm.member = false ∨ m.domain ≠ t.dm.domain)) ∧
    (∃ (s t : State) (k : Nat) (b : Bytes) (rest : List (Nat × Bytes)), Running s t ∧ t.dm.inbox = (k, b) :: rest ∧
      byteAt b 0 = 6 ∧ (∀ m, parseDm b = some m → t.dm.member = false ∨ m.domain ≠ t.dm.domain)) ∧
    (∃ (s t : State) (k : Nat) (b : Bytes) (rest : List (Nat × Bytes)), Running s t ∧ t.dm.inbox = (k, b) :: rest ∧
      byteAt b 0 = 7 ∧ (∀ m, parseDm b = some m → t.dm.member = false ∨ m.domain ≠ t.dm.domain)) :=
  ⟨⟨{ base with dm := { (base).dm with member := true, domain := 1, inbox := [(0, dmMsg 1 0 1 2 1 3 [])] } }, _, 0,
      dmMsg 1 0 1 2 1 3 [], [], { ty := 1, hops := 0, origin := 1, dest := 2, domain := 1, id := 3, body := [] }, _,
      _, running_of (by decide +kernel), by decide +kernel, rfl, by decide +kernel, by decide +kernel, rfl, rfl,
      by decide +kernel⟩,
    ⟨{ base with dm := { (base).dm with member := true, domain := 1, inbox := [(1, dmMsg 2 0 1 2 1 3 [])] } }, _, 1,
      dmMsg 2 0 1 2 1 3 [], [], { ty := 2, hops := 0, origin := 1, dest := 2, domain := 1, id := 3, body := [] }, _,
      _, running_of (by decide +kernel), by decide +kernel, rfl, by decide +kernel, by decide +kernel, rfl, rfl,
      by decide +kernel⟩,
    ⟨{ base with dm := { (base).dm with member := true, domain := 1, inbox := [(2, dmMsg 3 0 1 2 1 3 [])] } }, _, 2,
      dmMsg 3 0 1 2 1 3 [], [], { ty := 3, hops := 0, origin := 1, dest := 2, domain := 1, id := 3, body := [] }, _,
      _, running_of (by decide +kernel), by decide +kernel, rfl, by decide +kernel, by decide +kernel, rfl, rfl,
      by decide +kernel⟩,
    ⟨{ base with dm := { (base).dm with member := true, domain := 1, inbox := [(3, dmMsg 4 0 1 2 1 3 [])] } }, _, 3,
      dmMsg 4 0 1 2 1 3 [], [], { ty := 4, hops := 0, origin := 1, dest := 2, domain := 1, id := 3, body := [] }, _,
      _, running_of (by decide +kernel), by decide +kernel, rfl, by decide +kernel, by decide +kernel, rfl, rfl,
      by decide +kernel⟩,
    ⟨{ base with dm := { (base).dm with member := true, domain := 1, inbox := [(4, dmMsg 5 0 1 2 1 3 [])] } }, _, 4,
      dmMsg 5 0 1 2 1 3 [], [], { ty := 5, hops := 0, origin := 1, dest := 2, domain := 1, id := 3, body := [] }, _,
      _, running_of (by decide +kernel), by decide +kernel, rfl, by decide +kernel, by decide +kernel, rfl, rfl,
      by decide +kernel⟩,
    ⟨{ base with dm := { (base).dm with member := true, domain := 1, inbox := [(0, dmMsg 6 0 1 2 1 3 [])] } }, _, 0,
      dmMsg 6 0 1 2 1 3 [], [], { ty := 6, hops := 0, origin := 1, dest := 2, domain := 1, id := 3, body := [] }, _,
      _, running_of (by decide +kernel), by decide +kernel, rfl, by decide +kernel, by decide +kernel, rfl, rfl,
      by decide +kernel⟩,
    ⟨{ base with dm := { (base).dm with member := true, domain := 1, inbox := [(1, dmMsg 7 0 1 2 1 3 [])] } }, _, 1,
      dmMsg 7 0 1 2 1 3 [], [], { ty := 7, hops := 0, origin := 1, dest := 2, domain := 1, id := 3, body := [] }, _,
      _, running_of (by decide +kernel), by decide +kernel, rfl, by decide +kernel, by decide +kernel, rfl, rfl,
      by decide +kernel⟩,
    ⟨{ base with dm := { (base).dm with inbox := [(4, [1])] } }, _, 4, [1], [], running_of (by decide +kernel),
      by decide +kernel, by decide +kernel, fun _ _ => .inl rfl⟩,
    ⟨{ base with dm := { (base).dm with inbox := [(4, [2])] } }, _, 4, [2], [], running_of (by decide +kernel),
      by decide +kernel, by decide +kernel, fun _ _ => .inl rfl⟩,
    ⟨{ base with dm := { (base).dm with inbox := [(4, [3])] } }, _, 4, [3], [], running_of (by decide +kernel),
      by decide +kernel, by decide +kernel, fun _ _ => .inl rfl⟩,
    ⟨{ base with dm := { (base).dm with inbox := [(4, [4])] } }, _, 4, [4], [], running_of (by decide +kernel),
      by decide +kernel, by decide +kernel, fun _ _ => .inl rfl⟩,
    ⟨{ base with dm := { (base).dm with inbox := [(4, [5])] } }, _, 4, [5], [], running_of (by decide +kernel),
      by decide +kernel, by decide +kernel, fun _ _ => .inl rfl⟩,
    ⟨{ base with dm := { (base).dm with inbox := [(4, [6])] } }, _, 4, [6], [], running_of (by decide +kernel),
      by decide +kernel, by decide +kernel, fun _ _ => .inl rfl⟩,
    ⟨{ base with dm := { (base).dm with inbox := [(4, [7])] } }, _, 4, [7], [], running_of (by decide +kernel),
      by decide +kernel, by decide +kernel, fun _ _ => .inl rfl⟩⟩

theorem witness_DomainTimersAct :
    (∃ (s t : State) (path : Fin 5) (x : State), Running s t ∧ pathUp t path.val ≠ pathNow t path.val ∧ x = raise 0xB8
      { t with dm := { t.dm with up := t.dm.up.set path.val (pathNow t path.val) } } ∧ nbrUp x (nbrOf path.val) =
      true) ∧
    (∃ (s t : State) (path : Fin 5) (x : State), Running s t ∧ pathUp t path.val ≠ pathNow t path.val ∧ x = raise 0xB8
      { t with dm := { t.dm with up := t.dm.up.set path.val (pathNow t path.val) } } ∧ nbrUp x (nbrOf path.val) =
      false) ∧
    (∃ (s t : State) (o : FlashOp) (rest : List FlashOp) (x : State), Running s t ∧ t.flash.ops = o :: rest ∧ o.kind =
      .domainRecord ∧ domWrite t.dm.domain o.aux t = some x) ∧
    (∃ (s t : State) (f : Fetch), Running s t ∧ t.dm.fetch = some f ∧ f.again < 3 ∧ f.started + (f.again + 1) *
      (fetchTicks t / 4 / 4) ≤ t.elapsed ∧ t.elapsed ≤ f.started + fetchTicks t / 4) ∧
    (∃ (s t : State) (f : Fetch) (x : State), Running s t ∧ t.dm.fetch = some f ∧ f.started + fetchTicks t ≤ t.elapsed
      ∧ x = bump 855 { t with dm := { t.dm with fetch := none } } ∧ [(nbrOf f.path + 1) % 3, (nbrOf f.path + 2) %
      3].find? (fun i => x.cfgVersion < (getNbr x i).version) = none) ∧
    (∃ (s t : State) (f : Fetch) (x : State) (i : Nat), Running s t ∧ t.dm.fetch = some f ∧ f.started + fetchTicks t ≤
      t.elapsed ∧ x = bump 855 { t with dm := { t.dm with fetch := none } } ∧ [(nbrOf f.path + 1) % 3, (nbrOf f.path +
      2) % 3].find? (fun i => x.cfgVersion < (getNbr x i).version) = some i) ∧
    (∃ (s t : State) (nb : Fin 3) (k : Nat), Running s t ∧ (getNbr t nb.val).skewSince = some k ∧ (getNbr t
      nb.val).skewed = false ∧ (getNbr t nb.val).version ≠ t.cfgVersion ∧ 30 * tps ≤ t.elapsed - k) ∧
    (∃ (s t : State) (c : Line) (k : Nat) (x : State), Running s t ∧ x = epochCheck c.ix t ∧ (getNbr x
      c.ix).epochSince = some k ∧ (getNbr x c.ix).epochSkew = false ∧ k + x.parN 0xB003 0 * tps < x.elapsed) ∧
    (∃ (s t : State) (c : Line), Running s t ∧ t.dm.member = true ∧ (∀ k, t.dm.whBeacon.getD c.ix none = some k → 5 *
      tps ≤ t.elapsed - k) ∧ pathSends t (2 + c.ix) = true) ∧
    (∃ (t : State) (x : Bind), stopped t = false ∧ (t.dm.binds.filter fun b => b.limit ≤ t.tick) = [x]) ∧
    (∃ (t : State) (x : Adopt) (k : Nat), stopped t = false ∧ t.dm.adopt = some x ∧ x.due = some k ∧ k ≤ t.elapsed) ∧
    (∃ (s t : State) (lane : Fin 2), Running s t ∧ (t.mate.lanes.getD lane.val {}).up = true ∧ 5 ≤ (t.mate.lanes.getD
      lane.val {}).quiet) ∧
    (∃ (s t : State) (lane : Fin 2) (frame : Bytes) (lag : BitVec 32), Running s t ∧ mateValid frame = false) ∧
    (∃ (s t : State) (lane : Fin 2) (frame : Bytes) (lag : BitVec 32), Running s t ∧ mateValid frame = true ∧
      t.mate.seen = false) ∧
    (∃ (t : State) (k i : Nat) (x : State), stopped t = false ∧ t.mate.activateAt = some k ∧ t.mate.idleAt = some i ∧
      k ≤ t.elapsed ∧ i < t.elapsed ∧ mateOn t = true ∧ x = setRole true { t with
        mate := { t.mate with activateAt := none, want := none, idleAt := none } } ∧ (x.mate.switch.map (·.done)).getD
      false = false) ∧
    (∃ (t : State) (k i : Nat) (x : State), stopped t = false ∧ t.mate.activateAt = some k ∧ t.mate.idleAt = some i ∧
      k ≤ t.elapsed ∧ i < t.elapsed ∧ mateOn t = true ∧ x = setRole true { t with
        mate := { t.mate with activateAt := none, want := none, idleAt := none } } ∧ (x.mate.switch.map (·.done)).getD
      false = true) ∧
    (∃ (t : State) (w : Switch), stopped t = false ∧ t.mate.switch = some w ∧ w.done = false ∧ w.mine = true ∧ w.acked
      = false ∧ w.t ≤ t.tick + 8) ∧
    (∃ (t : State) (w : Switch) (x : State), stopped t = false ∧ t.mate.switch = some w ∧ w.done = false ∧ (w.mine =
      false ∨ w.acked = true) ∧ w.t ≤ t.tick ∧ x = bump 861 { t with
        mate := { t.mate with switch := some { w with done := true } } } ∧ x.mate.active = true ∧ (setRole false
      x).mate.link = true) ∧
    (∃ (s t : State), Running s t ∧ 8 ≤ t.mate.healthRun ∧ autoWanted t = true) ∧
    (∃ (s t : State), Running s t ∧ afterHoldoff t = true ∧ t.mate.probeAt = none) ∧
    (∃ (s t : State) (k : Nat), Running s t ∧ t.mate.probeAt = some k ∧ afterHoldoff t = true ∧ k + probeWin t / 8 ≤
      t.elapsed) ∧
    (∃ (t : State), stopped t = false ∧ afterHoldoff t = true ∧ t.mate.active = true ∧ seniorNow t = false ∧ (∀ g,
      t.mate.grantTick = some g → g + lambda t ≤ t.tick)) ∧
    (∃ (t : State), stopped t = false ∧ afterHoldoff t = true ∧ t.mate.active = false ∧ seniorNow t = true ∧ inWindow
      t t.mate.heardAt = false ∧ (∀ g, t.mate.grantTick = some g → g + lambda t + 1 ≤ t.tick)) ∧
    (∃ (s t : State), Running s t ∧ afterHoldoff t = true ∧ inWindow t t.mate.heardAt = false ∧ t.mate.peer ≠ 2) ∧
    (∃ (s t : State) (o : FlashOp) (rest : List FlashOp), Running s t ∧ t.flash.ops = o :: rest ∧ o.kind =
      .domainRecord) ∧
    (∃ (s t : State) (lane : Fin 2) (frame : Bytes) (lag : BitVec 32), Running s t ∧ mateValid frame = true ∧
      t.mate.seen = true) ∧
    (∃ (t : State) (w : Switch) (x y : State), stopped t = false ∧ t.mate.switch = some w ∧ w.done = false ∧ (w.mine =
      false ∨ w.acked = true) ∧ w.t ≤ t.tick ∧ x = bump 861 { t with
        mate := { t.mate with switch := some { w with done := true } } } ∧ y = (if x.mate.active then setRole false x
      else if x.mate.link then wantActive x.elapsed x else x) ∧ y.mate.link = true) ∧
    (∃ (t : State) (w : Switch) (x y : State), stopped t = false ∧ t.mate.switch = some w ∧ w.done = false ∧ (w.mine =
      false ∨ w.acked = true) ∧ w.t ≤ t.tick ∧ x = bump 861 { t with
        mate := { t.mate with switch := some { w with done := true } } } ∧ y = (if x.mate.active then setRole false x
      else if x.mate.link then wantActive x.elapsed x else x) ∧ y.mate.link = false) ∧
    (∃ (t : State) (w : Switch), stopped t = false ∧ t.mate.switch = some w ∧ w.done = true ∧ w.mine = false ∧
      t.mate.activateAt = none) :=
  ⟨⟨{ base with dm := { (base).dm with up := [true, false, true, false, false] } }, _, 0, _, running_of
      (by decide +kernel), by decide +kernel, rfl, by decide +kernel⟩,
    ⟨{ base with dm := { (base).dm with up := [true, false, false, false, false] } }, _, 0, _, running_of
      (by decide +kernel), by decide +kernel, rfl, by decide +kernel⟩,
    ⟨{ base with flash := { (base).flash with ops := [{ kind := .domainRecord }] } }, _, { kind := .domainRecord },
      [], (domWrite 0 0 ({ base with flash := { (base).flash with ops := [{ kind := .domainRecord }] } })).getD base,
      running_of (by decide +kernel), by decide +kernel, by decide +kernel, some_getD (by decide +kernel)⟩,
    ⟨{ base with
        dm := { (base).dm with
          fetch := some ({ path := 0, version := 1, started := 100000000 - fetchTicks base / 8 } : Fetch) } }, _, {
        path := 0, version := 1, started := 100000000 - fetchTicks base / 8 }, running_of (by decide +kernel),
      by decide +kernel⟩,
    ⟨{ base with dm := { (base).dm with fetch := some { path := 0, version := 1, started := 0 } } }, _, {
        path := 0, version := 1, started := 0 }, _, running_of (by decide +kernel), by decide +kernel,
      by decide +kernel, rfl, by decide +kernel⟩,
    ⟨updNbr 1 (fun n => { n with version := 5 }) ({ base with
        dm := { (base).dm with fetch := some { path := 0, version := 1, started := 0 } } }), _, {
        path := 0, version := 1, started := 0 }, _, 1, running_of (by decide +kernel), by decide +kernel,
      by decide +kernel, rfl, by decide +kernel⟩,
    ⟨updNbr 2 (fun n => { n with skewSince := some 0, version := 1 }) base, _, 2, 0, running_of (by decide +kernel),
      by decide +kernel⟩,
    ⟨updNbr 0 (fun n => { n with epoch := 2, epochSince := some 0 }) (updTxH .a 24 (fun h => { h with
        cur := some { key := [], salt := [], epoch := 1 } }) base), _, .a, 0, _, running_of (by decide +kernel), rfl,
      by decide +kernel⟩,
    ⟨{ (setP (setP base 0xB001 0 [31]) 0xA000 1 [2]) with dm := {
          ((setP (setP base 0xB001 0 [31]) 0xA000 1 [2])).dm with member := true } }, _, .a, running_of
      (by decide +kernel), by decide +kernel, fun _ h => none_vac (by decide +kernel) h, by decide +kernel⟩,
    ⟨{ base with
        dm := { (base).dm with
          binds := [{ p := pk 0 0 [], crc := 0, handle := 0, origin := 0, number := 0, limit := 0 }] } }, {
        p := pk 0 0 [], crc := 0, handle := 0, origin := 0, number := 0, limit := 0 }, by decide +kernel⟩,
    ⟨{ base with dm := { (base).dm with adopt := some { version := 1, doc := [], owner := none, due := some 0 } } }, {
        version := 1, doc := [], owner := none, due := some 0 }, 0, by decide +kernel⟩,
    ⟨{ withMate with mate := { (withMate).mate with lanes := [{ up := true, quiet := 5 }, {}] } }, _, 0, running_of
      (by decide +kernel), by decide +kernel⟩,
    ⟨base, _, 1, [], 0, running_of (by decide +kernel), by decide +kernel⟩,
    ⟨base, _, 1, mateBytes, 0, running_of (by decide +kernel), by decide +kernel⟩,
    ⟨{ withMate with mate := { (withMate).mate with activateAt := some 0, idleAt := some 0 } }, 0, 0, _,
      by decide +kernel, by decide +kernel, by decide +kernel, by decide +kernel, by decide +kernel,
      by decide +kernel, rfl, by decide +kernel⟩,
    ⟨{ withMate with
        mate := { (withMate).mate with
          activateAt := some 0, idleAt := some 0, switch := some {
            mine := true, owner := none, t := 0, done := true } } }, 0, 0, _, by decide +kernel, by decide +kernel,
      by decide +kernel, by decide +kernel, by decide +kernel, by decide +kernel, rfl, by decide +kernel⟩,
    ⟨{ withMate with mate := { (withMate).mate with switch := some { mine := true, owner := none, t := 8 } } }, {
        mine := true, owner := none, t := 8 }, by decide +kernel⟩,
    ⟨{ withMate with mate := { (withMate).mate with switch := some { mine := false, owner := none, t := 0 } } }, {
        mine := false, owner := none, t := 0 }, _, by decide +kernel, by decide +kernel, by decide +kernel,
      by decide +kernel, by decide +kernel, rfl, by decide +kernel⟩,
    ⟨{ (setP withMate 0xB015 0 [1]) with mate := {
          ((setP withMate 0xB015 0 [1])).mate with healthRun := 8, active := false, peerFlags := 65 } }, _, running_of
      (by decide +kernel), by decide +kernel⟩,
    ⟨{ withMate with mate := { (withMate).mate with link := false, lostAt := some 0 } }, _, running_of
      (by decide +kernel), by decide +kernel⟩,
    ⟨{ withMate with mate := { (withMate).mate with link := false, lostAt := some 0, probeAt := some 0 } }, _, 0,
      running_of (by decide +kernel), by decide +kernel⟩,
    ⟨{ (setP withMate 0xB011 0 [1]) with mate := {
          ((setP withMate 0xB011 0 [1])).mate with link := false, lostAt := some 0 } }, by decide +kernel,
      by decide +kernel, by decide +kernel, by decide +kernel, fun _ h => none_vac (by decide +kernel) h⟩,
    ⟨{ (setP withMate 0xB011 0 [1]) with mate := {
          ((setP withMate 0xB011 0 [1])).mate with link := false, lostAt := some 0, active := false, confirmed := true
            } }, by decide +kernel, by decide +kernel, by decide +kernel, by decide +kernel, by decide +kernel, fun _
      h => none_vac (by decide +kernel) h⟩,
    ⟨{ withMate with mate := { (withMate).mate with link := false, lostAt := some 0 } }, _, running_of
      (by decide +kernel), by decide +kernel⟩,
    ⟨{ base with flash := { (base).flash with ops := [{ kind := .domainRecord }] } }, _, { kind := .domainRecord },
      [], running_of (by decide +kernel), by decide +kernel⟩,
    ⟨{ base with mate := { (base).mate with seen := true } }, _, 0, mateBytes, 0, running_of (by decide +kernel),
      by decide +kernel⟩,
    ⟨{ withMate with
        mate := { (withMate).mate with active := false, switch := some { mine := false, owner := none, t := 0 } } }, {
        mine := false, owner := none, t := 0 }, _, _, by decide +kernel, by decide +kernel, by decide +kernel,
      by decide +kernel, by decide +kernel, rfl, rfl, by decide +kernel⟩,
    ⟨{ withMate with
        mate := { (withMate).mate with link := false, switch := some { mine := false, owner := none, t := 0 } } }, {
        mine := false, owner := none, t := 0 }, _, _, by decide +kernel, by decide +kernel, by decide +kernel,
      by decide +kernel, by decide +kernel, rfl, rfl, by decide +kernel⟩,
    ⟨{ withMate with
        mate := { (withMate).mate with switch := some { mine := false, owner := none, t := 0, done := true } } }, {
        mine := false, owner := none, t := 0, done := true }, by decide +kernel⟩⟩

theorem witness_CalibrationEventsAct :
    (∃ (s t : State) (cv : Fin 16) (res : Vector SliceCal 68) (x : State), Running s t ∧ x = foreDone cv.val
      res.toList t ∧ (bootDone x (convLine cv.val) && bit ((x.pwr.move.map (·.want)).getD 0) (convLine cv.val).ix) =
      false) ∧
    (∃ (s t : State) (cv : Fin 16) (res : Vector SliceCal 64) (r : CalRun), Running s t ∧ t.cal.runs.find? (fun r =>
      bit r.meas cv.val) = some r ∧ r.start + measTicks cv.val ≤ t.elapsed) ∧
    (∃ (s t : State) (cv : Fin 16) (res : SliceCal) (w : List Int) (sub : Subst) (k : Nat) (x : State), Running s t ∧
      (getConv t cv.val).cur = some { sub := sub, spare := k, fade := none } ∧ fitTrims res = some w ∧ x = bump
      (convCnt cv.val 2) t) ∧
    (∃ (s t : State) (cv : Fin 16) (sub : Subst) (k j n : Nat), Running s t ∧ (getConv t cv.val).cur = some {
        sub := sub, spare := k, fade := some (j, n) } ∧ n ≤ j) ∧
    (∃ (s t : State) (o : FlashOp) (rest : List FlashOp) (x : State), Running s t ∧ t.flash.ops = o :: rest ∧ o.kind =
      .calStore ∧ o.aux = 0 ∧ calWrite o.data t = some x) ∧
    (∃ (s t : State) (o : FlashOp) (rest : List FlashOp), Running s t ∧ t.flash.ops = o :: rest ∧ o.kind = .calStore ∧
      o.aux = 0) ∧
    (∃ (s t : State) (cv : Fin 16) (v : BitVec 16) (x : State), Running s t ∧ (getConv t cv.val).readIn ≠ some (t.tick
      / 500) ∧ x = updConv cv.val (fun y => { y with temp := some v.toInt, readIn := some (t.tick / 500) }) t ∧ calSt
      x (convLine cv.val) ≠ .off ∧ (getConv x cv.val).calTemp = none) ∧
    (∃ (s t : State) (cv : Fin 16) (res : Vector SliceCal 68) (m : PwrMove) (x y : State), Running s t ∧ x = foreDone
      cv.val res.toList t ∧ (bootDone x (convLine cv.val) && bit ((x.pwr.move.map (·.want)).getD 0) (convLine
      cv.val).ix) = true ∧ y = carrierUp (convLine cv.val) (bootEnd (convLine cv.val) x) ∧ y.pwr.move = some m) ∧
    (∃ (s t : State) (cv : Fin 16) (res : Vector SliceCal 64) (r : CalRun), Running s t ∧ t.cal.runs.find? (fun r =>
      bit r.meas cv.val) = some r ∧ r.start + measTicks cv.val = t.elapsed + 1) ∧
    (∃ (s t : State) (cv : Fin 16) (res : SliceCal) (sub : Subst) (k : Nat) (x y : State), Running s t ∧ (getConv t
      cv.val).cur = some { sub := sub, spare := k, fade := none } ∧ fitTrims res = none ∧ x = bump (convCnt cv.val 2)
      t ∧ y = markChanged cv.val (sliceFailed cv.val (updConv cv.val (fun z => { z with
        out := setBit z.out k true, cur := none, subs := sub :: z.subs }) x))) ∧
    (∃ (s t : State) (o : FlashOp) (rest : List FlashOp) (r : CalRun) (x y : State), Running s t ∧ t.flash.ops = o ::
      rest ∧ o.kind = .calStore ∧ o.aux ≠ 0 ∧ t.cal.runs.find? (fun r => r.storing && r.no == o.aux) = some r ∧
      calWrite o.data t = some x ∧ y = finishOpt o.owner .ok (raise 0xC7 (recovered .b (recovered .a (flashEnded 0
      (bump 1008 x)))))) ∧
    (∃ (s t : State) (o : FlashOp) (rest : List FlashOp) (x : State), Running s t ∧ t.flash.ops = o :: rest ∧ o.kind =
      .calStore ∧ t.cal.runs.find? (fun r => r.storing && r.no == o.aux) = none ∧ calWrite o.data t = some x) ∧
    (∃ (s t : State) (o : FlashOp) (rest : List FlashOp) (r : CalRun), Running s t ∧ t.flash.ops = o :: rest ∧ o.kind
      = .calStore ∧ o.aux ≠ 0 ∧ t.cal.runs.find? (fun r => r.storing && r.no == o.aux) = some r) ∧
    (∃ (s t : State) (cv : Fin 16) (v : BitVec 16) (x : State) (u : Int), Running s t ∧ (getConv t cv.val).readIn ≠
      some (t.tick / 500) ∧ x = updConv cv.val (fun y => { y with
        temp := some v.toInt, readIn := some (t.tick / 500) }) t ∧ calSt x (convLine cv.val) ≠ .off ∧ (getConv x
      cv.val).calTemp = some u ∧ (v.toInt - u).natAbs ≤ x.parN 0xC002 0) ∧
    (∃ (s t : State) (cv : Fin 16) (v : BitVec 16) (x : State) (u : Int), Running s t ∧ (getConv t cv.val).readIn ≠
      some (t.tick / 500) ∧ x = updConv cv.val (fun y => { y with
        temp := some v.toInt, readIn := some (t.tick / 500) }) t ∧ calSt x (convLine cv.val) ≠ .off ∧ (getConv x
      cv.val).calTemp = some u ∧ x.parN 0xC002 0 < (v.toInt - u).natAbs ∧ calSt x (convLine cv.val) = .service ∧
      (getConv x cv.val).drifted = false) ∧
    (∃ (s t : State) (cv : Fin 16) (v : BitVec 16) (x : State), Running s t ∧ (getConv t cv.val).readIn ≠ some (t.tick
      / 500) ∧ x = updConv cv.val (fun y => { y with temp := some v.toInt, readIn := some (t.tick / 500) }) t ∧ calSt
      x (convLine cv.val) = .off) ∧
    (∃ (s t : State) (cv : Fin 16) (v : BitVec 16), Running s t ∧ (getConv t cv.val).readIn = some (t.tick / 500)) :=
  ⟨⟨base, _, 0, Vector.replicate 68 none, _, running_of (by decide +kernel), rfl, by decide +kernel⟩,
    ⟨{ base with cal := { (base).cal with runs := [{ mask := 1, meas := 0x8000, start := 0 }] } }, _, 15,
      Vector.replicate 64 none, { mask := 1, meas := 0x8000, start := 0 }, running_of (by decide +kernel),
      by decide +kernel⟩,
    ⟨updConv 15 (fun y => { y with
        cur := some { sub := { pos := 0, failed := false, req := [] }, spare := 67, fade := none } }) base, _, 15,
      some #v[0, 0, 0, 0], [0, 0, 0, 0], { pos := 0, failed := false, req := [] }, 67, _, running_of
      (by decide +kernel), by decide +kernel, by decide +kernel, rfl⟩,
    ⟨updConv 15 (fun y => { y with
        cur := some { sub := { pos := 0, failed := false, req := [] }, spare := 67, fade := some (3, 3) } }) base, _,
      15, { pos := 0, failed := false, req := [] }, 67, 3, 3, running_of (by decide +kernel), by decide +kernel⟩,
    ⟨{ base with flash := { (base).flash with ops := [{ kind := .calStore }] } }, _, { kind := .calStore }, [],
      (calWrite [] ({ base with flash := { (base).flash with ops := [{ kind := .calStore }] } })).getD base,
      running_of (by decide +kernel), by decide +kernel, by decide +kernel, by decide +kernel, some_getD
      (by decide +kernel)⟩,
    ⟨{ base with flash := { (base).flash with ops := [{ kind := .calStore }] } }, _, { kind := .calStore }, [],
      running_of (by decide +kernel), by decide +kernel⟩,
    ⟨withCal .service, _, 0, 0, _, running_of (by decide +kernel), by decide +kernel, rfl, by decide +kernel⟩,
    ⟨{ (withCal .boot) with
        pwr := { ((withCal .boot)).pwr with
          move := some {
            target := 4, want := 1, source := 0, had := 0, whisper := false, owner := none, started := 0, begun :=
              true } } }, _, 0, Vector.replicate 68 none, {
        target := 4, want := 1, source := 0, had := 0, whisper := false, owner := none, started := 0, begun := true },
      _, _, running_of (by decide +kernel), rfl, by decide +kernel, rfl, by decide +kernel⟩,
    ⟨let r : CalRun := { mask := 1, meas := 0x8000, start := 0 }; {
        { base with cal := { (base).cal with runs := [r] } } with elapsed := r.start + measTicks 15 - 1 }, _, 15,
      Vector.replicate 64 none, { mask := 1, meas := 0x8000, start := 0 }, running_of (by decide +kernel),
      by decide +kernel⟩,
    ⟨updConv 15 (fun y => { y with
        cur := some { sub := { pos := 0, failed := false, req := [] }, spare := 67, fade := none } }) base, _, 15,
      some #v[0, 0, 512, 0], { pos := 0, failed := false, req := [] }, 67, _, _, running_of (by decide +kernel),
      by decide +kernel, by decide +kernel, rfl, rfl⟩,
    ⟨calOpen, _, { kind := .calStore, aux := 1 }, [], calRun0, (calWrite [] calOpen).getD base, _, running_of
      (by decide +kernel), by decide +kernel, by decide +kernel, by decide +kernel, by decide +kernel, some_getD
      (by decide +kernel), rfl⟩,
    ⟨{ base with flash := { (base).flash with ops := [{ kind := .calStore, aux := 1 }] } }, _, {
        kind := .calStore, aux := 1 }, [], (calWrite [] ({ base with
        flash := { (base).flash with ops := [{ kind := .calStore, aux := 1 }] } })).getD base, running_of
      (by decide +kernel), by decide +kernel, by decide +kernel, by decide +kernel, some_getD (by decide +kernel)⟩,
    ⟨{ ({ base with flash := { (base).flash with ops := [{ kind := .calStore, aux := 1 }] } }) with cal := {
          (({ base with flash := { (base).flash with ops := [{ kind := .calStore, aux := 1 }] } })).cal with runs :=
            [calRun0] } }, _, { kind := .calStore, aux := 1 }, [], calRun0, running_of (by decide +kernel),
      by decide +kernel⟩,
    ⟨updConv 0 (fun y => { y with calTemp := some 0 }) (withCal .service), _, 0, 0, _, 0, running_of
      (by decide +kernel), by decide +kernel, rfl, by decide +kernel⟩,
    ⟨updConv 0 (fun y => { y with calTemp := some 0 }) (withCal .service), _, 0, 32767, _, 0, running_of
      (by decide +kernel), by decide +kernel, rfl, by decide +kernel⟩,
    ⟨withCal .off, _, 0, 0, _, running_of (by decide +kernel), by decide +kernel, rfl, by decide +kernel⟩,
    ⟨updConv 0 (fun y => { y with readIn := some (base.tick / 500) }) base, _, 0, 0, running_of (by decide +kernel),
      by decide +kernel⟩⟩

theorem witness_EngineStoreEventsAct :
    (∃ (s t : State) (r : PageReq), Running s t ∧ (t.stw.reqs.filter fun r => r.wait && 750000 ≤ t.elapsed - r.at_) =
      [r]) ∧
    (∃ (s t : State) (e : Fin 256) (r r2 : Run) (n : Nat) (w : EWord), Running s t ∧ (getEng t e.val).run = some r ∧
      r.ended = none ∧ nextWord t e.val = some (r2, n, w) ∧ 5800 < issueAt w r + costOf w) ∧
    (∃ (s t : State) (e : Fin 256) (pass : Bool), Running s t ∧ engTestDue t e.val = true) ∧
    (∃ (s t : State) (page : Fin 32768), Running s t ∧ (getPg t page.val).zero ≠ none ∧ (getPg t page.val).marked =
      false) ∧
    (∃ (s t : State) (ch : Fin 16) (l : Bool) (data : HostRead Bytes) (u : State), Running s t ∧ u = lateRead data
      (lateRead ({ value := none, late := l } : HostRead (Vector Byte 32)) t) ∧ (getCh u ch.val).run ≠ none ∧ (getCh u
      ch.val).cur = none ∧ (getCh u ch.val).abort = none) ∧
    (∃ (s t : State) (ch : Fin 16) (desc : Vector Byte 32) (l : Bool) (data : HostRead Bytes) (u : State), Running s t
      ∧ u = lateRead data (lateRead { value := some desc, late := l } t) ∧ (getCh u ch.val).run ≠ none ∧ (getCh u
      ch.val).cur = none ∧ (getCh u ch.val).abort = none ∧ (getCh u ch.val).index < 4096 ∧ descOk desc.toList = true ∧
      (descOf desc.toList).feed = false ∧ descBad u ((getCh u ch.val).tenant.getD 64) (descOf desc.toList) = none) ∧
    (∃ (s t : State) (ch : Fin 16) (x : DmaCur) (u : State), Running s t ∧ u = moveRest ch.val t ∧ (getCh u
      ch.val).cur = some x ∧ x.desc.intr = false ∧ (getCh u ch.val).abort = none ∧ x.desc.next ≠ 0) ∧
    (∃ (s t : State) (page : Fin 32768) (ones zs : Nat), Running s t ∧ (getPg t page.val).quar ≠ none ∧ t.parN 0xE003
      0 = 1 ∧ ones ≤ pageT t page.val ∧ ones < t.parN 0xE001 0 ∧ zs ≤ pageT t page.val ∧ zs < t.parN 0xE001 0) ∧
    (∃ (s t : State) (o : FlashOp) (rest : List FlashOp) (x : State), Running s t ∧ t.flash.ops = o :: rest ∧ o.kind =
      .fallowRecord ∧ fallowWrite (t.str.fallowList ++ (chunks 2 o.data).map unle) t = some x) ∧
    (∃ (s t : State) (o : FlashOp) (rest : List FlashOp), Running s t ∧ t.flash.ops = o :: rest ∧ o.kind =
      .fallowRecord) ∧
    (∃ (s t : State), Running s t ∧ t.parN 0xE002 0 ≠ 0 ∧ t.str.periodic = none ∧ t.str.lastScrub + t.parN 0xE002 0 *
      500000 ≤ t.elapsed) ∧
    (∃ (s t : State) (x : State), Running s t ∧ t.obs.harvWriting = true ∧ byteAt (t.par 0xF002 0) 0 ≠ 0 ∧
      t.obs.harvLost = false ∧ x = harvestPlace (t.par 0xF002 0) t.obs.harvRec t) ∧
    (∃ (s t : State) (page : Fin 32768), Running s t ∧ (getPg t page.val).zero ≠ none ∧ (getPg t page.val).marked =
      true) ∧
    (∃ (s t : State) (ch : Fin 16) (desc : Vector Byte 32) (l : Bool) (data : HostRead Bytes) (u : State), Running s t
      ∧ u = lateRead data (lateRead { value := some desc, late := l } t) ∧ (getCh u ch.val).run ≠ none ∧ (getCh u
      ch.val).cur = none ∧ (getCh u ch.val).abort = none ∧ (4096 ≤ (getCh u ch.val).index ∨ descOk desc.toList =
      false)) ∧
    (∃ (s t : State) (ch : Fin 16) (desc : Vector Byte 32) (l : Bool) (data : HostRead Bytes) (u : State) (n : Nat),
      Running s t ∧ u = lateRead data (lateRead { value := some desc, late := l } t) ∧ (getCh u ch.val).run ≠ none ∧
      (getCh u ch.val).cur = none ∧ (getCh u ch.val).abort = none ∧ (getCh u ch.val).index < 4096 ∧ descOk desc.toList
      = true ∧ (descOf desc.toList).feed = true ∧ (getCrc u (descOf desc.toList).crc).claim = some n ∧ n ≠ ch.val) ∧
    (∃ (s t : State) (ch : Fin 16) (desc : Vector Byte 32) (l : Bool) (data : HostRead Bytes) (u : State) (x : State),
      Running s t ∧ u = lateRead data (lateRead { value := some desc, late := l } t) ∧ (getCh u ch.val).run ≠ none ∧
      (getCh u ch.val).cur = none ∧ (getCh u ch.val).abort = none ∧ (getCh u ch.val).index < 4096 ∧ descOk desc.toList
      = true ∧ (descOf desc.toList).feed = true ∧ ((getCrc u (descOf desc.toList).crc).claim = none ∨ (getCrc u
      (descOf desc.toList).crc).claim = some ch.val) ∧ x = updCrc (descOf desc.toList).crc (fun c => { c with
        claim := some ch.val }) u ∧ descBad x ((getCh u ch.val).tenant.getD 64) (descOf desc.toList) = none) ∧
    (∃ (s t : State) (ch : Fin 16) (desc : Vector Byte 32) (l : Bool) (data : HostRead Bytes) (u : State) (a : Nat),
      Running s t ∧ u = lateRead data (lateRead { value := some desc, late := l } t) ∧ (getCh u ch.val).run ≠ none ∧
      (getCh u ch.val).cur = none ∧ (getCh u ch.val).abort = none ∧ (getCh u ch.val).index < 4096 ∧ descOk desc.toList
      = true ∧ (descOf desc.toList).feed = false ∧ descBad u ((getCh u ch.val).tenant.getD 64) (descOf desc.toList) =
      some a) ∧
    (∃ (s t : State) (ch : Fin 16) (z : DmaCur) (n : Nat) (u x y : State), Running s t ∧ u = moveRest ch.val t ∧
      (getCh u ch.val).cur = some z ∧ (getCh u ch.val).abort = some n ∧ x = bump (chCnt ch.val 1) (updCh ch.val (fun y
      => { y with cur := none, pages := [], index := y.index + 1, next := z.desc.next }) u) ∧ y = (if z.desc.intr then
      signal (byteAt (x.par 0xE011 0) ch.val % 64) x else x)) ∧
    (∃ (s t : State) (ch : Fin 16) (z : DmaCur) (u x y : State), Running s t ∧ u = moveRest ch.val t ∧ (getCh u
      ch.val).cur = some z ∧ (getCh u ch.val).abort = none ∧ x = bump (chCnt ch.val 1) (updCh ch.val (fun y => { y
          with cur := none, pages := [], index := y.index + 1, next := z.desc.next }) u) ∧ y = (if z.desc.intr then
      signal (byteAt (x.par 0xE011 0) ch.val % 64) x else x)) ∧
    (∃ (s t : State) (ch : Fin 16), Running s t ∧ (getCh (moveRest ch.val t) ch.val).cur = none) ∧
    (∃ (s t : State) (page : Fin 32768) (ones zs : Nat), Running s t ∧ (getPg t page.val).quar ≠ none ∧ t.parN 0xE003
      0 = 1 ∧ (pageT t page.val < ones ∨ t.parN 0xE001 0 ≤ ones ∨ pageT t page.val < zs ∨ t.parN 0xE001 0 ≤ zs)) ∧
    (∃ (s t : State), Running s t ∧ t.obs.harvWriting = true ∧ (byteAt (t.par 0xF002 0) 0 = 0 ∨ t.obs.harvLost =
      true)) :=
  ⟨⟨{ base with
        stw := { (base).stw with
          reqs := [{ owner := {}, tenant := 2, n := 1, wait := true, consec := false, order := 0, at_ := 99250000 }] }
          }, _, { owner := {}, tenant := 2, n := 1, wait := true, consec := false, order := 0, at_ := 99250000 },
      running_of (by decide +kernel), by decide +kernel⟩,
    ⟨{ withImg with
        stw := { (withImg).stw with
          engs := [(255, {
            run := some { tenant := 5, image := 256, slot := 0, cold := false, pc := 0, cycle := 5800 } })] } }, _,
      255, { tenant := 5, image := 256, slot := 0, cold := false, pc := 0, cycle := 5800 }, {
        tenant := 5, image := 256, slot := 0, cold := false, pc := 0, cycle := 5800 }, 8, eword 0, running_of
      (by decide +kernel), by decide +kernel⟩,
    ⟨{ base with pwr := { (base).pwr with state := 3 } }, _, 0, true, running_of (by decide +kernel),
      by decide +kernel⟩,
    ⟨{ base with stw := { (base).stw with pages := [(7, { zero := some 0 })] } }, _, 7, running_of
      (by decide +kernel), by decide +kernel⟩,
    ⟨withCh (some {}), _, 15, true, {}, _, running_of (by decide +kernel), rfl, by decide +kernel⟩,
    ⟨{ (withCh (some {})) with stw := { ((withCh (some {}))).stw with pages := [(7, { owner := some 5 })] } }, _, 15,
      desc0, false, {}, _, running_of (by decide +kernel), rfl, by decide +kernel⟩,
    ⟨updCh 15 (fun y => { y with cur := some { desc := { descOf (zeros 32) with next := 32 } } }) (withCh (some {})),
      _, 15, { desc := { descOf (zeros 32) with next := 32 } }, _, running_of (by decide +kernel), rfl,
      by decide +kernel⟩,
    ⟨setP ({ base with stw := { (base).stw with pages := [(7, { quar := some 0 })] } }) 0xE003 0 [1], _, 7, 0, 0,
      running_of (by decide +kernel), by decide +kernel⟩,
    ⟨{ base with flash := { (base).flash with ops := [{ kind := .fallowRecord }] } }, _, { kind := .fallowRecord },
      [], (fallowWrite [] ({ base with flash := { (base).flash with ops := [{ kind := .fallowRecord }] } })).getD
      base, running_of (by decide +kernel), by decide +kernel, by decide +kernel, some_getD (by decide +kernel)⟩,
    ⟨{ base with flash := { (base).flash with ops := [{ kind := .fallowRecord }] } }, _, { kind := .fallowRecord },
      [], running_of (by decide +kernel), by decide +kernel⟩,
    ⟨setP base 0xE002 0 [1, 0], _, running_of (by decide +kernel), by decide +kernel⟩,
    ⟨setP ({ base with obs := { (base).obs with harvWriting := true } }) 0xF002 0 (1 :: zeros 15), _, _, running_of
      (by decide +kernel), by decide +kernel, by decide +kernel, by decide +kernel, rfl⟩,
    ⟨{ base with stw := { (base).stw with pages := [(7, { zero := some 0, marked := true })] } }, _, 7, running_of
      (by decide +kernel), by decide +kernel⟩,
    ⟨withCh (some {}), _, 15, Vector.replicate 32 0xFF, false, {}, _, running_of (by decide +kernel), rfl,
      by decide +kernel⟩,
    ⟨{ (withCh (some {})) with str := { ((withCh (some {}))).str with crc := [{ claim := some 3 }] } }, _, 15, desc1,
      true, {}, _, 3, running_of (by decide +kernel), rfl, by decide +kernel⟩,
    ⟨{ (withCh (some {})) with stw := { ((withCh (some {}))).stw with pages := [(7, { owner := some 5 })] } }, _, 15,
      desc1, false, {}, _, _, running_of (by decide +kernel), rfl, by decide +kernel, by decide +kernel,
      by decide +kernel, by decide +kernel, by decide +kernel, by decide +kernel, by decide +kernel, rfl,
      by decide +kernel⟩,
    ⟨withCh (some {}), _, 15, desc0, false, {}, _, (descBad (withCh (some {})) 5 (descOf desc0.toList)).getD 0,
      running_of (by decide +kernel), rfl, by decide +kernel⟩,
    ⟨updCh 15 (fun y => { y with abort := some 7, cur := some { desc := { descOf (zeros 32) with intr := true } } })
      (withCh (some {})), _, 15, { desc := { descOf (zeros 32) with intr := true } }, 7, _, _, _, running_of
      (by decide +kernel), rfl, by decide +kernel, by decide +kernel, rfl, rfl⟩,
    ⟨updCh 15 (fun y => { y with cur := some { desc := { descOf (zeros 32) with intr := true } } }) (withCh (some
      {})), _, 15, { desc := { descOf (zeros 32) with intr := true } }, _, _, _, running_of (by decide +kernel), rfl,
      by decide +kernel, by decide +kernel, rfl, rfl⟩,
    ⟨withCh (some {}), _, 15, running_of (by decide +kernel), by decide +kernel⟩,
    ⟨setP ({ base with stw := { (base).stw with pages := [(7, { quar := some 0 })] } }) 0xE003 0 [1], _, 7, 40000, 0,
      running_of (by decide +kernel), by decide +kernel⟩,
    ⟨{ base with obs := { (base).obs with harvWriting := true, harvLost := true } }, _, running_of
      (by decide +kernel), by decide +kernel⟩⟩

theorem witness_WindowRowsAct :
    (∃ (t : State) (e : Entry) (rest : List Entry), stopped t = false ∧ freezesDue t = e :: rest) ∧
    (∃ (t : State) (e : Entry), stopped t = false ∧ nextDue t = some e ∧ e.isStep = false ∧ e.frozen = true) ∧
    (∃ (t : State) (e : Entry), stopped t = false ∧ nextDue t = some e ∧ e.isStep = true) ∧
    (∃ (t : State) (w : Nat × BitVec 16), stopped t = false ∧ t.sys.gpioWait.find? (fun w => w.1 ≤ t.elapsed) = some
      w) ∧
    (∃ (t : State), stopped t = false ∧ harvestDue t = true) ∧
    (∃ (t : State) (c : Line) (x : State), stopped t = false ∧ autoMask t c ≠ 0 ∧ x = (saSet (autoMask t c)).foldl
      (fun s _ => raise (lineEvt 0x80 c 7) s) (addInternal (.autoSwitch c (autoMask t c)) (roundUp 256 (t.tick + 256))
      t) ∧ (freezesDue x).find? (isAuto c) = none ∧ (entriesDue x).find? (isAuto c) = none) ∧
    (∃ (t : State) (c : Line) (e : Entry), stopped t = false ∧ autoMask t c = 0 ∧ (freezesDue t).find? (isAuto c) =
      none ∧ (entriesDue t).find? (isAuto c) = some e) ∧
    (∃ (t : State), stopped t = false ∧ t.leaseDone = false ∧ t.tick % 500 = 0) :=
  ⟨⟨{ withEntry with tick := 99 }, entry0, [], by decide +kernel⟩,
    ⟨{ { base with cmd := { (base).cmd with entries := [{ entry0 with frozen := true }] } } with tick := 100 }, {
          entry0 with frozen := true }, by decide +kernel⟩,
    ⟨{ { base with cmd := { (base).cmd with entries := [{ entry0 with opcode := 0x203 }] } } with tick := 100 }, {
          entry0 with opcode := 0x203 }, by decide +kernel⟩,
    ⟨{ base with sys := { (base).sys with gpioWait := [(100000000, 1)] } }, (100000000, 1), by decide +kernel⟩,
    ⟨base, by decide +kernel⟩,
    ⟨setP (updTxH .a 0 (fun h => { h with next := some { key := [], salt := [], epoch := 0 } }) { base with
        tick := 1 }) 0x8001 1 [1], .a, _, by decide +kernel, by decide +kernel, rfl, by decide +kernel⟩,
    ⟨{ { base with cmd := { (base).cmd with entries := [autoEntry] } } with tick := 100 }, .a, autoEntry,
      by decide +kernel⟩,
    ⟨{ base with tick := 500 }, by decide +kernel⟩⟩

/-! ## Witnesses of the statements about the protocol -/

/-- A command, its row and its packet on the state where they are put. -/
def Sent (c : Instr) (i : CmdInfo) (p : Packet) (s t : State) : Prop :=
  hostCommand c = some (i, p) ∧ packetWf p = true ∧ Running s t

theorem sent_of {c : Instr} {i : CmdInfo} {p : Packet} {s : State}
    (h : (packetWf p && s.windowDone && !stopped s) = true) (hc : hostCommand c = some (i, p)) : Sent c i p s s := by
  simp only [Bool.and_eq_true, Bool.not_eq_true'] at h
  exact ⟨hc, h.1.1, running_of (by simp [h.1.2, h.2])⟩

def idPk : Packet := pk 1 0 (zeros 16)
/-- The same packet with a wrong check value, with a wrong length and by the mailbox. -/
def badCrc : Packet := { idPk with crc := idPk.crc + 1 }
def badLen : Packet := { idPk with paramLen := 33 }
def viaMail : Packet := { idPk with q := 8 }
def withOpen (n : Nat) : State := { base with cmd := { base.cmd with opens := List.replicate n open0 } }
def cached (p : Packet) (crc : Nat) : CacheEnt := { key := packetKey p, crc := crc, cpl := {} }
def withCache (crc : Nat) : State := { base with cmd := { base.cmd with cache := [cached idPk crc] } }
def withFault (s : State) : State := { s with sys := { s.sys with deviceFault := true } }
def fetched (p : Packet) (s : State) : State := (fetch 1 p s).getD s

theorem witness_StepRunsFrontCommand :
    (∃ s : State, s.pending = []) ∧ ∃ (s : State) (c : Instr) (rest : List Instr), s.pending = c :: rest :=
  ⟨⟨base, rfl⟩, ⟨{ base with pending := [.perstN] }, .perstN, [], rfl⟩⟩

theorem witness_StepKeepsPins : ∃ s t : State, PinsKept s ∧ step s = .next t :=
  ⟨State.reset, State.reset, by unfold PinsKept; decide +kernel, rfl⟩

theorem witness_WellFormedCommandsComplete : (∃ c : Instr, c.wf = true) ∧ ∃ c : Instr, c.wf = false :=
  ⟨⟨.perstN, rfl⟩, ⟨.identify { idPk with buf := [0] }, by decide +kernel⟩⟩

theorem witness_WindowPrecedesCommands : ∃ c : Instr, ofPins c = false ∧ ofWindow c = false :=
  ⟨.pcieFunctionReset, rfl, rfl⟩

theorem witness_HeldDeviceChangesNothing :
    (∃ (c : Instr) (s : State), s.pwr.tripped = true ∧ ofPins c = false ∧ c.wf = true) ∧
    ∃ (c : Instr) (s : State), s.boot.inReset = true ∧ ofPins c = false ∧ c.wf = true :=
  ⟨⟨.pcieFunctionReset, { base with pwr := { base.pwr with tripped := true } }, rfl, rfl, rfl⟩,
    ⟨.pcieFunctionReset, State.reset, rfl, rfl, rfl⟩⟩

theorem witness_UnfetchedPacketsWait :
    (∃ (c : Instr) (i : CmdInfo) (p : Packet) (s : State) (t : State), Sent c i p s t ∧ t.sys.fwRunning = false) ∧
      (∃ (c : Instr) (i : CmdInfo) (p : Packet) (s : State) (t : State), Sent c i p s t ∧ 4096 ≤ inFlight t) ∧
    (∃ (c : Instr) (i : CmdInfo) (p : Packet) (s : State) (t : State), Sent c i p s t ∧ p.q.val < 8 ∧
      nextVisit t ≠ some p.q.val) ∧
    ∃ (c : Instr) (i : CmdInfo) (p : Packet) (s : State) (t : State), Sent c i p s t ∧ p.q.val = 8 ∧
      t.cmd.mb.busy = false :=
  ⟨⟨.identify idPk, _, _, { base with sys := { base.sys with fwRunning := false } }, _,
      sent_of (by decide +kernel) rfl, rfl⟩,
    ⟨.identify idPk, _, _, withOpen 4096, _, sent_of (by decide +kernel) rfl, by decide +kernel⟩,
    ⟨.identify { idPk with q := 7 }, _, _, base, _, sent_of (by decide +kernel) rfl, by decide +kernel,
      by decide +kernel⟩,
    ⟨.identify viaMail, _, _, base, _, sent_of (by decide +kernel) rfl, rfl, rfl⟩⟩

theorem fetched_of {p : Packet} {s : State} (h : (fetch 1 p s).isSome = true) : fetch 1 p s = some (fetched p s) := by
  unfold fetched
  cases hf : fetch 1 p s with
  | none => rw [hf] at h; cases h
  | some u => rfl

theorem witness_PacketFaultsAnswered :
    (∃ (p : Packet) (s : State) (t : State) (u : State) (r : Refuse), Sent (.identify p) infoIdentify p s t ∧
      fetch 1 p t = some u ∧ checkLen 1 p = some r) ∧
    (∃ (p : Packet) (s : State) (t : State) (u : State), Sent (.identify p) infoIdentify p s t ∧
      fetch 1 p t = some u ∧ checkLen 1 p = none ∧
      p.crcPresent = true ∧ packetCrc 1 p ≠ p.crc.toNat) ∧
    (∃ (p : Packet) (s : State) (t : State) (u : State) (k : Cpl), Sent (.identify p) infoIdentify p s t ∧
      fetch 1 p t = some u ∧ checkLen 1 p = none ∧
      packetCrc 1 p = p.crc.toNat ∧ dupOf u (packetKey p) (packetCrc 1 p) = .replay k) ∧
    ∃ (p : Packet) (s : State) (t : State) (u : State) (st : Nat), Sent (.identify p) infoIdentify p s t ∧
      fetch 1 p t = some u ∧ checkLen 1 p = none ∧
      packetCrc 1 p = p.crc.toNat ∧ dupOf u (packetKey p) (packetCrc 1 p) = .refuse st :=
  ⟨⟨badLen, base, _, fetched badLen base, _, sent_of (by decide +kernel) rfl, fetched_of (by decide +kernel),
      some_getD (d := { step := 0, st := 0 }) (by decide +kernel)⟩,
    ⟨badCrc, base, _, fetched badCrc base, sent_of (by decide +kernel) rfl, fetched_of (by decide +kernel),
      by decide +kernel, by decide +kernel, by decide +kernel⟩,
    ⟨idPk, withCache (packetCrc 1 idPk), _, fetched idPk (withCache (packetCrc 1 idPk)), {},
      sent_of (by decide +kernel) rfl, fetched_of (by decide +kernel), by decide +kernel, by decide +kernel,
        by decide +kernel⟩,
    ⟨idPk, withCache 0, _, fetched idPk (withCache 0), 0x40,
      sent_of (by decide +kernel) rfl, fetched_of (by decide +kernel), by decide +kernel, by decide +kernel,
        by decide +kernel⟩⟩

/-- A state where command `{0, 7, seq}` waits with check value 5, and the newest sequence is `n`. -/
def dupState (opens : List OpenCmd) (n : Option Nat) : State :=
  { base with cmd := { base.cmd with opens := opens, newest := n :: List.replicate 8 none } }
def key7 (seq : Nat) : CmdKey := { q := 0, tag := 7, seq := seq }

theorem witness_DuplicateTable :
    (∃ (s : State) (k : CmdKey) (crc : Nat) (e : CacheEnt), s.cmd.cache.find? (·.key == k) = some e ∧ e.crc = crc) ∧
    (∃ (s : State) (k : CmdKey) (crc : Nat) (e : CacheEnt), s.cmd.cache.find? (·.key == k) = some e ∧ e.crc ≠ crc) ∧
    (∃ (s : State) (k : CmdKey) (crc : Nat) (x : CmdKey × Nat), s.cmd.cache.find? (·.key == k) = none ∧
      (undecided s).find? (·.1 == k) = some x ∧ x.2 = crc) ∧
    (∃ (s : State) (k : CmdKey) (crc : Nat) (x : CmdKey × Nat), s.cmd.cache.find? (·.key == k) = none ∧
      (undecided s).find? (·.1 == k) = some x ∧ x.2 ≠ crc) ∧
    (∃ (s : State) (k : CmdKey), s.cmd.cache.find? (·.key == k) = none ∧ (undecided s).find? (·.1 == k) = none ∧
      ∃ x ∈ undecided s, x.1.q = k.q ∧ x.1.tag = k.tag) ∧
    (∃ (s : State) (k : CmdKey), s.cmd.cache.find? (·.key == k) = none ∧ (undecided s).find? (·.1 == k) = none ∧
      (∀ x ∈ undecided s, ¬(x.1.q = k.q ∧ x.1.tag = k.tag)) ∧ s.cmd.newest.getD k.q none = none) ∧
    (∃ (s : State) (k : CmdKey) (n : Nat), s.cmd.cache.find? (·.key == k) = none ∧
      (undecided s).find? (·.1 == k) = none ∧
      (∀ x ∈ undecided s, ¬(x.1.q = k.q ∧ x.1.tag = k.tag)) ∧ s.cmd.newest.getD k.q none = some n ∧
      (n + 65536 - k.seq) % 65536 = 32768) ∧
    ∃ (s : State) (k : CmdKey) (n : Nat), s.cmd.cache.find? (·.key == k) = none ∧
      (undecided s).find? (·.1 == k) = none ∧
      (∀ x ∈ undecided s, ¬(x.1.q = k.q ∧ x.1.tag = k.tag)) ∧ s.cmd.newest.getD k.q none = some n ∧
      (n + 65536 - k.seq) % 65536 = 32767 :=
  ⟨⟨withCache 5, packetKey idPk, 5, cached idPk 5, by decide +kernel, by decide +kernel⟩,
    ⟨withCache 5, packetKey idPk, 6, cached idPk 5, by decide +kernel, by decide +kernel⟩,
    ⟨dupState [open0] none, key7 7, 0, (key7 7, 0), by decide +kernel, by decide +kernel, rfl⟩,
    ⟨dupState [open0] none, key7 7, 1, (key7 7, 0), by decide +kernel, by decide +kernel, by decide +kernel⟩,
    ⟨dupState [open0] none, key7 8, by decide +kernel, by decide +kernel, (key7 7, 0), by decide +kernel, rfl, rfl⟩,
    ⟨dupState [] none, key7 8, by decide +kernel, by decide +kernel, by decide +kernel, by decide +kernel⟩,
    ⟨dupState [] (some 32775), key7 7, 32775, by decide +kernel, by decide +kernel, by decide +kernel,
      by decide +kernel, rfl⟩,
    ⟨dupState [] (some 32774), key7 7, 32774, by decide +kernel, by decide +kernel, by decide +kernel,
      by decide +kernel, rfl⟩⟩

def noSession : State := { base with cmd := { base.cmd with sess := List.replicate 9 none } }
def plainSession : State := { base with cmd := { base.cmd with sess := some {} :: List.replicate 8 none } }
def firstBad (i : CmdInfo) (p : Packet) (t : State) : Option Refuse :=
  firstOf (checkSession i p t :: checkHeader i p ++ checkParams i p)

theorem witness_CommonChecksRefuse :
    (∃ (p : Packet) (s : State) (t : State) (r : Refuse), Taken 0x10 p s t ∧ firstBad infoParamGet p t = some r ∧
      checkSession infoParamGet p t = some r) ∧
    (∃ (p : Packet) (s : State) (t : State) (r : Refuse), Taken 1 p s t ∧ firstBad infoIdentify p t = some r ∧
      firstOf (checkHeader infoIdentify p) = some r) ∧
    ∃ (p : Packet) (s : State) (t : State) (r : Refuse), Taken 1 p s t ∧ firstBad infoIdentify p t = some r ∧
      firstOf (checkParams infoIdentify p) = some r :=
  ⟨⟨pk 0x10 0 (zeros 24), noSession, _, { step := 7, st := 0x31 }, taken_of (by decide +kernel), by decide +kernel,
      by decide +kernel⟩,
    ⟨pk 1 3 (zeros 16), base, _, { step := 8, st := 0x11, detail := 0x80000012 }, taken_of (by decide +kernel),
      by decide +kernel, by decide +kernel⟩,
    ⟨pk 1 0 (1 :: zeros 15), base, _, { step := 8, st := 0x11, detail := 0 }, taken_of (by decide +kernel),
      by decide +kernel, by decide +kernel⟩⟩

theorem witness_NoSessionMeansWrongState :
    (∃ (p : Packet) (s : State) (t : State), Taken 0x10 p s t ∧ getSess t p.q.val = none) ∧
    (∃ (p : Packet) (s : State) (t : State) (x : Session), Taken 3 p s t ∧ getSess t p.q.val = some x) ∧
    ∃ (p : Packet) (s : State) (t : State) (x : Session), Taken 0x4401 p s t ∧ getSess t p.q.val = some x ∧
      x.expert = false ∧ infoRxCapture.op.testBit 14 = true :=
  ⟨⟨pk 0x10 0 (zeros 24), noSession, _, taken_of (by decide +kernel), by decide +kernel⟩,
    ⟨pk 3 0 [], base, _, { expert := true }, taken_of (by decide +kernel), by decide +kernel⟩,
    ⟨pk 0x4401 1 (zeros 24), plainSession, _, {}, taken_of (by decide +kernel), by decide +kernel, rfl,
      by decide +kernel⟩⟩

theorem witness_UnassignedOpcodesRefused :
    ∃ (op : BitVec 16) (p : Packet) (s t : State), op ≠ 0 ∧ assigned.contains op.toNat = false ∧ Taken op.toNat p s t :=
  ⟨0xFFFF, pk 0xFFFF 0 [], base, taken 0xFFFF (pk 0xFFFF 0 []) base, by decide, by decide +kernel,
    taken_of (by decide +kernel)⟩

theorem witness_DeviceFaultAnswersCommands :
    (∃ (p : Packet) (s : State) (t : State) (u : State), Sent (.identify p) infoIdentify p s t ∧
      fetch 1 p t = some u ∧ checkLen 1 p = none ∧
      packetCrc 1 p = p.crc.toNat ∧ u.sys.deviceFault = true ∧ dupOf u (packetKey p) (packetCrc 1 p) = .fresh) ∧
    ∃ (p : Packet) (s : State) (t : State) (u : State) (k : Cpl), Sent (.identify p) infoIdentify p s t ∧
      fetch 1 p t = some u ∧ checkLen 1 p = none ∧
      packetCrc 1 p = p.crc.toNat ∧ u.sys.deviceFault = true ∧ dupOf u (packetKey p) (packetCrc 1 p) = .replay k :=
  ⟨⟨idPk, withFault base, _, fetched idPk (withFault base), sent_of (by decide +kernel) rfl,
    fetched_of (by decide +kernel),
      by decide +kernel, by decide +kernel, by decide +kernel, by decide +kernel⟩,
    ⟨idPk, withFault (withCache (packetCrc 1 idPk)), _, fetched idPk (withFault (withCache (packetCrc 1 idPk))), {},
      sent_of (by decide +kernel) rfl, fetched_of (by decide +kernel), by decide +kernel, by decide +kernel,
      by decide +kernel, by decide +kernel⟩⟩

theorem witness_AnswerFrame :
    (∃ s : State, ∃ r : Reply, SMap.wf (0 : Byte) s.hostMem = true ∧ ∀ bs, r ≠ .data bs) ∧
    (∃ (s : State) (p : Packet) (bs : Bytes), SMap.wf (0 : Byte) s.hostMem = true ∧
      fld (paramBytes p) 8 4 < bs.length) ∧
    ∃ (s : State) (p : Packet) (bs : Bytes), SMap.wf (0 : Byte) s.hostMem = true ∧ p.q.val < 8 ∧
      bs.length = fld (paramBytes p) 8 4 :=
  ⟨⟨base, .ok 0, rfl, fun _ h => by cases h⟩, ⟨base, idPk, [1], rfl, by decide +kernel⟩,
    ⟨base, pk 1 0 (zeros 8 ++ le 4 1 ++ zeros 4), [1], rfl, by decide, by decide +kernel⟩⟩

/-! ## Witnesses of the statements about timed commands -/

def placedB (cls : ChangeClass) (p : Packet) (t : State) (x : Nat) (late : Bool) : Bool :=
  (match placeAt cls p t.tick with
    | .ok y => y == (x, late)
    | .error _ => false) && (cls != .disruptive || p.allowHit) && decide (timedUsed t < 1024)

theorem placed_of {cls : ChangeClass} {p : Packet} {t : State} {x : Nat} {late : Bool}
    (h : placedB cls p t x late = true) : Placed cls p t x late := by
  simp only [placedB, Bool.and_eq_true, decide_eq_true_eq] at h
  obtain ⟨⟨h1, h2⟩, h3⟩ := h
  refine ⟨?_, ?_, h3⟩
  · cases hp : placeAt cls p t.tick with
    | ok y => rw [hp] at h1; rw [eq_of_beq h1]
    | error e => rw [hp] at h1; cases h1
  · intro hc; rw [hc] at h2; simpa using h2

theorem placeAt_of {cls : ChangeClass} {p : Packet} {n x : Nat} {late : Bool}
    (h : (match placeAt cls p n with
      | .ok y => y == (x, late)
      | .error _ => false) = true) : placeAt cls p n = .ok (x, late) := by
  cases hp : placeAt cls p n with
  | ok y => rw [hp] at h; rw [eq_of_beq h]
  | error e => rw [hp] at h; cases h

def hit (op : Nat) (p : Packet) : Packet :=
  let q : Packet := { p with allowHit := true }
  { q with crc := BitVec.ofNat 32 (packetCrc op q) }

/-- The state with a session whose shadow set is `recs`, and with a prepared Solstice of queue 0 and class `cls`. -/
def shadowed (recs : SMap Bytes) : State :=
  { base with cmd := { base.cmd with sess := some { expert := true, shadow := recs } :: List.replicate 8 none } }
def solOf (cls : ChangeClass) : Solstice := { handle := 2, owner := some 0, recs := [], cls := cls }
def withSolOf (cls : ChangeClass) : State := { base with cmd := { base.cmd with sols := [solOf cls] } }

/-- What a COMMIT of class `cls` at tick `x` needs. -/
def CommitPlaced (cls : ChangeClass) : Prop :=
  ∃ (p : Packet) (s t : State) (recs : SMap Bytes) (T x : Nat) (late : Bool), Ready infoCommit p s t ∧
    recs = shadowOf t p.q.val ∧ placeSet t p recs = (T, cls) ∧
    checkSet t (tableApply (viewAt t T fun _ => true) recs) recs = none ∧ Placed cls p t x late

def commitPk (a : BitVec 64) : Packet := pk 0x12 0 [] a
def recsLine : SMap Bytes := [(0x301301, le 4 6)]
def recsHit : SMap Bytes := [(0x301501, le 4 20000)]

theorem witness_CommitPlaced : CommitPlaced .line :=
  ⟨commitPk 512, shadowed recsLine, taken 0x12 (commitPk 512) (shadowed recsLine), recsLine, 512, 512, false,
    ready_of (by decide +kernel), by decide +kernel, by decide +kernel, by decide +kernel,
      placed_of (by decide +kernel)⟩

/-- What a timed command of the row `i` and class `cls` needs, `q` being what its parameters have to meet. -/
def CmdPlaced (i : CmdInfo) (cls : ChangeClass) (q : Bytes → Prop) : Prop :=
  ∃ (p : Packet) (s t : State) (x : Nat) (late : Bool), Ready i p s t ∧ q (paramBytes p) ∧ Placed cls p t x late

theorem cmdPlaced_of {i : CmdInfo} {cls : ChangeClass} {q : Bytes → Prop} (p : Packet) (x : Nat) (late : Bool)
    (h : readyB i p base = true) (hq : q (paramBytes p)) (hp : placedB cls p (taken i.op p base) x late = true) :
    CmdPlaced i cls q :=
  ⟨p, base, _, x, late, ready_of h, hq, placed_of hp⟩

theorem witness_TimedCommandsSchedule :
    (∃ (p : Packet) (s : State) (t : State) (x : Nat) (late : Bool) (y : Solstice), Ready infoSolsticeArm p s t ∧
      findSol t (byteAt (paramBytes p) 0) = some y ∧
      y.owner = some p.q.val ∧ y.st = .prepared ∧ Placed y.cls p t x late) ∧
    CmdPlaced infoTmStep .disruptive (fun b => sx 64 (fld b 0 8) < 0) ∧
    CmdPlaced infoTmStep .local_ (fun b => 0 < sx 64 (fld b 0 8)) ∧
    CmdPlaced infoPpsAlign .local_ (fun b => byteAt b 0 = 3) ∧
    CmdPlaced infoRxAcquire .disruptive (fun b => byteAt b 0 = 1) ∧
    CmdPlaced infoRxCapture .local_ (fun b => byteAt b 16 = 2 ∧ rsv b 17 20 = true ∧ fld b 20 4 = 65536) ∧
    CmdPlaced infoKeySwitch .line (fun b => fld b 0 4 = 2 ^ 26 - 1) ∧
    CmdPlaced infoKeyZeroise .local_ (fun b => fld b 0 4 = 2 ^ 26 - 1 ∧ byteAt b 4 = 3) ∧
    CmdPlaced infoObsClear .local_ (fun b => fld b 0 2 = 2047 ∧ fld b 2 2 = 1) ∧
    CmdPlaced infoObsHarvestNow .local_ (fun _ => True) ∧ CmdPlaced infoNop .local_ (fun _ => True) :=
  ⟨⟨pk 0x14 0 [2], withSolOf .local_, taken 0x14 (pk 0x14 0 [2]) (withSolOf .local_), 8, false, solOf .local_,
      ready_of (by decide +kernel), by decide +kernel, by decide +kernel, rfl, placed_of (by decide +kernel)⟩,
    cmdPlaced_of (hit 0x203 (pk 0x203 0 (List.replicate 8 0xFF) 8)) 8 false (by decide +kernel) (by decide +kernel)
      (by decide +kernel),
    cmdPlaced_of (pk 0x203 0 (1 :: zeros 7) 8) 8 false (by decide +kernel) (by decide +kernel) (by decide +kernel),
    cmdPlaced_of (pk 0x206 0 [3] 8) 8 false (by decide +kernel) (by decide +kernel) (by decide +kernel),
    cmdPlaced_of (hit 0x401 (pk 0x401 1 [1] 8)) 8 false (by decide +kernel) (by decide +kernel) (by decide +kernel),
    cmdPlaced_of (pk 0x4401 1 (zeros 16 ++ [2, 0, 0, 0] ++ le 4 65536) 8) 8 false (by decide +kernel) (by decide +kernel)
      (by decide +kernel),
    cmdPlaced_of (pk 0x802 1 (le 4 (2 ^ 26 - 1)) 512) 512 false (by decide +kernel) (by decide +kernel) (by decide +kernel),
    cmdPlaced_of (pk 0x803 1 (le 4 (2 ^ 26 - 1) ++ [3])) 8 false (by decide +kernel) (by decide +kernel) (by decide +kernel),
    cmdPlaced_of (pk 0xF00 0 [0xFF, 7, 1, 0]) 8 false (by decide +kernel) (by decide +kernel) (by decide +kernel),
    cmdPlaced_of (pk 0xF01 0 []) 8 false (by decide +kernel) trivial (by decide +kernel),
    cmdPlaced_of (pk 0 0 [] 8) 8 false (by decide +kernel) trivial (by decide +kernel)⟩

def bindPk : Packet := pk 0xB08 0 ([2, 0, 4, 0] ++ le 4 9 ++ le 8 8)
def bindState (calls : List Call) : State :=
  { withSolOf .local_ with dm := { base.dm with member := true, domain := 1, calls := calls } }
def call0 : Call := { origin := 4, number := 9, version := 0, t := 512 }
def bind0 (p : Packet) : Bind :=
  { p := p, crc := packetCrc 0x0B08 p, handle := byteAt (paramBytes p) 0, origin := fld (paramBytes p) 2 2,
    number := fld (paramBytes p) 4 4, limit := fld (paramBytes p) 8 8 }
/-- What a DM_CALL_BIND needs, with what has been found of its call. -/
def BindReady (f : Option Call) : Prop :=
  ∃ (p : Packet) (s t : State) (b : Bytes) (y : Solstice), b = paramBytes p ∧ Ready infoDmCallBind p s t ∧
    findSol t (byteAt b 0) = some y ∧ y.owner = some p.q.val ∧ y.st = .prepared ∧ byteAt b 1 = 0 ∧
    t.tick + 8 ≤ fld b 8 8 ∧ fld b 8 8 - t.tick ≤ 2 ^ 32 ∧ t.dm.member = true ∧
    t.dm.calls.find? (bindMatches (bind0 p)) = f

theorem witness_DmCallBind : BindReady none ∧ BindReady (some call0) :=
  ⟨⟨bindPk, bindState [], taken 0xB08 bindPk (bindState []), _, solOf .local_, rfl, ready_of (by decide +kernel),
      by decide +kernel, by decide +kernel, rfl, by decide +kernel, by decide +kernel, by decide +kernel,
        by decide +kernel,
      by decide +kernel⟩,
    ⟨bindPk, bindState [call0], taken 0xB08 bindPk (bindState [call0]), _, solOf .local_, rfl,
      ready_of (by decide +kernel), by decide +kernel, by decide +kernel, rfl, by decide +kernel, by decide +kernel,
      by decide +kernel, by decide +kernel, by decide +kernel⟩⟩

theorem witness_AtTickPlacement :
    (∃ p : Packet, p.atTick.toNat % 256 = 255) ∧ (∃ (p : Packet) (now : Nat), p.atTick.toNat - now = 2 ^ 32 + 1) ∧
    (∃ (p : Packet) (now : Nat), p.atTick.toNat ≠ 0 ∧ p.atTick.toNat - now = 2 ^ 32 ∧ now + 8 ≤ p.atTick.toNat) ∧
    (∃ (p : Packet) (now : Nat), p.atTick.toNat = now + 8) ∧
    (∃ (p : Packet) (now : Nat), p.atTick.toNat + 1 = now + 8 ∧ p.latePolicy = true) ∧
    ∃ (p : Packet) (now : Nat), p.atTick.toNat + 256 = (now + 264 + 255) / 256 * 256 ∧ p.latePolicy = false :=
  ⟨⟨pk 0 0 [] 511, by decide +kernel⟩, ⟨pk 0 0 [] 0x100000001, 0, by decide +kernel⟩,
    ⟨pk 0 0 [] 0x100000000, 0, by decide +kernel, by decide +kernel, by decide +kernel⟩,
    ⟨pk 0 0 [] 8, 0, by decide +kernel⟩, ⟨{ pk 0 0 [] 7 with latePolicy := true }, 0, by decide +kernel, rfl⟩,
    ⟨pk 0 0 [] 256, 0, by decide +kernel, rfl⟩⟩

theorem witness_LineActionsAtMultiframes :
    (∃ (p : Packet) (now : Nat) (x : Nat) (late : Bool), placeAt .line p now = .ok (x, late)) ∧
    (∃ (p : Packet) (s : State) (t : State), p.atTick.toNat % 256 ≠ 0 ∧ Ready infoKeySwitch p s t ∧
      fld (paramBytes p) 0 4 < 2 ^ 26) ∧
    (∃ (p : Packet) (s : State) (t : State) (recs : SMap Bytes) (T : Nat), p.atTick.toNat % 256 ≠ 0 ∧
      Ready infoCommit p s t ∧ recs = shadowOf t p.q.val ∧
      placeSet t p recs = (T, .line) ∧ checkSet t (tableApply (viewAt t T fun _ => true) recs) recs = none) ∧
    ∃ (p : Packet) (s : State) (t : State) (y : Solstice), p.atTick.toNat % 256 ≠ 0 ∧ Ready infoSolsticeArm p s t ∧
      findSol t (byteAt (paramBytes p) 0) = some y ∧ y.owner = some p.q.val ∧ y.st = .prepared ∧ y.cls = .line :=
  ⟨⟨pk 0 0 [] 512, 248, 512, false, placeAt_of (by decide +kernel)⟩,
    ⟨pk 0x802 1 (zeros 4) 511, base, taken 0x802 (pk 0x802 1 (zeros 4) 511) base, by decide +kernel,
      ready_of (by decide +kernel), by decide +kernel⟩,
    ⟨commitPk 511, shadowed recsLine, taken 0x12 (commitPk 511) (shadowed recsLine), recsLine, 511,
      by decide +kernel, ready_of (by decide +kernel), by decide +kernel, by decide +kernel, by decide +kernel⟩,
    ⟨pk 0x14 0 [2] 511, withSolOf .line, taken 0x14 (pk 0x14 0 [2] 511) (withSolOf .line), solOf .line,
      by decide +kernel,
      ready_of (by decide +kernel), by decide +kernel, by decide +kernel, rfl, rfl⟩⟩

theorem witness_DisruptiveNeedsAllowHit :
    (∃ (p : Packet) (s : State) (t : State) (recs : SMap Bytes) (T : Nat) (x : Nat) (late : Bool),
      p.allowHit = false ∧ placeAt .disruptive p t.tick = .ok (x, late) ∧ Ready infoCommit p s t ∧
      recs = shadowOf t p.q.val ∧ placeSet t p recs = (T, .disruptive) ∧
      checkSet t (tableApply (viewAt t T fun _ => true) recs) recs = none) ∧
    (∃ (p : Packet) (s : State) (t : State) (y : Solstice) (x : Nat) (late : Bool), p.allowHit = false ∧
      placeAt .disruptive p t.tick = .ok (x, late) ∧ Ready infoSolsticeArm p s t ∧
      findSol t (byteAt (paramBytes p) 0) = some y ∧ y.owner = some p.q.val ∧ y.st = .prepared ∧ y.cls = .disruptive) ∧
    (∃ (p : Packet) (s : State) (t : State) (x : Nat) (late : Bool), p.allowHit = false ∧
      placeAt .disruptive p t.tick = .ok (x, late) ∧ Ready infoTmStep p s t ∧
      sx 64 (fld (paramBytes p) 0 8) < 0) ∧
    ∃ (p : Packet) (s : State) (t : State) (x : Nat) (late : Bool), p.allowHit = false ∧
      placeAt .disruptive p t.tick = .ok (x, late) ∧ Ready infoRxAcquire p s t ∧
      byteAt (paramBytes p) 0 ≤ 1 :=
  ⟨⟨commitPk 8, shadowed recsHit, taken 0x12 (commitPk 8) (shadowed recsHit), recsHit, 8, 8, false,
      by decide +kernel, placeAt_of (by decide +kernel), ready_of (by decide +kernel), by decide +kernel,
        by decide +kernel,
      by decide +kernel⟩,
    ⟨pk 0x14 0 [2], withSolOf .disruptive, taken 0x14 (pk 0x14 0 [2]) (withSolOf .disruptive), solOf .disruptive, 8,
      false,
      by decide +kernel, placeAt_of (by decide +kernel), ready_of (by decide +kernel), by decide +kernel,
        by decide +kernel,
      rfl, rfl⟩,
    ⟨pk 0x203 0 (List.replicate 8 0xFF) 8, base, taken 0x203 (pk 0x203 0 (List.replicate 8 0xFF) 8) base, 8, false,
      by decide +kernel, placeAt_of (by decide +kernel), ready_of (by decide +kernel), by decide +kernel⟩,
    ⟨pk 0x401 1 [1] 8, base, taken 0x401 (pk 0x401 1 [1] 8) base, 8, false, by decide +kernel,
      placeAt_of (by decide +kernel), ready_of (by decide +kernel), by decide +kernel⟩⟩

/-! ## Witnesses of the statements about programs, memories and registers -/

def seqWordOf (op imm : Nat) : Bytes := le 4 (op * 2 ^ 27 + imm)
/-- A line-frame sequencer of Line A at its first word, `w`. -/
def seqState (d : Dir) (w : Bytes) (evt : Option Nat) : State :=
  let s := setP (setP base 0x6020 1 ([1, 0, 1, 0] ++ w)) 0x6021 1 ([1, 0, 1, 0] ++ w)
  updSeq .a d (fun q => { q with running := true, evt := evt }) { s with lag := { s.lag with view := s.params } }
/-- The operations, the immediates at which LDT and the tables divide, and whether EVT has been executed. -/
def seqCases : List (Dir × Nat × Nat × Option Nat) :=
  ((List.range 22).flatMap fun op => [(.rx, op, 0xFFFF, none), (.tx, op, 0, none)]) ++
    [(.rx, 0x0A, 1, none), (.rx, 0x0A, 2, none), (.rx, 0x0A, 3, none), (.rx, 0x0A, 4, none), (.rx, 0x15, 0, some 7)]
def seqCaseB (x : Dir × Nat × Nat × Option Nat) : Bool :=
  let t := seqState x.1 (seqWordOf x.2.1 x.2.2.1) x.2.2.2
  t.windowDone && !stopped t && (match seqWord t .a x.1 with
    | some w => seqOp w == x.2.1 && seqImm w == x.2.2.1
    | none => false) && (getSeq t .a x.1).evt == x.2.2.2

theorem witness_SequencerInstructionsRun : ∀ x ∈ seqCases, ∃ (s t : State) (c : Line) (w : Nat), Running s t ∧
    seqWord t c x.1 = some w ∧ seqOp w = x.2.1 ∧ seqImm w = x.2.2.1 ∧ (getSeq t c x.1).evt = x.2.2.2 := by
  have h : seqCases.all seqCaseB = true := by decide +kernel
  intro x hx
  have hb := List.all_eq_true.mp h x hx
  simp only [seqCaseB, Bool.and_eq_true] at hb
  obtain ⟨⟨⟨h1, h2⟩, h3⟩, h4⟩ := hb
  cases hw : seqWord (seqState x.1 (seqWordOf x.2.1 x.2.2.1) x.2.2.2) .a x.1 with
  | none => rw [hw] at h3; cases h3
  | some w =>
    rw [hw] at h3
    simp only [Bool.and_eq_true] at h3
    exact ⟨_, _, .a, w, running_of (by rw [h1, h2]; rfl), hw, eq_of_beq h3.1, eq_of_beq h3.2, eq_of_beq h4⟩

def engRun (w : Nat) : Run := { tenant := 5, image := w, slot := 0, cold := false, pc := 0, cycle := 0 }
def engImage (x : Nat × Nat) : Image :=
  let code := le 8 (x.1 * 2 ^ 60 + x.2 * 2 ^ 56)
  { handle := 256, tenant := 5, code := code, data := [], entry := 0, ports := 0, pages := [] }
/-- Engine 255 running the one instruction of class `x.1` and function `x.2`. -/
def engState (x : Nat × Nat) : State :=
  { base with stw := { base.stw with
      images := [engImage x]
      engs := [(255, { run := some (engRun 256) })] } }
/-- The classes and functions of the instruction table. -/
def engCases : List (Nat × Nat) :=
  [(0, 5), (1, 13), (2, 3), (3, 14), (4, 5), (5, 6), (6, 4), (7, 4), (8, 4), (9, 3)].flatMap fun x =>
    (List.range x.2).map fun f => (x.1, f)
def engCaseB (x : Nat × Nat) : Bool :=
  (engState x).windowDone && !stopped (engState x) && (match nextWord (engState x) 255 with
    | some y => y.2.2.cls == x.1 && y.2.2.fn == x.2
    | none => false)

theorem witness_EngineInstructionsIssue : ∀ x ∈ engCases, ∃ (s t : State) (e : Fin 256) (r : Run) (code : Nat) (w : EWord),
    Running s t ∧ nextWord t e.val = some (r, code, w) ∧ w.cls = x.1 ∧ w.fn = x.2 := by
  have h : engCases.all engCaseB = true := by decide +kernel
  intro x hx
  have hb := List.all_eq_true.mp h x hx
  simp only [engCaseB, Bool.and_eq_true] at hb
  obtain ⟨⟨h1, h2⟩, h3⟩ := hb
  cases hw : nextWord (engState x) 255 with
  | none => rw [hw] at h3; cases h3
  | some y =>
    rw [hw] at h3
    simp only [Bool.and_eq_true] at h3
    exact ⟨_, _, 255, y.1, y.2.1, y.2.2, running_of (by rw [h1, h2]; rfl), hw, eq_of_beq h3.1, eq_of_beq h3.2⟩

def run0 : Run := { engRun 256 with sr := 63 :: List.replicate 15 0 }
def word0 (guard width imm : Nat) : EWord :=
  { cls := 1, fn := 0, d := 15, a := 1, b := 0, guard := guard, width := width, rsvd := 0, imm := BitVec.ofNat 32 imm }

theorem witness_EngineScalarResults :
    (∃ (w : EWord) (r : Run), r.sr.length = 16 ∧ w.d < 16 ∧ (r.p w.guard).getLsbD 0 = false) ∧
    ∃ (w : EWord) (r : Run), r.sr.length = 16 ∧ w.d < 16 ∧ (r.s w.b).toNat = 63 ∧ (r.p w.guard).getLsbD 0 = true :=
  ⟨⟨word0 1 0 0, run0, rfl, by decide, by decide +kernel⟩,
    ⟨word0 0 0 0, run0, rfl, by decide, by decide +kernel, by decide +kernel⟩⟩

theorem witness_EngineVectorLanes : ∃ (w : EWord) (r : Run) (k j : Nat), r.vr.length = 32 ∧ w.d < 32 ∧ w.width < 4 ∧
    k = laneW w ∧ j < 512 / k ∧ (r.p w.guard).getLsbD (j * (k / 8)) = true :=
  ⟨word0 0 3 0, run0, 64, 7, rfl, by decide, by decide, by decide +kernel, by decide, by decide +kernel⟩

theorem witness_EngineLocalMemory :
    (∃ (i : Issue) (w : EWord) (r : Run) (s : State), SMap.wf ({} : Eng) s.stw.engs = true ∧
      SMap.wf (0 : Byte) (getEng s i.e).mem = true ∧ (r.p w.guard).getLsbD 0 = true ∧
      localBad i.code (accAddr w r) (2 ^ w.width) = none) ∧
    ∃ (i : Issue) (w : EWord) (r : Run) (s : State) (x : Nat), SMap.wf ({} : Eng) s.stw.engs = true ∧
      SMap.wf (0 : Byte) (getEng s i.e).mem = true ∧ (r.p w.guard).getLsbD 0 = true ∧
      localBad i.code (accAddr w r) (2 ^ w.width) = some x :=
  ⟨⟨{ e := 255, at_ := 0, code := 8, pc := 0 }, word0 0 3 65528, run0, base, rfl, rfl, by decide +kernel,
    by decide +kernel⟩,
    ⟨{ e := 255, at_ := 0, code := 8, pc := 0 }, word0 0 3 65529, run0, base, 65536, rfl, rfl, by decide +kernel,
      by decide +kernel⟩⟩

def counted (n : Nat) (st : Bool) : State :=
  { base with satTick := st, ev := { base.ev with en := BitVec.allOnes 256 }, obs := { base.obs with cnt := [(2047,
    n)] } }

theorem witness_CountersHoldAtMaximum :
    (∃ (n : Nat) (k : Nat) (s : State), SMap.wf 0 s.obs.cnt = true ∧ SMap.wf false s.obs.sat = true ∧
      s.count n + k = 2 ^ 48 - 1) ∧
    (∃ (n : Nat) (k : Nat) (s : State), SMap.wf 0 s.obs.cnt = true ∧ SMap.wf false s.obs.sat = true ∧
      s.count n + k = 2 ^ 48 ∧ s.satTick = true) ∧
    ∃ (n : Nat) (k : Nat) (s : State), SMap.wf 0 s.obs.cnt = true ∧ SMap.wf false s.obs.sat = true ∧
      s.count n + k = 2 ^ 48 ∧ s.satTick = false ∧
      s.ev.en.getLsbD 0xF3 = true :=
  ⟨⟨2047, 1, counted (2 ^ 48 - 2) false, by decide +kernel, rfl, by decide +kernel⟩,
    ⟨2047, 1, counted (2 ^ 48 - 1) true, by decide +kernel, rfl, by decide +kernel, rfl⟩,
    ⟨2047, 1, counted (2 ^ 48 - 1) false, by decide +kernel, rfl, by decide +kernel, rfl, by decide +kernel⟩⟩

def evState (en stat mask : BitVec 256) (tbl : SMap Byte) : State :=
  { base with ev := { base.ev with en := en, stat := stat, mask := mask, msixTable := tbl, vec := [(255, 63)] } }

theorem witness_EventsSetAndSignal :
    (∃ (e : Nat) (s : State), e = 255 ∧ SMap.wf 0 s.ev.signals = true ∧ s.ev.en.getLsbD e = false) ∧
    (∃ (e : Nat) (s : State), e = 255 ∧ SMap.wf 0 s.ev.signals = true ∧ s.ev.en.getLsbD e = true ∧
      s.ev.stat.getLsbD e = true) ∧
    (∃ (e : Nat) (s : State), e = 255 ∧ SMap.wf 0 s.ev.signals = true ∧ s.ev.en.getLsbD e = true ∧
      s.ev.stat.getLsbD e = false ∧
      s.ev.mask.getLsbD e = true) ∧
    (∃ (e : Nat) (v : Nat) (s : State), e = 255 ∧ v = SMap.get 0 s.ev.vec e ∧ SMap.wf 0 s.ev.signals = true ∧
      s.ev.en.getLsbD e = true ∧
      s.ev.stat.getLsbD e = false ∧ s.ev.mask.getLsbD e = false ∧ msixMasked s v = false) ∧
    ∃ (e : Nat) (v : Nat) (s : State), e = 255 ∧ v = SMap.get 0 s.ev.vec e ∧ SMap.wf 0 s.ev.signals = true ∧
      s.ev.en.getLsbD e = true ∧
      s.ev.stat.getLsbD e = false ∧ s.ev.mask.getLsbD e = false ∧ msixMasked s v = true ∧ v = 63 :=
  ⟨⟨255, base, rfl, rfl, by decide +kernel⟩, ⟨255, evState (BitVec.allOnes 256) (BitVec.allOnes 256) 0 [], rfl, rfl,
    by decide +kernel, by decide +kernel⟩,
    ⟨255, evState (BitVec.allOnes 256) 0 (BitVec.allOnes 256) [], rfl, rfl, by decide +kernel, by decide +kernel,
      by decide +kernel⟩,
    ⟨255, 63, evState (BitVec.allOnes 256) 0 0 [(1020, 0)], rfl, by decide +kernel, rfl, by decide +kernel,
      by decide +kernel,
      by decide +kernel, by decide +kernel⟩,
    ⟨255, 63, evState (BitVec.allOnes 256) 0 0 [], rfl, by decide +kernel, rfl, by decide +kernel, by decide +kernel,
      by decide +kernel, by decide +kernel, rfl⟩⟩

def refState (auto : Bool) : State :=
  { updRef 8 (fun r => { r with qualified := true, priority := 1 }) base with tm := { (updRef 8 (fun r =>
      { r with qualified := true, priority := 1 }) base).tm with auto := auto, manual := 8 } }

theorem witness_ReferenceSelection :
    (∃ (s : State), s.tm.auto = false ∧ s.tm.manual ∈ candidates s) ∧ (∃ (s : State), s.tm.manual ∉ candidates s ∧
      candidates s = []) ∧
    ∃ (s : State) (r : Nat), s.tm.auto = true ∧ candidates s ≠ [] ∧ selectRef s = some r :=
  ⟨⟨refState false, rfl, by decide +kernel⟩, ⟨base, by decide +kernel, by decide +kernel⟩,
    ⟨refState true, 8, rfl, by decide +kernel, by decide +kernel⟩⟩

/-- Tenant 63 with one page, its lease renewed or not and `m` boundaries missed. -/
def leaseState (r : Bool) (m : Nat) : State := updTen 63 (fun x => { x with renewed := r, missed := m }) withPage

theorem witness_PageLeases : ∀ x ∈ [(true, 1), (false, 0), (false, 1)], ∃ (s : State) (t : Nat),
    t < s.stw.tenants.length ∧ heldCount s t ≠ 0 ∧ (getTen s t).renewed = x.1 ∧ (getTen s t).missed = x.2 := by
  intro x hx
  refine ⟨leaseState x.1 x.2, 63, ?_⟩
  simp only [List.mem_cons, List.not_mem_nil, or_false] at hx
  rcases hx with rfl | rfl | rfl <;> refine ⟨by decide +kernel, by decide +kernel, by decide +kernel, by decide +kernel⟩

theorem witness_CompletionCache : ∃ s : State, s.cmd.cache.length = 4096 :=
  ⟨{ base with cmd := { base.cmd with cache := List.replicate 4096 (cached idPk 0) } }, by simp⟩

def cqState (x : Queue) (held : List Held) : State :=
  { base with cmd := { base.cmd with queues := x :: List.replicate 7 {}, held := held } }

theorem witness_CompletionsWriteInOrder :
    (∃ (q : Nat) (s : State), q < 8 ∧ s.cmd.queues.length = 8 ∧ SMap.wf none (getQ s q).ring = true ∧
      s.sys.fwRunning = false) ∧
    (∃ (q : Nat) (s : State), q < 8 ∧ s.cmd.queues.length = 8 ∧ SMap.wf none (getQ s q).ring = true ∧
      s.sys.fwRunning = true ∧ (getQ s q).enabled = true ∧ ∃ h ∈ s.cmd.held, h.q = q) ∧
    (∃ (q : Nat) (s : State), q < 8 ∧ s.cmd.queues.length = 8 ∧ SMap.wf none (getQ s q).ring = true ∧
      (getQ s q).enabled = true ∧ ((getQ s q).cqTail + 1) % 2 ^ (getQ s q).cqLog2 = (getQ s q).cqHead) ∧
    (∃ (q : Nat) (s : State), q < 8 ∧ s.cmd.queues.length = 8 ∧ SMap.wf none (getQ s q).ring = true ∧
      s.sys.fwRunning = true ∧ (getQ s q).enabled = false) ∧
    ∃ (q : Nat) (s : State), q < 8 ∧ s.cmd.queues.length = 8 ∧ SMap.wf none (getQ s q).ring = true ∧
      s.sys.fwRunning = true ∧ (getQ s q).enabled = true ∧ (∀ h ∈ s.cmd.held, h.q ≠ q) ∧
      ((getQ s q).cqTail + 1) % 2 ^ (getQ s q).cqLog2 ≠ (getQ s q).cqHead ∧
        (getQ s q).cqTail + 1 = 2 ^ (getQ s q).cqLog2 :=
  ⟨⟨7, { base with sys := { base.sys with fwRunning := false } }, by decide, rfl, rfl, rfl⟩,
    ⟨0, cqState { enabled := true, cqLog2 := 4 } [{ q := 0, cpl := {}, timed := true }], by decide, rfl, rfl, rfl, rfl,
      { q := 0, cpl := {}, timed := true }, List.mem_cons_self .., rfl⟩,
    ⟨0, cqState { enabled := true, cqLog2 := 4, cqTail := 15 } [], by decide, rfl, rfl, rfl, by decide⟩,
    ⟨7, base, by decide, rfl, rfl, rfl, rfl⟩,
    ⟨0, cqState { enabled := true, cqLog2 := 4, cqTail := 15, cqHead := 3 } [], by decide, rfl, rfl, rfl, rfl,
      (fun _ h => by cases h), by decide, rfl⟩⟩

theorem witness_CounterLatchesPerPath : ∃ (s : State) (n m : Fin 2048), s.count n.val = 2 ^ 48 - 1 ∧ n ≠ m :=
  ⟨counted (2 ^ 48 - 1) false, 2047, 0, by decide +kernel, by decide⟩

/-! ## Ill-formed commands, and values of the specification -/

/-- A packet whose inline parameters come with a buffer, one whose buffer is shorter than PARAM_LEN says,
      and a NOP under
another row's opcode are no commands. -/
theorem test_illformed_refused :
    Instr.wf (.identify { idPk with buf := [0] }) = false ∧
    Instr.wf (.dmJoin { pk infoDmJoin.op 0 joinBytes with buf := [0] }) = false ∧
    Instr.wf (.nop 1 (pk 1 0 [])) = false := by decide +kernel

theorem test_illformed_faults (s : State) : exec (.nop 1 (pk 1 0 [])) s = .fault .illFormed := by
  have h : 1 ∈ assigned := by decide +kernel
  show execNop 1 (pk 1 0 []) s = _
  simp [execNop, h]

/-- The generator polynomials' check values over the digits 1 to 9. -/
theorem test_crc32c : crc32c [0x31, 0x32, 0x33, 0x34, 0x35, 0x36, 0x37, 0x38, 0x39] = 0xE3069283 := by decide +kernel

/-- A queue of commands runs first in, first out; the empty one idles. -/
theorem test_queue_order :
    step { base with pending := [.thermtrip, .perstN] } = exec .thermtrip { base with pending := [.perstN] } := rfl

/-- What a command completes with: a NOP writes an OK completion into CQ0. -/
theorem test_nop_completes :
    ((match exec (.nop 0 (pk 0 0 [])) base with
      | .next t => (SMap.get none (getQ t 0).ring 0).map fun c => (c.cpl.tag, c.cpl.seq, c.cpl.status)
      | _ => none) : Option (Nat × Nat × Nat)) = some (7, 7, 0) := by decide +kernel

/-- The earliest execution of R51 and R47: a line-coordinated action at tick 249 waits for the boundary 768,
      a local one for
tick 257. -/
theorem test_earliest : earliest .line 249 = 768 ∧ earliest .line 248 = 512 ∧ earliest .local_ 249 = 257 := by decide

end Sys2Proof.Tests
end

section
/-! SUPPORT. Proofs about at-ticks: where a line-coordinated action is placed (R51), and how a timed command that fails
R81 steps 10 to 12 is refused, whatever the command. -/
namespace Sys2Proof.Machine

/-! ## Placement of line-coordinated actions (R50, R51) -/

theorem earliest_line_mod (now : Nat) : earliest .line now % 256 = 0 := Nat.mul_mod_left ..

theorem le_earliest_line (now : Nat) : now + 264 ≤ earliest .line now := by
  simp only [earliest, roundUp]
  omega

/-- An action is placed at the earliest tick of its class or at an at-tick no sooner; an at-tick that places a
line-coordinated action is a boundary. -/
theorem placeAt_ok {cls : ChangeClass} {p : Packet} {now x : Nat} {late : Bool} (h : placeAt cls p now = .ok (x, late)) :
    (cls = .line → p.atTick.toNat % 256 = 0) ∧ (x = earliest cls now ∨ x = p.atTick.toNat ∧ earliest cls now ≤ x) := by
  unfold placeAt at h
  dsimp only at h
  split at h
  · cases h
  next hm =>
    refine ⟨fun hl => Decidable.byContradiction fun ha => hm ⟨hl, ha⟩, ?_⟩
    split at h
    · cases h
    split at h
    · cases h
      exact .inl rfl
    split at h
    next he =>
      cases h
      exact .inr ⟨rfl, he⟩
    split at h <;> cases h
    exact .inl rfl

/-- A line-coordinated action is placed at a boundary no sooner than the earliest one. -/
theorem placeAt_line_ok {p : Packet} {now x : Nat} {late : Bool} (h : placeAt .line p now = .ok (x, late)) :
    x % 256 = 0 ∧ earliest .line now ≤ x := by
  obtain ⟨ha, rfl | ⟨rfl, he⟩⟩ := placeAt_ok h
  · exact ⟨earliest_line_mod now, Nat.le_refl _⟩
  · exact ⟨ha rfl, he⟩

theorem placeAt_line_unaligned {p : Packet} (h : p.atTick.toNat % 256 ≠ 0) (now : Nat) :
    placeAt .line p now = .error { step := 10, st := 0x11, detail := 0x80000008 } := by
  unfold placeAt
  exact if_pos ⟨rfl, h⟩

theorem not_placed_line_unaligned {p : Packet} (h : p.atTick.toNat % 256 ≠ 0) (t : State) (x : Nat) (late : Bool) :
    ¬Placed .line p t x late :=
  fun hp => h ((placeAt_ok hp.place).1 rfl)

theorem checkTimed_line_unaligned {p : Packet} (h : p.atTick.toNat % 256 ≠ 0) (t : State) :
    checkTimed .line p t = some { step := 10, st := 0x11, detail := 0x80000008 } := by
  simp only [checkTimed, placeAt_line_unaligned h]

/-! ## Timed commands refused at steps 10 to 12 (R81) -/

/-- The checks of steps 7 to 9 passed, steps 10 to 12 decide. -/
theorem Ready.timed_refused {i : CmdInfo} {p : Packet} {s t : State} (h : Ready i p s t) {chk : State → Option Refuse}
    (hc : chk t = none) {cls : ChangeClass} {r : Refuse} (hr : checkTimed cls p t = some r) :
    firstOf [checks i p chk t, checkTimed cls p t] = some r := by
  rw [h.checks_eq hc, hr]
  rfl

theorem runTimed_refused {i : CmdInfo} {p : Packet} {s t : State} (h : Ready i p s t) {chk : State → Option Refuse}
    (hc : chk t = none) {cls : State → ChangeClass} {r : Refuse} (hr : checkTimed (cls t) p t = some r) :
    runTimed i p chk cls s = .next (settle (refuse i.op p r t)) :=
  h.taken.command_refuse (h.timed_refused hc hr) _

theorem keySwitch_refused {p : Packet} {s t : State} {r : Refuse} (h : Ready infoKeySwitch p s t)
    (ha : fld (paramBytes p) 0 4 < 2 ^ 26) (hr : checkTimed .line p t = some r) :
    exec (.keySwitch p) s = .next (settle (refuse 0x0802 p r t)) :=
  runTimed_refused h ((need_eq_none ..).2 (decide_eq_true ha)) hr

theorem rxAcquire_refused {p : Packet} {s t : State} {r : Refuse} (h : Ready infoRxAcquire p s t)
    (ha : byteAt (paramBytes p) 0 ≤ 1) (hr : checkTimed .disruptive p t = some r) :
    exec (.rxAcquire p) s = .next (settle (refuse 0x0401 p r t)) :=
  runTimed_refused h ((need_eq_none ..).2 (decide_eq_true ha)) hr

theorem stepClass_backward {p : Packet} (h : sx 64 (fld (paramBytes p) 0 8) < 0) : stepClass p = .disruptive :=
  if_pos h

theorem tmStep_backward_refused {p : Packet} {s t : State} {r : Refuse} (h : Ready infoTmStep p s t)
    (hd : sx 64 (fld (paramBytes p) 0 8) < 0) (hr : checkTimed .disruptive p t = some r) :
    exec (.tmStep p) s = .next (settle (refuse 0x0203 p r t)) :=
  runTimed_refused h ((need_eq_none ..).2 (bne_iff_ne.2 (Int.ne_of_lt hd))) (by rwa [stepClass_backward hd])

/-- A COMMIT whose set passes its checks is held to the class that the set has at its tick (R46). -/
theorem commit_refused {p : Packet} {s t : State} {r : Refuse} {T : Nat} {cls : ChangeClass} (h : Ready infoCommit p s t)
    (hp : placeSet t p (shadowOf t p.q.val) = (T, cls))
    (hc : checkSet t (tableApply (viewAt t T fun _ => true) (shadowOf t p.q.val)) (shadowOf t p.q.val) = none)
    (hr : checkTimed cls p t = some r) : exec (.commit p) s = .next (settle (refuse 0x0012 p r t)) := by
  refine h.taken.command_refuse ?_ _
  simp only [hp]
  exact h.timed_refused hc hr

theorem solClass_of_find {t : State} {h : Nat} {y : Solstice} (hf : findSol t h = some y) : solClass t h = y.cls := by
  simp only [solClass, hf, Option.map_some, Option.getD_some]

/-- A SOLSTICE_ARM of a prepared Solstice that the session holds is held to the Solstice's class (R61). -/
theorem solsticeArm_refused {p : Packet} {s t : State} {r : Refuse} {y : Solstice} (h : Ready infoSolsticeArm p s t)
    (hf : findSol t (byteAt (paramBytes p) 0) = some y) (ho : y.owner = some p.q.val) (hs : y.st = .prepared)
    (hr : checkTimed y.cls p t = some r) : exec (.solsticeArm p) s = .next (settle (refuse 0x0014 p r t)) := by
  refine h.taken.command_refuse (h.timed_refused ?_ ?_) _
  · simp only [firstOf_cons, firstOf_nil, checkHandle_of_find hf ho, checkPrepared_of_state hf hs, and_self]
  · rwa [solClass_of_find hf]

/-! ## The statements -/

/-- Settles O19: a placement is a boundary no sooner than the earliest one, which lies at least 264 ticks on; an at-tick
off the boundaries has no placement, and step 10 refuses it before LATE_POLICY is looked at. -/
theorem lineActionsAtMultiframes : Obligations.LineActionsAtMultiframes := by
  intro p s t
  refine ⟨fun now x late h => ?_, fun ha => ⟨not_placed_line_unaligned ha t, ?_, ?_, ?_⟩⟩
  · obtain ⟨hm, hx⟩ := placeAt_line_ok h
    have hl := le_earliest_line now
    exact ⟨hm, by omega, by omega⟩
  all_goals have hr := checkTimed_line_unaligned ha t
  · exact fun h hf => keySwitch_refused h hf hr
  · rintro _ T h rfl hp hc
    exact commit_refused h hp hc hr
  · intro y h hf ho hs hy
    exact solsticeArm_refused h hf ho hs (hy ▸ hr)

/-- Settles O20: step 11 refuses each of the disruptive commands, and a refusal writes only its completion, counters and
events. -/
theorem disruptiveNeedsAllowHit : Obligations.DisruptiveNeedsAllowHit := by
  rintro p s t x late _ ha hx rfl
  have hr := checkTimed_disruptive_refused ha hx
  refine ⟨?_, ?_, ?_, ?_, fun op => refuse_frame op p _ t⟩
  · rintro _ T h rfl hp hc
    exact commit_refused h hp hc hr
  · intro y h hf ho hs hy
    exact solsticeArm_refused h hf ho hs (hy ▸ hr)
  · exact fun h hd => tmStep_backward_refused h hd hr
  · exact fun h hb => rxAcquire_refused h hb hr

end Sys2Proof.Machine
end

section
/-! SUPPORT. Proofs about the counter registers: what a read of CNT_LO, of an upper word and of both returns, and which
latch it leaves in each path (R448). -/
namespace Sys2Proof.Machine

/-! ## Little-endian numbers cut in two -/

theorem le_add_eq_append (j k n : Nat) : le (j + k) n = le j n ++ le k (n / 256 ^ j) := by
  induction j generalizing n with
  | zero => simp [le]
  | succ j ih => simp only [Nat.succ_add, le, ih, List.cons_append, Nat.div_div_eq_div_mul, Nat.pow_succ']

theorem byteOf_mod_mul (n m : Nat) : byteOf (n % (256 * m)) = byteOf n :=
  BitVec.eq_of_toNat_eq (Nat.mod_mod_of_dvd n ⟨m, rfl⟩)

theorem le_mod_pow (k n : Nat) : le k (n % 256 ^ k) = le k n := by
  induction k generalizing n with
  | zero => rfl
  | succ k ih => rw [Nat.pow_succ', le, le, byteOf_mod_mul, Nat.mod_mul_right_div_self, ih]

/-- A low and an upper word, read one after the other, are the bytes of one 64-bit number. -/
theorem le_four_append_four (n : Nat) : le 4 (n % 2 ^ 32) ++ le 4 (n / 2 ^ 32) = le 8 n := by
  rw [show 2 ^ 32 = 256 ^ 4 from rfl, le_mod_pow, ← le_add_eq_append]

/-! ## Reads of aligned registers -/

theorem slice_le (k n : Nat) : slice (le k n) 0 k = le k n :=
  List.take_of_length_le (Nat.le_of_eq (le_length k n))

theorem withRead_four {a : Nat} (h : a % 4 = 0) (path : Path) (s : State) :
    withRead path a 4 s = { regLatch path a s with
      sys := { (regLatch path a s).sys with readOut := le 4 (regValue path a s) } } := by
  rw [withRead, readBytes_four path a s h, slice_le]

/-- An aligned 64-bit read returns the low word and then the upper word as the low word's read left it. -/
theorem readOut_withRead_eight {a : Nat} (h : a % 4 = 0) (path : Path) (s : State) :
    (withRead path a 8 s).sys.readOut =
      le 4 (regValue path a s) ++ le 4 (regValue path (a + 4) (regLatch path a s)) := by
  rw [withRead, readBytes_eight path a s h]
  exact List.take_of_length_le (by simp only [List.drop_zero, List.length_append, le_length, Nat.reduceAdd, Nat.le_refl])

/-! ## The latch of each path -/

/-- The counter latch of a path. -/
def pathLatch (path : Path) (s : State) : CntLatch :=
  match path with
  | .pcie => s.sys.cntLatch
  | .spi => s.sys.cntLatchSpi

/-- What a read of CNT_LO of counter `n` captures: its upper bits and its SAT flag. -/
def upperOf (s : State) (n : Nat) : CntLatch := { hi := s.count n / 2 ^ 32, sat := SMap.get false s.obs.sat n }

theorem cntLatchWord_eq (s : State) (path : Path) :
    cntLatchWord s path = (pathLatch path s).hi + 65536 * b2n (pathLatch path s).sat := by
  cases path <;> rfl

@[simp] theorem pathLatch_readOut (q : Path) (s : State) (bs : Bytes) :
    pathLatch q { s with sys := { s.sys with readOut := bs } } = pathLatch q s := by
  cases q <;> rfl

theorem regLatch_cntLo (path : Path) (n : Fin 2048) (s : State) :
    regLatch path (0x10000 + 8 * n.val) s = match path with
      | .pcie => { s with sys := { s.sys with cntLatch := upperOf s n.val } }
      | .spi => { s with sys := { s.sys with cntLatchSpi := upperOf s n.val } } := by
  have hn := n.isLt
  unfold regLatch
  rw [if_neg (by omega), if_pos (by simp; omega), show (0x10000 + 8 * n.val - 0x10000) / 8 = n.val by omega]
  cases path <;> rfl

theorem pathLatch_regLatch_cntLo_same (path : Path) (n : Fin 2048) (s : State) :
    pathLatch path (regLatch path (0x10000 + 8 * n.val) s) = upperOf s n.val := by
  rw [regLatch_cntLo]
  cases path <;> rfl

theorem pathLatch_regLatch_cntLo_other {q path : Path} (h : q ≠ path) (n : Fin 2048) (s : State) :
    pathLatch q (regLatch path (0x10000 + 8 * n.val) s) = pathLatch q s := by
  rw [regLatch_cntLo]
  cases path <;> cases q
  case pcie.pcie | spi.spi => exact absurd rfl h
  case pcie.spi | spi.pcie => rfl

/-! ## Reads of the counter registers -/

theorem withRead_cntLo (path : Path) (n : Fin 2048) (s : State) :
    withRead path (0x10000 + 8 * n.val) 4 s = { regLatch path (0x10000 + 8 * n.val) s with
      sys := { (regLatch path (0x10000 + 8 * n.val) s).sys with readOut := le 4 (s.count n.val % 2 ^ 32) } } := by
  rw [withRead_four (by omega), regValue_cntLo]

theorem withRead_cntHi (path : Path) (n : Fin 2048) (s : State) :
    withRead path (0x10000 + 8 * n.val + 4) 4 s =
      { s with sys := { s.sys with readOut := le 4 (cntLatchWord s path) } } := by
  rw [withRead_four (by omega), regValue_cntHi, regLatch_cntHi]

/-- The number whose low word is a counter's and whose upper word is what its CNT_LO captures. -/
theorem count_sat_words (s : State) (n : Nat) :
    (s.count n + 2 ^ 48 * b2n (SMap.get false s.obs.sat n)) % 2 ^ 32 = s.count n % 2 ^ 32 ∧
    (s.count n + 2 ^ 48 * b2n (SMap.get false s.obs.sat n)) / 2 ^ 32 =
      (upperOf s n).hi + 65536 * b2n (upperOf s n).sat := by
  dsimp only [upperOf]
  omega

/-- A 64-bit read is coherent: its upper word is the one that its low word has just captured. -/
theorem readOut_withRead_cnt_eight (path : Path) (n : Fin 2048) (s : State) :
    (withRead path (0x10000 + 8 * n.val) 8 s).sys.readOut =
      le 8 (s.count n.val + 2 ^ 48 * b2n (SMap.get false s.obs.sat n.val)) := by
  obtain ⟨hlo, hhi⟩ := count_sat_words s n.val
  rw [readOut_withRead_eight (by omega), regValue_cntLo, regValue_cntHi, cntLatchWord_eq,
    pathLatch_regLatch_cntLo_same, ← hlo, ← hhi, le_four_append_four]

/-- Settles O21: a read of CNT_LO writes the latch of its path alone, a read of an upper word writes none, and a 64-bit
read is the two in a row. -/
theorem counterLatchesPerPath : Obligations.CounterLatchesPerPath := by
  intro s path n m latch hlatch
  obtain rfl : latch = pathLatch := hlatch.trans (by funext q x; cases q <;> rfl)
  dsimp only
  rw [withRead_cntLo, withRead_cntHi]
  refine ⟨rfl, ?_, fun q hq => ?_, fun q => pathLatch_readOut q s _, ?_, fun _ => readOut_withRead_cnt_eight path n s⟩
  · rw [pathLatch_readOut, pathLatch_regLatch_cntLo_same]
    rfl
  · rw [pathLatch_readOut, pathLatch_regLatch_cntLo_other hq]
  · exact congrArg (le 4) (cntLatchWord_eq s path)

end Sys2Proof.Machine
end

section
/-! SUPPORT. Proofs about every command alike: the pins, the commit window, a device that is held, and what a packet meets
in steps 1 to 8 of R81. Each follows from the shapes of a command's meaning (`exec_form`) or from the pipeline
(`exec_host`), and no command's own meaning is unfolded but that of NOP and SESSION_OPEN. -/
namespace Sys2Proof.Machine

/-! ## Pins -/

theorem settle_pinsKept (s : State) : PinsKept (settle s) := settle_pins s

theorem openWindow_pinsKept {s : State} (h : PinsKept s) : PinsKept (openWindow s) := by
  unfold openWindow
  split
  · exact h
  · exact settle_pinsKept _

theorem within_pinsKept {f : State → State} {s t : State} (h : PinsKept s) (e : within f s = .next t) : PinsKept t := by
  unfold within at e
  split at e <;> cases e
  · exact h
  · exact settle_pinsKept _

theorem clocked_pinsKept {f : State → State} {s t : State} (h : PinsKept s) (e : clocked f s = .next t) :
    PinsKept t := by
  unfold clocked at e
  dsimp only at e
  split at e <;> cases e
  · exact openWindow_pinsKept h
  · exact settle_pinsKept _

theorem live_pinsKept {f : State → State} {s t : State} (h : PinsKept s) (e : live f s = .next t) : PinsKept t := by
  unfold live at e
  dsimp only at e
  split at e <;> cases e
  · exact openWindow_pinsKept h
  · exact settle_pinsKept _

/-- Every command ends with the pins at what their registers make them, or leaves the state of the opened window. -/
theorem exec_pinsKept {c : Instr} {s t : State} (h : PinsKept s) (e : exec c s = .next t) : PinsKept t := by
  cases exec_form c with
  | pins _ f k =>
    cases (k s).symm.trans e
    exact settle_pinsKept _
  | window _ f k => exact within_pinsKept h ((k s).symm.trans e)
  | clocked _ _ f k => exact clocked_pinsKept h ((k s).symm.trans e)
  | live _ _ f k => exact live_pinsKept h ((k s).symm.trans e)
  | packet _ op p _ pre act k =>
    rw [k, command] at e
    split at e
    · exact clocked_pinsKept h e
    · cases e
  | foreign _ _ k => cases (k s).symm.trans e

/-- Settles O4: the queue of waiting rows is no register of a pin, and `exec` keeps the pins. -/
theorem stepKeepsPins : Obligations.StepKeepsPins := by
  intro s t h e
  unfold step at e
  split at e
  · cases e
    exact h
  next c rest _ =>
    have hq : PinsKept { s with pending := rest } := h
    exact exec_pinsKept hq e

/-- Settles O3. -/
theorem resetMeetsPinInvariant : Obligations.ResetMeetsPinInvariant := rfl

/-- Settles O1. -/
theorem stepRunsFrontCommand : Obligations.StepRunsFrontCommand := by
  refine fun s => ⟨fun h => ?_, fun c rest h => ?_⟩ <;> rw [step, h]

/-! ## Completion of well-formed commands -/

theorem exec_next_of_wf {c : Instr} (h : c.wf = true) (s : State) : ∃ t, exec c s = .next t := by
  cases exec_form c with
  | pins _ f e => exact ⟨_, e s⟩
  | window _ f e =>
    rw [e, within]
    split <;> exact ⟨_, rfl⟩
  | clocked _ _ f e =>
    rw [e, clocked]
    split <;> exact ⟨_, rfl⟩
  | live _ _ f e =>
    rw [e, live]
    split <;> exact ⟨_, rfl⟩
  | packet _ op p w pre act e => exact (packet_of_wf op pre act s w e).1 h
  | foreign _ w _ => rw [w] at h; cases h

theorem exec_fault_of_not_wf {c : Instr} (h : c.wf = false) (s : State) : exec c s = .fault .illFormed := by
  cases exec_form c with
  | pins k _ _ => rw [ofPins_wf c k] at h; cases h
  | window k _ _ => rw [ofWindow_wf c k] at h; cases h
  | clocked _ w _ _ => rw [w] at h; cases h
  | live _ w _ _ => rw [w] at h; cases h
  | packet _ op p w pre act e => exact (packet_of_wf op pre act s w e).2 h
  | foreign _ _ e => exact e s

/-- Settles O5, over the shapes of a command's meaning. -/
theorem wellFormedCommandsComplete : Obligations.WellFormedCommandsComplete :=
  fun _ s => ⟨fun h => exec_next_of_wf h s, fun h => exec_fault_of_not_wf h s⟩

/-! ## The window of the tick, and a device that is held -/

theorem clocked_openWindow (f : State → State) (s : State) : clocked f (openWindow s) = clocked f s := by
  rw [clocked, openWindow_idem, clocked]

theorem live_openWindow (f : State → State) (s : State) : live f (openWindow s) = live f s := by
  rw [live, openWindow_idem, live]

theorem command_openWindow (op : Nat) (p : Packet) (pre : State → Option Refuse) (act : State → State) (s : State) :
    command op p pre act (openWindow s) = command op p pre act s := by
  rw [command, clocked_openWindow, command]

/-- Settles O6: the window is opened once in a tick (`openWindow_idem`), and every shape but a pin's and a window's own
opens it first. -/
theorem windowPrecedesCommands : Obligations.WindowPrecedesCommands := by
  intro c s hp hw
  cases exec_form c with
  | pins h _ _ => rw [hp] at h; cases h
  | window h _ _ => rw [hw] at h; cases h
  | clocked _ _ f e => rw [e, e, clocked_openWindow]
  | live _ _ f e => rw [e, e, live_openWindow]
  | packet _ op p _ pre act e => rw [e, e, command_openWindow]
  | foreign _ _ e => rw [e, e]

theorem stopped_of_held {s : State} (h : s.pwr.tripped = true ∨ s.boot.inReset = true) : stopped s = true := by
  rcases h with h | h <;> simp [stopped, h]

theorem openWindow_stopped {s : State} (h : stopped s = true) : openWindow s = s := by
  rw [openWindow, h, Bool.true_or, if_pos rfl]

theorem clocked_stopped {f : State → State} {s : State} (h : stopped s = true) : clocked f s = .next s := by
  simp only [clocked, openWindow_stopped h, h, if_true]

theorem live_held {f : State → State} {s : State} (h : s.pwr.tripped = true ∨ s.boot.inReset = true) :
    live f s = .next s := by
  have hb : (s.pwr.tripped || s.boot.inReset) = true := by simpa using h
  simp only [live, openWindow_stopped (stopped_of_held h), hb, if_true]

/-- Settles O7: a trip and reset stop the clocks, and stopped clocks neither open the window nor let a command act. -/
theorem heldDeviceChangesNothing : Obligations.HeldDeviceChangesNothing := by
  intro c s h hp hw
  have hs := stopped_of_held h
  cases exec_form c with
  | pins k _ _ => rw [hp] at k; cases k
  | window _ f e => rw [e, within, if_pos hs]
  | clocked _ _ f e => rw [e, clocked_stopped hs]
  | live _ _ f e => rw [e, live_held h]
  | packet _ op p w pre act e => rw [e, command, ← w, if_pos hw, clocked_stopped hs]
  | foreign _ w _ => rw [w] at hw; cases hw

/-! ## Packets that are fetched, and packets that are not (R70 to R72) -/

/-- A packet the device does not fetch leaves the state as the window has made it. -/
theorem command_unfetched {op : Nat} {p : Packet} {s t : State} (hw : packetWf p = true) (hr : Running s t)
    (hf : fetch op p t = none) (pre : State → Option Refuse) (act : State → State) :
    command op p pre act s = .next (settle t) := by
  rw [command, if_pos hw, clocked_running hr, hf]

/-- A packet the device fetches is handled in the state after the fetch. -/
theorem command_fetched {op : Nat} {p : Packet} {s t u : State} (hw : packetWf p = true) (hr : Running s t)
    (hf : fetch op p t = some u) (pre : State → Option Refuse) (act : State → State) :
    command op p pre act s = .next (settle (handle op p pre act u)) := by
  rw [command, if_pos hw, clocked_running hr, hf]

theorem fetch_eq_none {op : Nat} {p : Packet} {t : State}
    (h : t.sys.fwRunning = false ∨ 4096 ≤ inFlight t ∨ t.pwr.state = 1 ∨
      (p.q.val < 8 ∧ nextVisit t ≠ some p.q.val) ∨ (p.q.val = 8 ∧ t.cmd.mb.busy = false)) : fetch op p t = none := by
  unfold fetch
  rcases h with h | h | h | ⟨hq, h⟩ | ⟨hq, h⟩
  · simp [fetching, h]
  · have : ¬inFlight t < 4096 := by omega
    simp [fetching, this]
  · simp [fetching, h]
  · simp [h, show p.q.val ≠ 8 by omega]
  · simp [hq, h]

/-- Settles O8: each condition keeps step 1 from fetching the packet. -/
theorem unfetchedPacketsWait : Obligations.UnfetchedPacketsWait := by
  intro c i p s t hc hw hr h
  obtain ⟨pre, act, e, -⟩ := exec_host c i p hc
  rw [e, command_unfetched hw hr (fetch_eq_none h)]

/-! ## Steps 2 to 5 (R81, R85) -/

theorem handle_badLength {op : Nat} {p : Packet} {r : Refuse} (h : checkLen op p = some r) (pre : State → Option Refuse)
    (act : State → State) (u : State) : handle op p pre act u = refuse op p r u := by
  rw [handle, h]

theorem handle_badCrc {op : Nat} {p : Packet} (h : checkLen op p = none) (hp : p.crcPresent = true)
    (hc : packetCrc op p ≠ p.crc.toNat) (pre : State → Option Refuse) (act : State → State) (u : State) :
    handle op p pre act u = raise 0x0E (refuse op p { step := 4, st := stBadCrc } u) := by
  simp [handle, h, hp, hc]

/-- The packet's check value, where it carries one, is right. -/
theorem crc_passes {op : Nat} {p : Packet} (h : p.crcPresent = true → packetCrc op p = p.crc.toNat) :
    (p.crcPresent && packetCrc op p != p.crc.toNat) = false := by
  cases hp : p.crcPresent
  · rfl
  · simp [h hp]

theorem handle_replay {op : Nat} {p : Packet} {u : State} {k : Cpl} (h : checkLen op p = none)
    (hc : p.crcPresent = true → packetCrc op p = p.crc.toNat)
    (hd : dupOf u (packetKey p) (packetCrc op p) = .replay k) (pre : State → Option Refuse) (act : State → State) :
    handle op p pre act u = post p.q.val { k with dup := true } false (bump 21 u) := by
  simp only [handle, h, crc_passes hc, hd, Bool.false_eq_true, if_false]

theorem handle_duplicate {op : Nat} {p : Packet} {u : State} {st : Nat} (h : checkLen op p = none)
    (hc : p.crcPresent = true → packetCrc op p = p.crc.toNat)
    (hd : dupOf u (packetKey p) (packetCrc op p) = .refuse st) (pre : State → Option Refuse) (act : State → State) :
    handle op p pre act u = refuse op p { step := 5, st := st } u := by
  simp only [handle, h, crc_passes hc, hd, Bool.false_eq_true, if_false]

theorem handle_deviceFault {op : Nat} {p : Packet} {u : State} (h : checkLen op p = none)
    (hc : p.crcPresent = true → packetCrc op p = p.crc.toNat) (hd : dupOf u (packetKey p) (packetCrc op p) = .fresh)
    (hf : u.sys.deviceFault = true) (pre : State → Option Refuse) (act : State → State) :
    handle op p pre act u =
      decide_ op (packetCrc op p) p (cplOf u op p stDeviceFault 0 0) false (bump 31 (noted p u)) := by
  have hn : (noted p u).sys.deviceFault = true := hf
  simp only [handle, h, crc_passes hc, hd, hn, Bool.false_eq_true, if_false, if_true]
  rfl

/-- Settles O9: the first of length, check value and duplicate that speaks decides. -/
theorem packetFaultsAnswered : Obligations.PacketFaultsAnswered := by
  intro c i p s t u hc hw hr hf
  obtain ⟨pre, act, e, -⟩ := exec_host c i p hc
  rw [e, command_fetched hw hr hf]
  refine ⟨fun r h => ?_, fun h hp hx => ?_, fun h hx => ⟨fun k hd => ?_, fun st hd => ?_⟩⟩
  · rw [handle_badLength h]
  · rw [handle_badCrc h hp hx]
    rfl
  · rw [handle_replay h hx hd]
  · rw [handle_duplicate h hx hd]

/-- Settles O14: step 5 comes before DEVICE_FAULT, which comes before every other check. -/
theorem deviceFaultAnswersCommands : Obligations.DeviceFaultAnswersCommands := by
  intro c i p s t u hc hw hr hf hl hx hd
  obtain ⟨pre, act, e, -⟩ := exec_host c i p hc
  rw [e, command_fetched hw hr hf]
  refine ⟨fun h => ?_, fun k h => ?_⟩
  · rw [handle_deviceFault hl hx h hd]
    rfl
  · rw [handle_replay hl hx h]

/-! ### The duplicate table (R85) -/

theorem dupOf_cached {s : State} {k : CmdKey} {e : CacheEnt} (h : s.cmd.cache.find? (·.key == k) = some e)
    (crc : Nat) : dupOf s k crc = if e.crc = crc then .replay e.cpl else .refuse stTagConflict := by
  rw [dupOf, h]

theorem dupOf_undecided {s : State} {k : CmdKey} {x : CmdKey × Nat} (h : s.cmd.cache.find? (·.key == k) = none)
    (hx : (undecided s).find? (·.1 == k) = some x) (crc : Nat) :
    dupOf s k crc = if x.2 = crc then .refuse stBusy else .refuse stTagConflict := by
  rw [dupOf, h, hx]

theorem dupOf_tagHeld {s : State} {k : CmdKey} (h : s.cmd.cache.find? (·.key == k) = none)
    (hx : (undecided s).find? (·.1 == k) = none) (ht : ∃ x ∈ undecided s, x.1.q = k.q ∧ x.1.tag = k.tag) (crc : Nat) :
    dupOf s k crc = .refuse stTagConflict := by
  have ha : (undecided s).any (fun x => x.1.q == k.q && x.1.tag == k.tag) = true := by
    simpa only [List.any_eq_true, Bool.and_eq_true, beq_iff_eq] using ht
  simp only [dupOf, h, hx, ha, if_true]

theorem dupOf_bySequence {s : State} {k : CmdKey} (h : s.cmd.cache.find? (·.key == k) = none)
    (hx : (undecided s).find? (·.1 == k) = none) (ht : ∀ x ∈ undecided s, ¬(x.1.q = k.q ∧ x.1.tag = k.tag)) (crc : Nat) :
    (s.cmd.newest.getD k.q none = none → dupOf s k crc = .fresh) ∧
    ∀ n, s.cmd.newest.getD k.q none = some n →
      dupOf s k crc = if (n + 65536 - k.seq) % 65536 ≥ 32768 then .fresh else .refuse stStale := by
  have ha : (undecided s).any (fun x => x.1.q == k.q && x.1.tag == k.tag) = false := by
    simpa only [List.any_eq_false, Bool.and_eq_true, beq_iff_eq] using ht
  constructor
  · intro hn
    simp only [dupOf, h, hx, ha, hn, Bool.false_eq_true, if_false]
  · intro n hn
    simp only [dupOf, h, hx, ha, hn, Bool.false_eq_true, if_false]

/-- Settles O10, row by row. -/
theorem duplicateTable : Obligations.DuplicateTable := by
  intro s k crc
  refine ⟨fun e he => ?_, fun hn => ⟨fun x hx => ?_, fun hx => ⟨fun ht => dupOf_tagHeld hn hx ht crc, fun ht => ?_⟩⟩⟩
  · rw [dupOf_cached he]
    exact ⟨fun h => if_pos h, fun h => if_neg h⟩
  · rw [dupOf_undecided hn hx]
    exact ⟨fun h => if_pos h, fun h => if_neg h⟩
  · obtain ⟨hfirst, hseq⟩ := dupOf_bySequence hn hx ht crc
    refine ⟨hfirst, fun n h => ?_⟩
    rw [hseq n h]
    exact ⟨fun h => if_pos h, fun h => if_neg (by omega)⟩

/-! ## Steps 6 to 8 (R81, R87, R89) -/

/-- Settles O11: the checks common to all commands come before a command's own; SESSION_OPEN asks for an open session
even before those. -/
theorem commonChecksRefuse : Obligations.CommonChecksRefuse := by
  intro c i p s t r hc ht hs hr
  obtain ⟨pre, act, e, hpre⟩ := exec_host c i p hc
  refine pre_refuses e ht ((hpre t r hr).trans (if_neg ?_))
  rintro ⟨h3, hx⟩
  rw [hs h3] at hx
  cases hx

theorem checkSession_none {i : CmdInfo} {p : Packet} {t : State} (h : getSess t p.q.val = none)
    (hi : i.session = true) : checkSession i p t = some { step := 7, st := stWrongState } := by
  simp [checkSession, h, hi, need]

theorem checkSession_expert {i : CmdInfo} {p : Packet} {t : State} {x : Session} (h : getSess t p.q.val = some x)
    (hx : x.expert = false) (hi : i.op.testBit 14 = true) :
    checkSession i p t = some { step := 7, st := stWrongState } := by
  simp [checkSession, h, hx, CmdInfo.expert, hi, need]

/-- A command whose session check fails is refused, whatever else it would check. -/
theorem exec_session_refused {c : Instr} {i : CmdInfo} {p : Packet} {s t : State} (hc : hostCommand c = some (i, p))
    (ht : Taken i.op p s t) (h : checkSession i p t = some { step := 7, st := stWrongState }) :
    exec c s = .next (settle (refuse i.op p { step := 7, st := stWrongState } t)) := by
  obtain ⟨pre, act, e, hpre⟩ := exec_host c i p hc
  exact pre_refuses e ht ((hpre t _ (firstOf_head h)).trans (ite_self _))

theorem sessionOpen_refused {p : Packet} {s t : State} {x : Session} (ht : Taken 0x0003 p s t)
    (h : getSess t p.q.val = some x) :
    exec (.sessionOpen p) s = .next (settle (refuse 0x0003 p { step := 7, st := stWrongState } t)) :=
  ht.command_refuse (firstOf_head (by simp [h, need])) _

/-- Settles O12: step 7 refuses a command that needs a session without one and an expert opcode without expert access;
SESSION_OPEN is the one command that needs the lack of a session. -/
theorem noSessionMeansWrongState : Obligations.NoSessionMeansWrongState := by
  intro c i p s t hc ht
  refine ⟨fun hn hi => exec_session_refused hc ht (checkSession_none hn (infos_session c i p hc hi)), fun x hx h => ?_⟩
  rcases h with h3 | ⟨he, hi⟩
  · obtain rfl := sessionOpen_of_opcode c i p hc h3
    rw [h3] at ht ⊢
    exact sessionOpen_refused ht hx
  · exact exec_session_refused hc ht (checkSession_expert hx he hi)

/-- A NOP row whose opcode no row assigns runs through the pipeline as far as step 6. -/
theorem execNop_unassigned {op : BitVec 16} (h0 : op ≠ 0) (ha : assigned.contains op.toNat = false) (p : Packet)
    (s : State) : exec (.nop op p) s = command op.toNat p (fun _ => some { step := 6, st := stBadOpcode }) id s := by
  have h0' : op.toNat ≠ 0 := fun h => h0 (BitVec.eq_of_toNat_eq h)
  show execNop op p s = _
  simp only [execNop, h0', ha, Bool.false_eq_true, if_false]

/-- Settles O13. -/
theorem unassignedOpcodesRefused : Obligations.UnassignedOpcodesRefused := by
  intro op p s t h0 ha ht
  rw [execNop_unassigned h0 ha, ht.command_refuse rfl]
  rfl

end Sys2Proof.Machine
end

section
/-! SUPPORT. Proofs about tick engines: scalar results, vector lanes and engine memory (R391 to R395). -/
namespace Sys2Proof.Machine

/-! ## Scalar instructions -/

/-- What follows for an instruction that writes `v` to Sd under bit 0 of its guard, and P0's own rules. -/
theorem scalar_write {i : Issue} {w : EWord} {r : Run} {s : State} {op : EngOp} {v : BitVec 64} (hr : r.sr.length = 16)
    (hd : w.d < 16) (h : op i w r s = (if runs w r then r.setS w.d v else r, s)) :
    ((r.p w.guard).getLsbD 0 = false → op i w r s = (r, s)) ∧
    ((r.p w.guard).getLsbD 0 = true → (op i w r s).2 = s ∧ (op i w r s).1.s w.d = v ∧
      (∀ n, n ≠ w.d → (op i w r s).1.s n = r.s n) ∧ (op i w r s).1 = { r with sr := (op i w r s).1.sr }) ∧
    r.p 0 = BitVec.allOnes 64 ∧ r.setP 0 v = r := by
  refine ⟨fun hg => ?_, fun hg => ?_, rfl, rfl⟩ <;> rw [h, runs, guardOf, hg]
  · rfl
  · refine ⟨rfl, ?_, fun n hn => ?_, rfl⟩
    · exact (setS_get r w.d w.d v hr hd).trans (if_pos rfl)
    · exact (setS_get r w.d n v hr hd).trans (if_neg hn)

/-- A shift by less than 64 writes its result under the guard. -/
theorem scalarShift_lt {w : EWord} {r : Run} (h : (r.s w.b).toNat < 64) (f : BitVec 64 → Nat → BitVec 64) (i : Issue)
    (s : State) : scalarShift f i w r s = (if runs w r then r.setS w.d (f (r.s w.a) (r.s w.b).toNat) else r, s) := by
  unfold scalarShift
  cases runs w r
  · rfl
  · simp only [Bool.not_true, Bool.false_eq_true, if_false, if_pos h, if_true]

/-- Settles O51: each instruction listed writes its value under the guard, and `scalar_write` says the rest. -/
theorem engineScalarResults : Obligations.EngineScalarResults := by
  intro i w r s op v hr hd h
  rcases h with h | ⟨h, hb⟩
  · simp only [List.mem_cons, List.not_mem_nil, or_false, Prod.mk.injEq] at h
    rcases h with ⟨rfl, rfl⟩ | ⟨rfl, rfl⟩ | ⟨rfl, rfl⟩ | ⟨rfl, rfl⟩ | ⟨rfl, rfl⟩ | ⟨rfl, rfl⟩ | ⟨rfl, rfl⟩ | ⟨rfl, rfl⟩ |
      ⟨rfl, rfl⟩ | ⟨rfl, rfl⟩ <;> exact scalar_write hr hd rfl
  · simp only [List.mem_cons, List.not_mem_nil, or_false, Prod.mk.injEq] at h
    rcases h with ⟨rfl, rfl⟩ | ⟨rfl, rfl⟩ | ⟨rfl, rfl⟩ <;> exact scalar_write hr hd (scalarShift_lt hb _ i s)

/-! ## Vector instructions -/

theorem setV_get (r : Run) (d n : Nat) (x : BitVec 512) (h : r.vr.length = 32) (hd : d < 32) :
    (r.setV d x).v n = if n = d then x else r.v n := by
  simp only [Run.setV, Run.v, list_getD_set, h, hd, and_true]

theorem maskLanes_length (k : Nat) (g : BitVec 64) (old new : List Nat) : (maskLanes k g old new).length = 512 / k := by
  simp only [maskLanes, List.length_map, List.length_range]

theorem maskLanes_getD {k j : Nat} (h : j < 512 / k) (g : BitVec 64) (old new : List Nat) :
    (maskLanes k g old new).getD j 0 = if g.getLsbD (j * (k / 8)) then new.getD j 0 else old.getD j 0 := by
  simp [maskLanes, List.getD_eq_getElem?_getD, h]

theorem zipWith_lanes_getD {k j : Nat} (h : j < 512 / k) (f : Nat → Nat → Nat) (a b : BitVec 512) :
    (List.zipWith f (lanes k a) (lanes k b)).getD j 0 = f ((lanes k a).getD j 0) ((lanes k b).getD j 0) := by
  have ha : j < (lanes k a).length := by rwa [lanes_length]
  have hb : j < (lanes k b).length := by rwa [lanes_length]
  simp only [List.getD_eq_getElem?_getD, List.getElem?_zipWith, List.getElem?_eq_getElem ha,
    List.getElem?_eq_getElem hb, Option.getD_some]

theorem lanes_getD_mod {k j : Nat} (h : j < 512 / k) (a : BitVec 512) :
    (lanes k a).getD j 0 % 2 ^ k = (lanes k a).getD j 0 := by
  rw [lanes_getD _ _ _ h, Nat.mod_mod]

/-- Writing lanes under the guard, read back lane by lane. -/
theorem putLanes_lane {w : EWord} {r : Run} {k j : Nat} (hr : r.vr.length = 32) (hd : w.d < 32) (h : j < 512 / k)
    (new : List Nat) : (lanes k ((putLanes w k new r).v w.d)).getD j 0 =
      if (r.p w.guard).getLsbD (j * (k / 8)) then new.getD j 0 % 2 ^ k else (lanes k (r.v w.d)).getD j 0 := by
  have hl : k * (maskLanes k (guardOf w r) (lanes k (r.v w.d)) new).length ≤ 512 := by
    rw [maskLanes_length]
    exact Nat.mul_div_le ..
  rw [putLanes, setV_get r w.d w.d _ hr hd, if_pos rfl, lanes_unlanes k _ hl j h, maskLanes_getD h, guardOf]
  split
  · rfl
  · exact lanes_getD_mod h _

/-- What a vector instruction of two sources does, lane by lane, and what it leaves. -/
theorem vector2_lanes {w : EWord} {r : Run} (hr : r.vr.length = 32) (hd : w.d < 32) (g : Nat → Nat → Nat → Nat)
    (i : Issue) (s : State) :
    (vector2 g i w r s).2 = s ∧
    (∀ j, j < 512 / laneW w → (lanes (laneW w) ((vector2 g i w r s).1.v w.d)).getD j 0 =
      if (r.p w.guard).getLsbD (j * (laneW w / 8)) then
        g (laneW w) ((lanes (laneW w) (r.v w.a)).getD j 0) ((lanes (laneW w) (r.v w.b)).getD j 0) % 2 ^ laneW w
      else (lanes (laneW w) (r.v w.d)).getD j 0) ∧
    (∀ n, n ≠ w.d → (vector2 g i w r s).1.v n = r.v n) ∧
    (vector2 g i w r s).1 = { r with vr := (vector2 g i w r s).1.vr } := by
  refine ⟨rfl, fun j hj => ?_, fun n hn => ?_, rfl⟩
  · rw [← zipWith_lanes_getD hj (g (laneW w)) (r.v w.a) (r.v w.b)]
    exact putLanes_lane hr hd hj _
  · exact (setV_get r w.d n _ hr hd).trans (if_neg hn)

/-- Settles O52: every instruction listed is a vector instruction of two sources. -/
theorem engineVectorLanes : Obligations.EngineVectorLanes := by
  rintro i w r s _ op f hr hd _ rfl h
  simp only [List.mem_cons, List.not_mem_nil, or_false, Prod.mk.injEq] at h
  rcases h with ⟨rfl, rfl⟩ | ⟨rfl, rfl⟩ | ⟨rfl, rfl⟩ | ⟨rfl, rfl⟩ | ⟨rfl, rfl⟩ | ⟨rfl, rfl⟩ | ⟨rfl, rfl⟩ | ⟨rfl, rfl⟩ |
    ⟨rfl, rfl⟩ | ⟨rfl, rfl⟩ <;> exact vector2_lanes hr hd _ i s

/-! ## Local memory -/

theorem getEng_setEng {s : State} (h : SMap.wf ({} : Eng) s.stw.engs = true) (e x : Nat) (v : Eng) :
    getEng (setEng e v s) x = if x = e then v else getEng s x := SMap.get_put _ _ _ _ h x

theorem opSt_good {i : Issue} {w : EWord} {r : Run} (hg : (r.p w.guard).getLsbD 0 = true)
    (h : localBad i.code (accAddr w r) (2 ^ w.width) = none) (s : State) :
    opSt i w r s = (r, localWrite i.e (accAddr w r) (le (2 ^ w.width) (r.s w.b).toNat) s) := by
  simp only [opSt, runs, guardOf, hg, h, Bool.not_true, Bool.false_eq_true, if_false]

theorem opSt_bad {i : Issue} {w : EWord} {r : Run} {x : Nat} (hg : (r.p w.guard).getLsbD 0 = true)
    (h : localBad i.code (accAddr w r) (2 ^ w.width) = some x) (s : State) : opSt i w r s = refused i 0 x r s := by
  simp only [opSt, runs, guardOf, hg, h, Bool.not_true, Bool.false_eq_true, if_false]

theorem opLd_good {i : Issue} {w : EWord} {r : Run} (hg : (r.p w.guard).getLsbD 0 = true)
    (h : localBad i.code (accAddr w r) (2 ^ w.width) = none) (s : State) :
    opLd i w r s = (r.setS w.d (BitVec.ofNat 64 (unle (localRead s i.e (accAddr w r) (2 ^ w.width)))), s) := by
  simp only [opLd, runs, guardOf, hg, h, Bool.not_true, Bool.false_eq_true, if_false]

theorem opLd_bad {i : Issue} {w : EWord} {r : Run} {x : Nat} (hg : (r.p w.guard).getLsbD 0 = true)
    (h : localBad i.code (accAddr w r) (2 ^ w.width) = some x) (s : State) : opLd i w r s = refused i 0 x r s := by
  simp only [opLd, runs, guardOf, hg, h, Bool.not_true, Bool.false_eq_true, if_false]

/-- Settles O53. -/
theorem engineLocalMemory : Obligations.EngineLocalMemory := by
  intro i w r s hs hm hg
  refine ⟨fun h => ?_, fun x h => ⟨opSt_bad hg h s, opLd_bad hg h s, rfl⟩⟩
  rw [opSt_good hg h, opLd_good hg h]
  refine ⟨rfl, rfl, rfl, fun e he => ?_, fun a => ?_, rfl, rfl⟩
  · exact (getEng_setEng hs _ e _).trans (if_neg he)
  · show SMap.get 0 (getEng (setEng i.e _ s) i.e).mem a = _
    rw [getEng_setEng hs, if_pos rfl]
    exact (SMap.get_putAll _ _ _ _ hm a).trans (by rw [le_length])

end Sys2Proof.Machine
end

section
/-! SUPPORT. Proofs about counters and events (R447, R455, R456), reset, at-ticks, the reference selection (R346), page
leases (R408 to R410) and the check values of the CRC algorithms. -/
namespace Sys2Proof.Machine

/-! ## Counters -/

theorem bumpBy_below {n k : Nat} {s : State} (h : s.count n + k ≤ cntMax) :
    bumpBy n k s = { s with obs := { s.obs with cnt := SMap.put 0 s.obs.cnt n (s.count n + k) } } := by
  have h' : ¬s.count n + k > cntMax := Nat.not_lt.2 h
  simp only [bumpBy, if_neg h', bumpRaw]

theorem bumpBy_beyond {n k : Nat} {s : State} (h : cntMax < s.count n + k) :
    bumpBy n k s = raiseSaturated (bumpRaw n k s) := if_pos h

theorem sat_bumpRaw_same {n k : Nat} {s : State} (h2 : SMap.wf false s.obs.sat = true) (h : cntMax < s.count n + k) :
    SMap.get false (bumpRaw n k s).obs.sat n = true := by
  simp only [bumpRaw, if_pos h, SMap.get_put _ _ _ _ h2, if_true]

theorem count_congr {s t : State} (h : t.obs = s.obs) (n : Nat) : t.count n = s.count n := by
  rw [State.count, h, State.count]

/-- COUNTER_SATURATED is reported at most once in a tick. -/
theorem raiseSaturated_again {s : State} (h : s.satTick = true) : raiseSaturated s = s := if_pos h

/-- What reporting a saturation for the first time in a tick leaves of the counters, and what it sets. -/
theorem raiseSaturated_first {s : State} (h : s.satTick = false) (hc : SMap.wf 0 s.obs.cnt = true)
    (hs : SMap.wf false s.obs.sat = true) (n : Nat) :
    (s.count n = cntMax → (raiseSaturated s).count n = cntMax) ∧
    (n < 1856 → (raiseSaturated s).count n = s.count n) ∧
    (SMap.get false s.obs.sat n = true → SMap.get false (raiseSaturated s).obs.sat n = true) ∧
    (raiseSaturated s).satTick = true ∧
    (s.ev.en.getLsbD 0xF3 = true → (raiseSaturated s).ev.stat.getLsbD 0xF3 = true) := by
  have e : raiseSaturated s = raiseStat 0xF3 ((selsOf s 0xF3).foldl (fun s k => bumpRaw (1856 + k) 1 s)
      (noteRaised 0xF3 { s with satTick := true })) := by
    rw [raiseSaturated, h]
    rfl
  rw [e]
  obtain ⟨f1, f2, f3, f4, f5⟩ := foldl_sel (selsOf s 0xF3) n (noteRaised 0xF3 { s with satTick := true }) hc hs
  revert f1 f2 f3 f4 f5
  generalize List.foldl (fun s k => bumpRaw (1856 + k) 1 s) (noteRaised 0xF3 { s with satTick := true })
    (selsOf s 0xF3) = t
  intro f1 f2 f3 f4 f5
  obtain ⟨ho, ht⟩ := obs_raiseStat 0xF3 t
  refine ⟨fun hn => (count_congr ho n).trans (f1 hn), fun hn => (count_congr ho n).trans (f2 hn), fun hn => ?_,
    ht.trans f5, fun hn => ?_⟩
  · rw [ho]
    exact f3 hn
  · refine stat_raiseStat 0xF3 t (by decide) ?_
    rw [f4]
    exact hn

/-- Settles O54: `bumpRaw` adds or holds, and only a saturation reports anything. -/
theorem countersHoldAtMaximum : Obligations.CountersHoldAtMaximum := by
  intro n k s hc hs
  dsimp only
  refine ⟨fun h => ?_, fun h => ?_⟩
  · rw [bumpBy_below h]
    refine ⟨?_, rfl, rfl, fun x hx => ?_⟩
    · exact (SMap.get_put _ _ _ _ hc n).trans (if_pos rfl)
    · exact (SMap.get_put _ _ _ _ hc x).trans (if_neg hx)
  · rw [bumpBy_beyond h]
    obtain ⟨wc, ws⟩ := wf_bumpRaw n k s hc hs
    obtain ⟨hev, hst⟩ := ev_bumpRaw n k s
    have hn : (bumpRaw n k s).count n = cntMax := by
      rw [count_bumpRaw n k n s hc, if_pos rfl]
      exact Nat.min_eq_right (Nat.le_of_lt h)
    have hx : ∀ x, x ≠ n → (bumpRaw n k s).count x = s.count x := fun x hx => by
      rw [count_bumpRaw n k x s hc, if_neg hx]
    have hsat := sat_bumpRaw_same hs h
    cases ht : s.satTick with
    | true =>
      rw [raiseSaturated_again (hst.trans ht)]
      exact ⟨hn, hsat, hst.trans ht, fun x h _ => hx x h, fun _ => hev, fun h => by cases h⟩
    | false =>
      have first := raiseSaturated_first (hst.trans ht) wc ws
      obtain ⟨f1, -, f3, f4, f5⟩ := first n
      refine ⟨f1 hn, f3 hsat, f4, fun x h hl => ?_, fun h => by (cases h), fun _ he => f5 ?_⟩
      · obtain ⟨-, g2, -⟩ := first x
        rw [g2 hl, hx x h]
      · rw [hev]
        exact he

/-! ## Events -/

/-- Bit `j` of a register of bits when bit `e` is set in it. -/
theorem getLsbD_or_two_pow {w e j : Nat} (x : BitVec w) (hj : j < w) :
    (x ||| BitVec.ofNat w (2 ^ e)).getLsbD j = (decide (j = e) || x.getLsbD j) := by
  rw [BitVec.getLsbD_or, BitVec.getLsbD_ofNat, Nat.testBit_two_pow, decide_eq_true hj, Bool.true_and, Bool.or_comm]
  simp only [eq_comm]

theorem raiseStat_disabled {e : Nat} {s : State} (h : s.ev.en.getLsbD e = false) : raiseStat e s = s := by
  rw [raiseStat, h]
  rfl

/-- The state with the status bit of event `e` set, and noted as set in this tick. -/
def withStat (e : Nat) (s : State) : State :=
  { s with ev := { s.ev with
      stat := s.ev.stat ||| BitVec.ofNat 256 (2 ^ e), tickSet := s.ev.tickSet ||| BitVec.ofNat 256 (2 ^ e) } }

theorem raiseStat_masked {e : Nat} {s : State} (he : s.ev.en.getLsbD e = true) (hm : s.ev.mask.getLsbD e = true) :
    raiseStat e s = withStat e s := by
  simp only [raiseStat, he, hm, Bool.not_true, Bool.and_false, Bool.false_eq_true, if_false, if_true, withStat]

theorem raiseStat_again {e : Nat} {s : State} (he : s.ev.en.getLsbD e = true) (hs : s.ev.stat.getLsbD e = true) :
    raiseStat e s = withStat e s := by
  simp only [raiseStat, he, hs, Bool.not_true, Bool.false_and, Bool.false_eq_true, if_false, if_true, withStat]

theorem raiseStat_gain {e : Nat} {s : State} (he : s.ev.en.getLsbD e = true) (hs : s.ev.stat.getLsbD e = false)
    (hm : s.ev.mask.getLsbD e = false) : raiseStat e s = signal (SMap.get 0 s.ev.vec e) (withStat e s) := by
  simp only [raiseStat, he, hs, hm, Bool.not_false, Bool.and_self, if_true, withStat]

theorem stat_or_again {e : Nat} {s : State} (hs : s.ev.stat.getLsbD e = true) :
    s.ev.stat ||| BitVec.ofNat 256 (2 ^ e) = s.ev.stat := by
  refine BitVec.eq_of_getLsbD_eq fun j hj => ?_
  rw [getLsbD_or_two_pow _ hj]
  by_cases h : j = e
  · simp [h, hs]
  · simp [h]

theorem stat_signal (v : Nat) (s : State) : (signal v s).ev.stat = s.ev.stat := (obs_signal v s).2.2

/-- An enabled, unmasked status bit holds INT_N low (R456). -/
theorem intN_of_bit {s : State} {e : Nat} (hs : s.ev.stat.getLsbD e = true) (he : s.ev.en.getLsbD e = true)
    (hm : s.ev.mask.getLsbD e = false) (hl : e < 256) : (pinsOf s).intN = true := by
  refine bne_iff_ne.2 fun h => ?_
  have hb := congrArg (fun x => BitVec.getLsbD x e) h
  rw [BitVec.getLsbD_and, BitVec.getLsbD_and, BitVec.getLsbD_not, hs, he, hm, decide_eq_true hl] at hb
  cases hb.trans BitVec.getLsbD_zero

theorem signal_unmasked {v : Nat} {s : State} (h : msixMasked s v = false) :
    signal v s = { s with ev := { s.ev with signals := SMap.put 0 s.ev.signals v (SMap.get 0 s.ev.signals v + 1) } } := by
  rw [signal, h]
  rfl

theorem signal_masked {v : Nat} {s : State} (h : msixMasked s v = true) :
    signal v s = { s with ev := { s.ev with msixPend := s.ev.msixPend ||| BitVec.ofNat 64 (2 ^ v) } } := by
  rw [signal, h]
  rfl

/-- Settles O55: disabled, set again, masked, or a gain that signals its vector. -/
theorem eventsSetAndSignal : Obligations.EventsSetAndSignal := by
  intro e v s hl hv hw
  dsimp only
  refine ⟨raiseStat_disabled, fun he hs => ?_, fun he hs => ?_⟩
  · rw [raiseStat_again he hs, withStat, stat_or_again hs]
  have hset : ∀ j, j < 256 → (withStat e s).ev.stat.getLsbD j = (decide (j = e) || s.ev.stat.getLsbD j) :=
    fun j hj => getLsbD_or_two_pow _ hj
  cases hm : s.ev.mask.getLsbD e with
  | true =>
    rw [raiseStat_masked he hm]
    exact ⟨hset, fun _ => ⟨rfl, rfl⟩, fun h => by cases h⟩
  | false =>
    rw [raiseStat_gain he hs hm, ← hv]
    have hstat := stat_signal v (withStat e s)
    have hr := signal_reports v (withStat e s)
    refine ⟨fun j hj => by rw [hstat, hset j hj], fun h => by (cases h), fun _ => ⟨?_, fun hq => ?_, fun hq hv64 => ?_⟩⟩
    · refine intN_of_bit (e := e) ?_ ?_ ?_ hl
      · rw [hstat, hset e hl, decide_eq_true rfl, Bool.true_or]
      · rw [hr.en]
        exact he
      · rw [hr.mask]
        exact hm
    · rw [signal_unmasked (s := withStat e s) hq]
      refine ⟨rfl, fun u => ?_⟩
      show SMap.get 0 (SMap.put 0 s.ev.signals v (SMap.get 0 s.ev.signals v + 1)) u = _
      rw [SMap.get_put _ _ _ _ hw]
      by_cases hu : u = v
      · rw [if_pos hu, if_pos hu, hu]
      · rw [if_neg hu, if_neg hu, Nat.add_zero]
    · rw [signal_masked (s := withStat e s) hq]
      exact ⟨rfl, fun u hu => getLsbD_or_two_pow _ hu⟩

/-! ## Reset -/

/-- Settles O2: State.reset is written out, and each register reads as it stands there. -/
theorem resetRegisterValues : Obligations.ResetRegisterValues := by
  have hq : ∀ q, (getQ State.reset q).enabled = false := fun q =>
    list_getD_all State.reset.cmd.queues {} (fun u => u.enabled = false) rfl (by decide) q
  have hsess : ∀ q, getSess State.reset q = none := fun q =>
    list_getD_all State.reset.cmd.sess none (fun u => u = none) rfl (by decide) q
  have hmask : ∀ e, e < 256 → State.reset.ev.mask.getLsbD e = true := fun e he => by
    rw [show State.reset.ev.mask = BitVec.allOnes 256 by decide, BitVec.getLsbD_allOnes, decide_eq_true he]
  exact ⟨fun e => BitVec.getLsbD_zero, fun e => BitVec.getLsbD_zero, hmask, fun _ => rfl, hq, hsess, rfl, rfl, rfl, rfl,
    rfl, rfl, rfl, rfl, fun _ => rfl⟩

/-! ## At-ticks (R50, R51) -/

/-- Settles O18: the tests of `placeAt` in their order. -/
theorem atTickPlacement : Obligations.AtTickPlacement := by
  rintro cls p now _ e rfl he
  obtain rfl : e = earliest cls now := by
    rw [he]
    cases cls <;> rfl
  have hnear : earliest cls now ≤ now + 519 := by
    cases cls
    case line => exact Nat.le_trans (Nat.div_mul_le_self ..) (by omega)
    all_goals exact Nat.add_le_add_left (by decide) now
  clear he
  unfold placeAt
  dsimp only
  refine ⟨fun hl ha => if_pos ⟨hl, ha⟩, fun hal => ?_⟩
  rw [if_neg fun h => h.2 (hal h.1)]
  refine ⟨fun h => if_pos h, fun h => ?_, fun h hf he => ?_, fun h hlt hp => ?_, fun h hlt hp => ?_⟩
  · rw [if_neg (by omega), if_pos h]
  · rw [if_neg (by omega), if_neg h, if_pos he]
  · rw [if_neg (by omega), if_neg h, if_neg (by omega), if_pos hp]
  · rw [if_neg (by omega), if_neg h, if_neg (by omega), hp]
    rfl

/-! ## The reference selection (R346) -/

theorem mem_candidates {s : State} {r : Nat} : r ∈ candidates s ↔
    r < 9 ∧ (getRef s r).qualified = true ∧ (getRef s r).priority ≠ 0 ∧ (getRef s r).wtrEnd = none := by
  simp only [candidates, List.mem_filter, List.mem_range, Bool.and_eq_true, bne_iff_ne, Option.isNone_iff_eq_none,
    and_assoc]

/-- The better of the candidate found so far and the next one. -/
def betterRef (s : State) (b : Option Nat) (r : Nat) : Option Nat :=
  match b with
  | none => some r
  | some x => if (getRef s r).priority < (getRef s x).priority then some r else some x

/-- `r` comes before `x`: a lower priority value, or the same and a lower ID. -/
def refBefore (s : State) (r x : Nat) : Prop :=
  (getRef s r).priority < (getRef s x).priority ∨ (getRef s r).priority = (getRef s x).priority ∧ r ≤ x

theorem betterRef_best {s : State} {x y : Nat} (h : x < y) :
    ∃ r, betterRef s (some x) y = some r ∧ (r = x ∨ r = y) ∧ refBefore s r x ∧ refBefore s r y := by
  rw [betterRef]
  split
  next hp => exact ⟨y, rfl, .inr rfl, .inl hp, .inr ⟨rfl, Nat.le_refl y⟩⟩
  next hp =>
    refine ⟨x, rfl, .inl rfl, .inr ⟨rfl, Nat.le_refl x⟩, ?_⟩
    unfold refBefore
    omega

theorem refBefore_trans {s : State} {x y z : Nat} (h : refBefore s x y) (k : refBefore s y z) : refBefore s x z := by
  unfold refBefore at *
  omega

/-- Over a rising list the fold finds the candidate that comes before every other. -/
theorem foldl_betterRef {s : State} (l : List Nat) (x : Nat) (hl : (x :: l).Pairwise (· < ·)) :
    ∃ r, l.foldl (betterRef s) (some x) = some r ∧ r ∈ x :: l ∧ ∀ y ∈ x :: l, refBefore s r y := by
  induction l generalizing x with
  | nil => exact ⟨x, rfl, by simp, fun y hy => by rw [List.mem_singleton.1 hy]; exact .inr ⟨rfl, Nat.le_refl _⟩⟩
  | cons y l ih =>
    obtain ⟨hx, hy⟩ := List.pairwise_cons.1 hl
    obtain ⟨hyl, hl'⟩ := List.pairwise_cons.1 hy
    obtain ⟨b, e, hb, hbx, hby⟩ := betterRef_best (s := s) (hx y (by simp))
    have hbl : (b :: l).Pairwise (· < ·) := by
      refine List.pairwise_cons.2 ⟨fun z hz => ?_, hl'⟩
      rcases hb with rfl | rfl
      · exact hx z (by simp [hz])
      · exact hyl z hz
    obtain ⟨r, er, hr, hbest⟩ := ih b hbl
    refine ⟨r, by rw [List.foldl_cons, e, er], ?_, fun z hz => ?_⟩
    · rcases List.mem_cons.1 hr with rfl | hr
      · rcases hb with rfl | rfl <;> simp
      · simp [hr]
    · have hrb := hbest b (by simp)
      rcases List.mem_cons.1 hz with rfl | hz
      · exact refBefore_trans hrb hbx
      rcases List.mem_cons.1 hz with rfl | hz
      · exact refBefore_trans hrb hby
      · exact hbest z (by simp [hz])

theorem candidates_rising (s : State) : (candidates s).Pairwise (· < ·) := List.pairwise_lt_range.filter _

theorem selectRef_manual {s : State} (h : s.tm.auto = false) (hm : s.tm.manual ∈ candidates s) :
    selectRef s = some s.tm.manual := by
  simp only [selectRef, h, List.contains_iff_mem.2 hm, Bool.not_false, Bool.and_self, if_true]

theorem selectRef_automatic {s : State} (h : s.tm.auto = true ∨ s.tm.manual ∉ candidates s) :
    selectRef s = (candidates s).foldl (betterRef s) none := by
  have hc : (!s.tm.auto && (candidates s).contains s.tm.manual) = false := by
    rcases h with h | h
    · rw [h]
      rfl
    · rw [Bool.eq_false_iff.2 fun hc => h (List.contains_iff_mem.1 hc), Bool.and_false]
  simp only [selectRef, hc, Bool.false_eq_true, if_false]
  rfl

/-- Settles O56: the fold over the candidates, which rise, keeps the first one of the best priority. -/
theorem referenceSelection : Obligations.ReferenceSelection := by
  intro s
  refine ⟨fun r => mem_candidates, selectRef_manual, fun h => ?_⟩
  rw [selectRef_automatic h]
  have hup := candidates_rising s
  generalize candidates s = l at hup ⊢
  cases l with
  | nil => exact ⟨fun _ => rfl, fun h => absurd rfl h, fun r h => by cases h⟩
  | cons x l =>
    obtain ⟨r, e, hr, hb⟩ := foldl_betterRef (s := s) l x hup
    have e' : (x :: l).foldl (betterRef s) none = some r := e
    rw [e']
    refine ⟨fun h => by (cases h), fun _ => ⟨r, rfl⟩, fun r' h => ?_⟩
    cases h
    exact ⟨hr, hb⟩

/-! ## Page leases (R408 to R410) -/

theorem getTen_updTen {t : Nat} {s : State} (h : t < s.stw.tenants.length) (f : Tenant → Tenant) :
    getTen (updTen t f s) t = f (getTen s t) := tenants_getD_lmod _ t f h

theorem heldCount_updTen (t u : Nat) (f : Tenant → Tenant) (s : State) : heldCount (updTen u f s) t = heldCount s t := rfl

theorem tenN_updTen (pid t u : Nat) (f : Tenant → Tenant) (s : State) : tenN (updTen u f s) pid t = tenN s pid t := rfl

theorem updTen_updTen (t : Nat) (f g : Tenant → Tenant) (s : State) :
    updTen t g (updTen t f s) = updTen t (g ∘ f) s := by
  simp only [updTen, updStw, lmod, List.modify_modify_eq]

/-- Two changes of a tenant that agree on it as it stands are the same change. -/
theorem updTen_congr {t : Nat} {s : State} {f g : Tenant → Tenant} (ht : t < s.stw.tenants.length)
    (h : f (getTen s t) = g (getTen s t)) : updTen t f s = updTen t g s := by
  have e : lmod s.stw.tenants t f = lmod s.stw.tenants t g := by
    simp only [getTen, List.getD_eq_getElem?_getD, List.getElem?_eq_getElem ht, Option.getD_some] at h
    refine List.ext_getElem? fun i => ?_
    simp only [lmod, List.getElem?_modify]
    by_cases hi : t = i
    · subst hi
      simp only [List.getElem?_eq_getElem ht, if_true, Option.map_eq_map, Option.map_some, h]
    · simp only [if_neg hi]
  simp only [updTen, updStw, e]

/-- A tenant whose lease is renewed at the boundary, by itself or for want of engines (R409). -/
def leaseRenewed (noEng : Bool) (s : State) (t : Nat) : Bool :=
  (getTen s t).renewed || (noEng && tenN s 0xD008 t == 1)

/-- The tenant after a boundary, but for the second miss's reclaim. -/
def leaseTenant (noEng : Bool) (s : State) (t : Nat) (x : Tenant) : Tenant :=
  let y := if noEng && tenN s 0xD008 t == 1 then { x with renewTick := s.tick } else x
  { y with refusals := 0, renewed := false, missed := if leaseRenewed noEng s t then 0 else x.missed + 1 }

theorem leaseOne_pages {noEng : Bool} {s : State} {t : Nat} (ht : t < s.stw.tenants.length) (hh : heldCount s t ≠ 0) :
    leaseOne noEng s t = if leaseRenewed noEng s t = false ∧ 1 ≤ (getTen s t).missed then
      raise 0xD6 (bump (tenCnt t 9) (reclaim t (updTen t (leaseTenant noEng s t) s)))
    else updTen t (leaseTenant noEng s t) s := by
  rw [leaseOne]
  dsimp only
  rw [heldCount_updTen, if_neg hh, tenN_updTen]
  by_cases hn : (noEng && tenN s 0xD008 t == 1) = true
  · have hr : leaseRenewed noEng s t = true := by rw [leaseRenewed, hn, Bool.or_true]
    rw [if_pos hn, renew, updTen_updTen, getTen_updTen ht, hr, if_neg (by simp), updTen_updTen]
    exact updTen_congr ht (by simp only [leaseTenant, if_pos hn, hr, if_true, Function.comp_apply]; rfl)
  · have hr : leaseRenewed noEng s t = (getTen s t).renewed := by
      rw [leaseRenewed, Bool.eq_false_iff.2 hn, Bool.or_false]
    rw [if_neg hn, getTen_updTen ht, updTen_updTen, updTen_congr (g := leaseTenant noEng s t) ht
      (by simp only [leaseTenant, if_neg hn, hr, Function.comp_apply]), hr]
    dsimp only
    cases (getTen s t).renewed
    · rw [if_neg Bool.false_ne_true]
      simp only [true_and, show 2 ≤ (getTen s t).missed + 1 ↔ 1 ≤ (getTen s t).missed by omega]
    · rw [if_pos rfl]
      simp only [Nat.reduceLeDiff, if_false, Bool.true_eq_false, false_and]

/-- Settles O57. -/
theorem pageLeases : Obligations.PageLeases := by
  intro noEng s t ht hh
  have e := leaseOne_pages (noEng := noEng) ht hh
  have hm := getTen_updTen ht (leaseTenant noEng s t)
  dsimp only
  refine ⟨fun (hr : leaseRenewed noEng s t = true) => ?_, fun (hr : leaseRenewed noEng s t = false) h0 => ?_,
    fun (hr : leaseRenewed noEng s t = false) h1 => ?_⟩
  · rw [if_neg (by simp [hr])] at e
    rw [e, hm]
    exact ⟨by simp only [leaseTenant, hr, if_true], rfl, rfl⟩
  · rw [if_neg (by simp [h0])] at e
    rw [e, hm]
    exact ⟨by simp only [leaseTenant, hr, h0, Bool.false_eq_true, if_false], rfl, rfl⟩
  · rw [if_pos ⟨hr, h1⟩] at e
    rw [e, updTen_congr ht]
    obtain ⟨-, hn⟩ : (getTen s t).renewed = false ∧ (noEng && tenN s 0xD008 t == 1) = false := Bool.or_eq_false_iff.1 hr
    simp only [leaseTenant, hr, hn, Bool.false_eq_true, if_false]

/-! ## Check values of the CRC algorithms (R77, R438) -/

/-- Settles O60: each algorithm is run over the nine digits. -/
theorem crcCheckValues : Obligations.CrcCheckValues := by
  refine ⟨?_, ?_, ?_, ?_, ?_⟩ <;> decide +kernel

end Sys2Proof.Machine
end

section
/-! SUPPORT. Proofs about completions: where one is written, held or dropped, what an answer and a refusal leave unchanged,
and the completion cache (R71, R78, R79, R84). -/
namespace Sys2Proof.Machine

/-! ## What reports leave alone -/

theorem Reports.cmd {s t : State} (h : Reports s t) : t.cmd = s.cmd := (congrArg State.cmd h.rest).symm

theorem Reports.hostMem {s t : State} (h : Reports s t) : t.hostMem = s.hostMem := (congrArg State.hostMem h.rest).symm

theorem Reports.getQ {s t : State} (h : Reports s t) (q : Nat) : getQ t q = getQ s q := by
  rw [Machine.getQ, h.cmd, Machine.getQ]

theorem cacheAdd_hostMem (k : CmdKey) (crc : Nat) (c : Cpl) (s : State) : (cacheAdd k crc c s).hostMem = s.hostMem := by
  unfold cacheAdd
  split <;> rfl

theorem cacheAdd_getQ (k : CmdKey) (crc : Nat) (c : Cpl) (s : State) (q : Nat) : getQ (cacheAdd k crc c s) q = getQ s q := by
  unfold cacheAdd
  split <;> rfl

theorem countSlotFit_reports (st d : Nat) (s : State) : Reports s (countSlotFit st d s) := by
  unfold countSlotFit
  split
  · exact bump_reports _ s
  · exact Reports.refl s

/-! ## The place of a completion in host memory -/

/-- Where the next completion of queue `q` goes in host memory (R71). -/
def entryAddr (s : State) (q : Nat) : Nat := (getQ s q).cqBase + 32 * (getQ s q).cqTail

theorem entBytes_length (c : Cpl) (phase : Bool) (h : Nat) : (entBytes c phase h).length = 32 := by
  simp only [entBytes, List.length_append, le_length]

theorem cqWrite_hostMem (q : Nat) (c : Cpl) (s : State) : (cqWrite q c s).hostMem =
    SMap.putAll (0 : Byte) s.hostMem (entryAddr s q) (entBytes c (getQ s q).phase (getQ s q).sqHead) :=
  (cqWrite_sameMem q c s).host

/-- A posted completion writes no host memory but the queue's next entry. -/
theorem post_hostMem_outside {s : State} (h : SMap.wf (0 : Byte) s.hostMem = true) (q : Nat) (c : Cpl) (timed : Bool)
    {a : Nat} (ha : a < entryAddr s q ∨ entryAddr s q + 32 ≤ a) :
    SMap.get 0 (post q c timed s).hostMem a = SMap.get 0 s.hostMem a := by
  unfold post
  split
  · rfl
  split
  · rw [mailboxWrite, (raise_reports _ _).hostMem]
  split
  · rfl
  split
  · rfl
  · rw [cqWrite_hostMem, SMap.get_putAll _ _ _ _ h, entBytes_length, if_neg (by omega)]

/-- A completion for the mailbox writes no host memory. -/
theorem post_hostMem_mailbox (c : Cpl) (timed : Bool) (s : State) : (post 8 c timed s).hostMem = s.hostMem := by
  unfold post
  split
  · rfl
  · rw [if_pos rfl, mailboxWrite, (raise_reports _ _).hostMem]

theorem decide_hostMem_outside {s : State} (h : SMap.wf (0 : Byte) s.hostMem = true) (op crc : Nat) (p : Packet) (c : Cpl)
    (timed : Bool) {a : Nat} (ha : a < entryAddr s p.q.val ∨ entryAddr s p.q.val + 32 ≤ a) :
    SMap.get 0 (decide_ op crc p c timed s).hostMem a = SMap.get 0 s.hostMem a := by
  have hm := cacheAdd_hostMem (packetKey p) crc c s
  have hq := cacheAdd_getQ (packetKey p) crc c s p.q.val
  rw [decide_, ← hm]
  refine post_hostMem_outside (by rwa [hm]) _ _ _ ?_
  rwa [entryAddr, hq]

theorem decide_hostMem_mailbox {p : Packet} (hp : p.q.val = 8) (op crc : Nat) (c : Cpl) (timed : Bool) (s : State) :
    (decide_ op crc p c timed s).hostMem = s.hostMem := by
  rw [decide_, hp, post_hostMem_mailbox, cacheAdd_hostMem]

/-- A refusal counts and then posts its completion, deciding it or not. -/
theorem refuse_hostMem_outside {s : State} (h : SMap.wf (0 : Byte) s.hostMem = true) (op : Nat) (p : Packet) (r : Refuse)
    {a : Nat} (ha : a < entryAddr s p.q.val ∨ entryAddr s p.q.val + 32 ≤ a) :
    SMap.get 0 (refuse op p r s).hostMem a = SMap.get 0 s.hostMem a := by
  have hr : Reports s (bump (8 + r.step) (countSlotFit r.st r.detail s)) :=
    (countSlotFit_reports _ _ s).trans (bump_reports _ _)
  unfold refuse
  dsimp only
  generalize bump (8 + r.step) (countSlotFit r.st r.detail s) = t at hr
  have ht : SMap.wf (0 : Byte) t.hostMem = true := by rwa [hr.hostMem]
  have hat : a < entryAddr t p.q.val ∨ entryAddr t p.q.val + 32 ≤ a := by rwa [entryAddr, hr.getQ]
  rw [← hr.hostMem]
  split
  · exact decide_hostMem_outside ht _ _ _ _ _ hat
  · exact post_hostMem_outside ht _ _ _ hat

/-- What a state shares with the one before it outside queues, cache, events, counters and host memory. -/
theorem Posts.frame {s t : State} (h : Posts s t) :
    s = { t with cmd := s.cmd, ev := s.ev, obs := s.obs, satTick := s.satTick, hostMem := s.hostMem } ∧
    t.cmd.sess = s.cmd.sess ∧ t.cmd.entries = s.cmd.entries ∧ t.cmd.sols = s.cmd.sols ∧ t.cmd.opens = s.cmd.opens ∧
    t.cmd.newest = s.cmd.newest ∧ t.ev.en = s.ev.en ∧ t.ev.mask = s.ev.mask ∧ t.ev.vec = s.ev.vec := by
  have hc := h.cmd
  exact ⟨h.rest, (congrArg Cmd.sess hc).symm, (congrArg Cmd.entries hc).symm, (congrArg Cmd.sols hc).symm,
    (congrArg Cmd.opens hc).symm, (congrArg Cmd.newest hc).symm, h.en, h.mask, h.vec⟩

/-- Settles O16: each of the four operations is one that posts, and writes at most the entry of its queue. -/
theorem refusalFrame : Obligations.RefusalFrame := by
  intro op p r q c timed e n k s h
  have frame : ∀ x : State × Nat, Posts s x.1 →
      (∀ a, a < entryAddr s x.2 ∨ entryAddr s x.2 + 32 ≤ a → SMap.get 0 x.1.hostMem a = SMap.get 0 s.hostMem a) → _ :=
    fun x hp ha => (⟨hp.frame.1, ha, hp.frame.2⟩ : _ ∧ _ ∧ _)
  refine ⟨(raise_reports e s).hostMem, (bumpBy_reports n k s).hostMem, fun x hx => ?_⟩
  simp only [List.mem_cons, List.not_mem_nil, or_false] at hx
  rcases hx with rfl | rfl | rfl | rfl
  · exact frame (_, _) (refuse_posts op p r s) fun a ha => refuse_hostMem_outside h op p r ha
  · exact frame (_, _) (post_posts q c timed s) fun a ha => post_hostMem_outside h q c timed ha
  · exact frame (_, _) (raise_reports e s).posts fun a _ => by rw [(raise_reports e s).hostMem]
  · exact frame (_, _) (bumpBy_reports n k s).posts fun a _ => by rw [(bumpBy_reports n k s).hostMem]

/-! ## Answers (R78, R90) -/

/-- Two states that differ at most in the command protocol, events, counters and host memory. -/
def OutsideProtocol (s t : State) : Prop :=
  s = { t with cmd := s.cmd, ev := s.ev, obs := s.obs, satTick := s.satTick, hostMem := s.hostMem }

theorem OutsideProtocol.trans {s t u : State} (h : OutsideProtocol s t) (k : OutsideProtocol t u) :
    OutsideProtocol s u := by
  unfold OutsideProtocol at *
  rw [k] at h
  exact h

theorem putResult_outside (p : Packet) (bs : Bytes) (s : State) : OutsideProtocol s (putResult p bs s).2 := by
  unfold putResult
  split <;> rfl

theorem answer_status (i : CmdInfo) (p : Packet) (st d x : Nat) (s : State) :
    answer i p (.st st d x) s = decide_ i.op (packetCrc i.op p) p (cplOf s i.op p st d x) false s := rfl

theorem answer_tooLong {i : CmdInfo} {p : Packet} {bs : Bytes} (h : fld (paramBytes p) 8 4 < bs.length) (s : State) :
    answer i p (.data bs) s =
      decide_ i.op (packetCrc i.op p) p (cplOf s i.op p 0x12 bs.length 0) false s := by
  simp only [answer, replyCpl, if_pos h]

theorem answer_data {i : CmdInfo} {p : Packet} {bs : Bytes} (h : bs.length ≤ fld (paramBytes p) 8 4) (s : State) :
    answer i p (.data bs) s = decide_ i.op (packetCrc i.op p) p
      { cplOf (putResult p bs s).2 i.op p 0 bs.length (putResult p bs s).1 with resultPtr := true } false
      (putResult p bs s).2 := by
  simp only [answer, replyCpl, if_neg (Nat.not_lt.2 h)]

/-- An answer that stays open leaves its command open and may report the in-flight limit. -/
theorem answer_wait_reports (i : CmdInfo) (p : Packet) (s : State) :
    ∃ o, Reports { s with cmd := { s.cmd with opens := s.cmd.opens ++ [o] } } (answer i p .wait s) :=
  ⟨_, raiseIf_reports _ _ _⟩

theorem answer_wait_hostMem (i : CmdInfo) (p : Packet) (s : State) : (answer i p .wait s).hostMem = s.hostMem := by
  obtain ⟨o, h⟩ := answer_wait_reports i p s
  exact h.hostMem

theorem answer_outside (i : CmdInfo) (p : Packet) (r : Reply) (s : State) : OutsideProtocol s (answer i p r s) := by
  cases r with
  | st st d x => exact (decide_posts i.op _ _ _ _ s).rest
  | wait =>
    obtain ⟨o, h⟩ := answer_wait_reports i p s
    have h0 : OutsideProtocol s { s with cmd := { s.cmd with opens := s.cmd.opens ++ [o] } } := rfl
    exact h0.trans h.posts.rest
  | data bs =>
    by_cases h : fld (paramBytes p) 8 4 < bs.length
    · rw [answer_tooLong h]
      exact (decide_posts _ _ _ _ _ s).rest
    · rw [answer_data (Nat.not_lt.1 h)]
      exact (putResult_outside p bs s).trans (decide_posts _ _ _ _ _ _).rest

/-- A result for a queue of host memory is written where its descriptor says (R78). -/
theorem putResult_hostMem {p : Packet} (hp : p.q.val < 8) (bs : Bytes) (s : State) :
    (putResult p bs s).2.hostMem = SMap.putAll (0 : Byte) s.hostMem (fld (paramBytes p) 0 8) bs := by
  rw [putResult, if_neg (by omega)]
  rfl

theorem putResult_mailbox {p : Packet} (hp : p.q.val = 8) (bs : Bytes) (s : State) :
    (putResult p bs s).2.hostMem = s.hostMem := by
  rw [putResult, if_pos hp]

theorem entryAddr_putResult (p : Packet) (bs : Bytes) (s : State) (q : Nat) :
    entryAddr (putResult p bs s).2 q = entryAddr s q := by
  unfold putResult
  split <;> rfl

theorem answer_hostMem_mailbox {p : Packet} (hp : p.q.val = 8) (i : CmdInfo) (r : Reply) (s : State) :
    (answer i p r s).hostMem = s.hostMem := by
  cases r with
  | st st d x => rw [answer_status, decide_hostMem_mailbox hp]
  | wait => exact answer_wait_hostMem i p s
  | data bs =>
    by_cases h : fld (paramBytes p) 8 4 < bs.length
    · rw [answer_tooLong h, decide_hostMem_mailbox hp]
    · rw [answer_data (Nat.not_lt.1 h), decide_hostMem_mailbox hp, putResult_mailbox hp]

/-- A result that fits goes to its buffer, byte by byte; around it and the completion's entry nothing changes. -/
theorem answer_hostMem_data {s : State} (h : SMap.wf (0 : Byte) s.hostMem = true) {p : Packet} (hp : p.q.val < 8)
    {bs : Bytes} (hb : bs.length ≤ fld (paramBytes p) 8 4) (i : CmdInfo) {a : Nat}
    (ha : a < entryAddr s p.q.val ∨ entryAddr s p.q.val + 32 ≤ a) :
    SMap.get 0 (answer i p (.data bs) s).hostMem a =
      if fld (paramBytes p) 0 8 ≤ a ∧ a < fld (paramBytes p) 0 8 + bs.length then
        bs.getD (a - fld (paramBytes p) 0 8) 0 else SMap.get 0 s.hostMem a := by
  have hm := putResult_hostMem hp bs s
  have hw : SMap.wf (0 : Byte) (putResult p bs s).2.hostMem = true := by
    rw [hm]
    exact SMap.wf_putAll _ _ _ _ h
  rw [answer_data hb, decide_hostMem_outside hw _ _ _ _ _ (by rwa [entryAddr_putResult]), hm,
    SMap.get_putAll _ _ _ _ h]

/-- An answer without a result that fits writes no host memory but its completion's entry. -/
theorem answer_hostMem_noData {s : State} (h : SMap.wf (0 : Byte) s.hostMem = true) {p : Packet} {r : Reply}
    (hr : ∀ bs, r = .data bs → fld (paramBytes p) 8 4 < bs.length) (i : CmdInfo) {a : Nat}
    (ha : a < entryAddr s p.q.val ∨ entryAddr s p.q.val + 32 ≤ a) :
    SMap.get 0 (answer i p r s).hostMem a = SMap.get 0 s.hostMem a := by
  cases r with
  | st st d x => rw [answer_status, decide_hostMem_outside h _ _ _ _ _ ha]
  | wait => rw [answer_wait_hostMem]
  | data bs =>
    rw [answer_tooLong (hr bs rfl)]
    exact decide_hostMem_outside h _ _ _ _ _ ha

/-- Settles O15. -/
theorem answerFrame : Obligations.AnswerFrame := by
  intro i p r s h
  refine ⟨answer_outside i p r s, fun hp => answer_hostMem_mailbox hp i r s, fun a ha hr => answer_hostMem_noData h hr i ha,
    fun bs a hr hp hb ha => ?_⟩
  subst hr
  exact answer_hostMem_data h hp hb i ha

/-! ## Completions in their queue (R71, R518) -/

/-- A queue after completion `c` is written into it at time `now`, before any signal. -/
def Queue.written (c : Cpl) (now : Nat) (u : Queue) : Queue :=
  { u with
    ring := SMap.put none u.ring u.cqTail (some { cpl := c, phase := u.phase, sqHead := u.sqHead }),
    cqTail := (u.cqTail + 1) % 2 ^ u.cqLog2,
    phase := if u.cqTail + 1 = 2 ^ u.cqLog2 then !u.phase else u.phase,
    unsignalled := u.unsignalled + 1,
    coalStart := if u.unsignalled = 0 then some now else u.coalStart }

/-- What a signal clears in a queue. -/
def Queue.signalled (u : Queue) : Queue := { u with unsignalled := 0, coalStart := none }

theorem cqSignal_cmd (q : Nat) (s : State) : (cqSignal q s).cmd = (updQ q Queue.signalled s).cmd :=
  (signal_reports _ _).cmd

/-- Writing a completion changes the command protocol's state in its queue alone. -/
theorem cqWrite_cmd (q : Nat) (c : Cpl) (s : State) :
    (cqWrite q c s).cmd = (updQ q (Queue.written c s.elapsed) s).cmd ∨
    (cqWrite q c s).cmd = (updQ q Queue.signalled (updQ q (Queue.written c s.elapsed) s)).cmd := by
  unfold cqWrite
  dsimp only
  rw [(raiseIf_reports _ _ _).cmd]
  split
  · rw [cqSignal_cmd]
    exact .inr rfl
  · exact .inl rfl

theorem updQ_cache (q : Nat) (f : Queue → Queue) (s : State) : (updQ q f s).cmd.cache = s.cmd.cache := rfl

theorem updQ_held (q : Nat) (f : Queue → Queue) (s : State) : (updQ q f s).cmd.held = s.cmd.held := rfl

theorem cqWrite_cache (q : Nat) (c : Cpl) (s : State) : (cqWrite q c s).cmd.cache = s.cmd.cache := by
  rcases cqWrite_cmd q c s with h | h <;> rw [h] <;> rfl

theorem cqWrite_held (q : Nat) (c : Cpl) (s : State) : (cqWrite q c s).cmd.held = s.cmd.held := by
  rcases cqWrite_cmd q c s with h | h <;> rw [h] <;> rfl

theorem getQ_cqWrite_other {q q' : Nat} (hq : q' ≠ q) (c : Cpl) {s : State} (hl : q < s.cmd.queues.length) :
    getQ (cqWrite q c s) q' = getQ s q' := by
  have h2 : q < (updQ q (Queue.written c s.elapsed) s).cmd.queues.length := by
    rw [updQ, lmod_length]
    exact hl
  rcases cqWrite_cmd q c s with h | h <;> rw [getQ, h] <;> change getQ _ q' = _
  · rw [getQ_updQ _ _ _ _ hl, if_neg hq]
  · rw [getQ_updQ _ _ _ _ h2, if_neg hq, getQ_updQ _ _ _ _ hl, if_neg hq]

/-- A signal leaves a queue's positions, phase and ring as the write has made them. -/
theorem getQ_cqWrite_same {q : Nat} (c : Cpl) {s : State} (hl : q < s.cmd.queues.length) :
    (getQ (cqWrite q c s) q).cqTail = ((getQ s q).cqTail + 1) % 2 ^ (getQ s q).cqLog2 ∧
    (getQ (cqWrite q c s) q).cqHead = (getQ s q).cqHead ∧
    (getQ (cqWrite q c s) q).phase =
      (if (getQ s q).cqTail + 1 = 2 ^ (getQ s q).cqLog2 then !(getQ s q).phase else (getQ s q).phase) ∧
    (getQ (cqWrite q c s) q).ring = SMap.put none (getQ s q).ring (getQ s q).cqTail
      (some { cpl := c, phase := (getQ s q).phase, sqHead := (getQ s q).sqHead }) := by
  have h2 : q < (updQ q (Queue.written c s.elapsed) s).cmd.queues.length := by
    rw [updQ, lmod_length]
    exact hl
  have e : getQ (cqWrite q c s) q = (getQ s q).written c s.elapsed ∨
      getQ (cqWrite q c s) q = ((getQ s q).written c s.elapsed).signalled := by
    rcases cqWrite_cmd q c s with h | h <;> rw [getQ, h]
    · left
      change getQ (updQ q _ s) q = _
      rw [getQ_updQ _ _ _ _ hl, if_pos rfl]
    · right
      change getQ (updQ q _ (updQ q _ s)) q = _
      rw [getQ_updQ _ _ _ _ h2, if_pos rfl, getQ_updQ _ _ _ _ hl, if_pos rfl]
  rcases e with e | e <;> rw [e] <;> exact ⟨rfl, rfl, rfl, rfl⟩

theorem post_held {s : State} {q : Nat} (h : s.sys.fwRunning = false ∨ q ≠ 8 ∧ (getQ s q).enabled = true ∧
    (s.cmd.held.any (·.q == q) || cqFull s q) = true) (c : Cpl) (timed : Bool) :
    post q c timed s = holdCpl q c timed s := by
  unfold post
  rcases h with h | ⟨h8, he, hw⟩
  · rw [h]
    rfl
  · rw [if_neg h8, he, hw]
    cases s.sys.fwRunning <;> rfl

theorem post_disabled {s : State} {q : Nat} (hf : s.sys.fwRunning = true) (h8 : q ≠ 8) (he : (getQ s q).enabled = false)
    (c : Cpl) (timed : Bool) : post q c timed s = s := by
  rw [post, hf, if_neg h8, he]
  rfl

theorem post_writes {s : State} {q : Nat} (hf : s.sys.fwRunning = true) (h8 : q ≠ 8) (he : (getQ s q).enabled = true)
    (hw : (s.cmd.held.any (·.q == q) || cqFull s q) = false) (c : Cpl) (timed : Bool) :
    post q c timed s = cqWrite q c s := by
  rw [post, hf, if_neg h8, he, hw]
  rfl

/-- Does something keep a completion of queue `q` from being written: earlier ones that wait, or no free entry? -/
theorem waits_iff (s : State) (q : Nat) : (s.cmd.held.any (·.q == q) || cqFull s q) = true ↔
    (∃ h ∈ s.cmd.held, h.q = q) ∨ ((getQ s q).cqTail + 1) % 2 ^ (getQ s q).cqLog2 = (getQ s q).cqHead := by
  simp only [Bool.or_eq_true, List.any_eq_true, beq_iff_eq, cqFull]

/-- Settles O59: held, dropped or written, as `post` decides. -/
theorem completionsWriteInOrder : Obligations.CompletionsWriteInOrder := by
  intro q c timed s hq hl hr hm
  have h8 : q ≠ 8 := by omega
  have hlen : q < s.cmd.queues.length := by omega
  dsimp only
  refine ⟨fun h => ?_, fun hf he => post_disabled hf h8 he c timed, fun hf he hheld hfull => ?_⟩
  · rw [post_held (h.imp_right fun ⟨he, hw⟩ => ⟨h8, he, (waits_iff s q).2 hw⟩)]
    rfl
  have hw : (s.cmd.held.any (·.q == q) || cqFull s q) = false := by
    rw [Bool.eq_false_iff, Ne, waits_iff]
    rintro (⟨x, hx, e⟩ | e)
    · exact hheld x hx e
    · exact hfull e
  rw [post_writes hf h8 he hw]
  obtain ⟨htail, hhead, hphase, hring⟩ := getQ_cqWrite_same c hlen
  refine ⟨cqWrite_held q c s, htail, hhead, hphase, fun i => ?_, fun a => ?_, fun q' h => getQ_cqWrite_other h c hlen⟩
  · rw [hring, SMap.get_put _ _ _ _ hr]
  · rw [cqWrite_hostMem, SMap.get_putAll _ _ _ _ hm, entBytes_length]
    rfl

/-! ## The completion cache (R84) -/

theorem post_cache (q : Nat) (c : Cpl) (timed : Bool) (s : State) : (post q c timed s).cmd.cache = s.cmd.cache := by
  unfold post
  split
  · rfl
  split
  · rw [mailboxWrite, (raise_reports _ _).cmd]
  split
  · rfl
  split
  · rfl
  · exact cqWrite_cache q c s

theorem decide_cache (op crc : Nat) (p : Packet) (c : Cpl) (timed : Bool) (s : State) :
    (decide_ op crc p c timed s).cmd.cache = if c.status = 0x32 then s.cmd.cache else
      ({ key := packetKey p, crc := crc, cpl := c } :: s.cmd.cache).take 4096 := by
  rw [decide_, post_cache, cacheAdd]
  split <;> rfl

/-- Settles O58: a posted completion leaves the cache as `cacheAdd` has made it. -/
theorem completionCache : Obligations.CompletionCache := by
  intro p op c timed s hl
  dsimp only
  refine ⟨fun h => (decide_cache ..).trans (if_pos h), fun h => ?_⟩
  have e := (decide_cache op (packetCrc op p) p c timed s).trans (if_neg h)
  rw [List.take_succ_cons] at e
  refine ⟨e, ?_, ?_⟩
  · rw [e, List.length_cons, List.length_take]
    omega
  · have hfind : (decide_ op (packetCrc op p) p c timed s).cmd.cache.find? (·.key == packetKey p) =
        some { key := packetKey p, crc := packetCrc op p, cpl := c } := by
      rw [e, List.find?_cons_of_pos]
      exact beq_self_eq_true _
    rw [dupOf_cached hfind, if_pos rfl]

end Sys2Proof.Machine
end

section
/-! SUPPORT. Proofs about timed commands (R50 to R55, R61): what of an accepted command's state the acceptance leaves, and
that a command whose checks pass takes its entry of the timed-action table. -/
namespace Sys2Proof.Machine

/-! ## Acceptance -/

/-- Acceptance counts the command and its place in the order, and changes nothing else. -/
theorem accept_frame (p : Packet) (s : State) : s =
    { accept p s with cmd := s.cmd, ev := s.ev, obs := s.obs, satTick := s.satTick } := by
  have h := bump_reports p.q.val s
  have e := h.rest
  rw [h.cmd] at e
  exact e

theorem accept_dm (p : Packet) (s : State) : (accept p s).dm = s.dm :=
  (congrArg State.dm (accept_frame p s)).symm

/-! ## Timed commands -/

/-- A COMMIT whose set passes its checks and is placed seals the open shadow into an entry (R45). -/
theorem commit_scheduled {p : Packet} {s t : State} {recs : SMap Bytes} {T x : Nat} {cls : ChangeClass} {late : Bool}
    (h : Ready infoCommit p s t) (hr : recs = shadowOf t p.q.val) (hp : placeSet t p recs = (T, cls))
    (hc : checkSet t (tableApply (viewAt t T fun _ => true) recs) recs = none) (ht : Placed cls p t x late) :
    exec (.commit p) s =
      .next (settle (clearShadow p.q.val (scheduled 0x0012 p (.commit recs) cls x late t))) := by
  subst hr
  refine (h.taken.command_eq ?_ _).trans ?_
  · have hk := h.checks_eq (chk := fun s => checkSet s (tableApply (viewAt t T fun _ => true) (shadowOf t p.q.val))
      (shadowOf t p.q.val)) hc
    simp only [hp, firstOf_cons, firstOf_nil, hk, ht.checkTimed_eq, and_self]
  · simp only [hp, ht.schedule_eq]

/-- A SOLSTICE_ARM of a prepared Solstice that the session holds takes an entry of the Solstice's class (R61). -/
theorem solsticeArm_scheduled {p : Packet} {s t : State} {y : Solstice} {x : Nat} {late : Bool}
    (h : Ready infoSolsticeArm p s t) (hf : findSol t (byteAt (paramBytes p) 0) = some y) (ho : y.owner = some p.q.val)
    (hs : y.st = .prepared) (ht : Placed y.cls p t x late) :
    exec (.solsticeArm p) s = .next (settle (setSol (byteAt (paramBytes p) 0) .armed
      (scheduled 0x0014 p (.solstice (byteAt (paramBytes p) 0)) y.cls x late t))) := by
  refine (h.taken.command_eq ?_ _).trans ?_
  · have hk : checks infoSolsticeArm p (fun s => firstOf [checkHandle (byteAt (paramBytes p) 0) p.q.val s,
        checkPrepared (byteAt (paramBytes p) 0) s]) t = none := by
      refine h.checks_eq ?_
      simp only [firstOf_cons, firstOf_nil, checkHandle_of_find hf ho, checkPrepared_of_state hf hs, and_self]
    simp only [firstOf_cons, firstOf_nil, hk, solClass_of_find hf, ht.checkTimed_eq, and_self]
  · simp only [solClass_of_find hf, ht.schedule_eq]

/-- A DM_CALL_BIND that passes its checks binds, whether or not the call has come (R337). -/
theorem dmCallBind_binds {p : Packet} {s t : State} {y : Solstice} (h : Ready infoDmCallBind p s t)
    (hf : findSol t (byteAt (paramBytes p) 0) = some y) (ho : y.owner = some p.q.val) (hs : y.st = .prepared)
    (h1 : byteAt (paramBytes p) 1 = 0) (hl : t.tick + 8 ≤ fld (paramBytes p) 8 8)
    (hu : fld (paramBytes p) 8 8 - t.tick ≤ 2 ^ 32) : exec (.dmCallBind p) s = .next (settle (bindNow p t)) := by
  refine h.taken.command_eq ?_ _
  have hk : checks infoDmCallBind p (fun s => firstOf [checkHandle (byteAt (paramBytes p) 0) p.q.val s,
      need ((findSol s (byteAt (paramBytes p) 0)).map (·.st) == some .prepared) (badParam 0),
      need (byteAt (paramBytes p) 1 == 0) (badParam 1)]) t = none := by
    refine h.checks_eq ?_
    simp [firstOf_cons, firstOf_nil, need_eq_none, checkHandle_of_find hf ho, hf, hs, h1]
  have hlim : checkLimit_ p t = none := by
    simp only [checkLimit_, firstOf_cons, firstOf_nil, need_eq_none, decide_eq_true_eq, hl, hu, and_self]
  simp only [firstOf_cons, firstOf_nil, hk, hlim, and_self]

/-- The binding that a DM_CALL_BIND asks for. -/
def bindOf (p : Packet) : Bind :=
  { p := p, crc := packetCrc 0x0B08 p, handle := byteAt (paramBytes p) 0, origin := fld (paramBytes p) 2 2,
    number := fld (paramBytes p) 4 4, limit := fld (paramBytes p) 8 8 }

theorem bindNow_waits {p : Packet} {t : State} (hm : t.dm.member = true)
    (hc : t.dm.calls.find? (bindMatches (bindOf p)) = none) :
    bindNow p t = checkInFlight (updDm (fun d => { d with binds := d.binds ++ [bindOf p] }) (accept p t)) := by
  rw [bindNow]
  simp only [accept_dm, hm, Bool.not_true, Bool.false_eq_true, if_false, updDm_dm]
  rw [← bindOf, hc]

theorem bindNow_arms {p : Packet} {t : State} {c : Call} (hm : t.dm.member = true)
    (hc : t.dm.calls.find? (bindMatches (bindOf p)) = some c) :
    bindNow p t = armBind (bindOf p) c (updDm (fun d => { d with binds := d.binds ++ [bindOf p] }) (accept p t)) := by
  rw [bindNow]
  simp only [accept_dm, hm, Bool.not_true, Bool.false_eq_true, if_false, updDm_dm]
  rw [← bindOf, hc]

theorem rxCapture_timed {p : Packet} (ha : p.atTick ≠ 0) (s : State) :
    exec (.rxCapture p) s = runTimed infoRxCapture p (chkRxCapture p) (fun _ => .local_) s := if_neg ha

theorem nop_timed {p : Packet} (ha : p.atTick ≠ 0) (s : State) :
    exec (.nop 0 p) s = runTimed infoNop p (fun _ => none) (fun _ => .local_) s := by
  show execNop 0 p s = _
  simp only [execNop, ha, if_false]
  rfl

/-- Settles O17: each command's checks pass, and step 10 has placed it. -/
theorem timedCommandsSchedule : Obligations.TimedCommandsSchedule := by
  rintro p s t _ _ x late rfl rfl
  refine ⟨fun recs T cls h hr hp hc ht => commit_scheduled h hr hp hc ht,
    fun y h hf ho hs ht => solsticeArm_scheduled h hf ho hs ht, fun h hd ht => ?_, fun h hd ht => ?_, fun h hb ht => ?_,
    fun h hb ht => ?_, fun h ha h1 h2 h3 h4 ht => ?_, fun h hb ht => ?_, fun h h1 h2 ht => ?_,
    fun h h1 h2 h3 ht => ?_, fun h ht => ?_, fun h ha ht => ?_, fun y h hf ho hs h1 hl hu hm k hk => ?_⟩
  · rw [← stepClass_backward hd] at ht ⊢
    exact runTimed_ready h ((need_eq_none ..).2 (bne_iff_ne.2 (Int.ne_of_lt hd))) ht
  · have hc : stepClass p = .local_ := if_neg (Int.not_lt.2 (Int.le_of_lt hd))
    rw [← hc] at ht ⊢
    exact runTimed_ready h ((need_eq_none ..).2 (bne_iff_ne.2 (Int.ne_of_gt hd))) ht
  · exact runTimed_ready h ((need_eq_none ..).2 (decide_eq_true hb)) ht
  · exact runTimed_ready h ((need_eq_none ..).2 (decide_eq_true hb)) ht
  · rw [rxCapture_timed ha]
    exact runTimed_ready h (by simp [chkRxCapture, firstOf_cons, firstOf_nil, need_eq_none, h1, h2, h3, h4]) ht
  · exact runTimed_ready h ((need_eq_none ..).2 (decide_eq_true hb)) ht
  · exact runTimed_ready h (by simp only [firstOf_cons, firstOf_nil, need_eq_none, decide_eq_true_eq, h1, h2, and_self]) ht
  · have hn : fld (paramBytes p) 2 2 ≤ 2048 := by omega
    exact runTimed_ready h (by simp [chkObsClear, firstOf_cons, firstOf_nil, need_eq_none, h1, h2, h3, hn]) ht
  · exact runTimed_ready h rfl ht
  · rw [nop_timed ha]
    exact runTimed_ready h rfl ht
  · obtain rfl : k = bindOf p := hk
    rw [dmCallBind_binds h hf ho hs h1 hl hu]
    exact ⟨fun hc => by rw [bindNow_waits hm hc], fun c hc => by rw [bindNow_arms hm hc]⟩

end Sys2Proof.Machine
end

section
/-! SUPPORT. Proofs about the commands that read status: each runs to its layout and changes nothing but what acceptance
counts (R96 and the STATUS rows of every chapter). -/
namespace Sys2Proof.Machine

/-! ## Commands that run -/

/-- A command that passes the common checks and its own answers what its effect answers. -/
theorem runCmd_answers {i : CmdInfo} {p : Packet} {s t v : State} {r : Reply} (h : Ready i p s t)
    {chk : State → Option Refuse} (hc : chk t = none) {f : State → Reply × State} (hf : f (accept p t) = (r, v)) :
    runCmd i p chk f s = .next (settle (answer i p r v)) := by
  rw [runCmd_ready h hc, hf]

/-- A command of a pool that passes its checks answers what its effect answers. -/
theorem runPool_answers {i : CmdInfo} {p : Packet} {s t v : State} {r : Reply} (h : Ready i p s t)
    {chk : State → Option Refuse} (hc : chk t = none) {free : State → Bool} (hfree : free t = true)
    {f : State → Reply × State} (hf : f (accept p t) = (r, v)) :
    runPool i p chk free f s = .next (settle (answer i p r v)) := by
  rw [runPool_ready h hc hfree, hf]

/-- A list of checks passes when each one does. -/
@[simp] theorem firstOf_eq_none_iff {l : List (Option Refuse)} : firstOf l = none ↔ ∀ x ∈ l, x = none := by
  induction l with
  | nil => simp [firstOf]
  | cons o l ih => rw [firstOf_cons, ih, List.forall_mem_cons]

/-- A check of one condition passes. -/
theorem need_of {c : Bool} (h : c = true) (r : Refuse) : need c r = none := (need_eq_none c r).2 h

/-- A check that compares numbers passes. -/
theorem need_decide {q : Prop} [Decidable q] (h : q) (r : Refuse) : need (decide q) r = none :=
  need_of (decide_eq_true h) r

theorem whileOn_on {t : Nat} {s : State} (h : (getTen s t).st ≠ .off) (f : State → Reply × State) :
    whileOn t f s = f s := if_neg h

theorem whileOn_off {t : Nat} {s : State} (h : (getTen s t).st = .off) (f : State → Reply × State) :
    whileOn t f s = (.st stWrongState, s) := if_pos h

theorem membersOnly_member {s : State} (h : s.dm.member = true) (f : State → Reply × State) :
    membersOnly f s = f s := if_pos h

theorem needClient_on {i off : Nat} {t : State} (h : i ≤ 11) (ho : cliOn t i = true) : needClient i off t = none :=
  need_of (by rw [decide_eq_true h, ho]; rfl) _

/-- Settles O22. -/
theorem statusCommandsAnswer : Obligations.StatusCommandsAnswer := by
  rintro p s t _ _ _ _ rfl rfl rfl rfl
  refine ⟨fun h => runCmd_answers h rfl rfl, fun h => runCmd_answers h rfl rfl, fun h => runCmd_answers h rfl rfl,
    fun h => runCmd_answers h rfl rfl, fun h => runCmd_answers h rfl rfl, fun h => runCmd_answers h rfl rfl,
    fun h => runCmd_answers h rfl rfl, fun h => runCmd_answers h rfl rfl, fun h => runCmd_answers h rfl rfl,
    fun h => runCmd_answers h rfl rfl, fun h => runCmd_answers h rfl rfl, fun h => runCmd_answers h rfl rfl,
    fun h => runCmd_answers h rfl rfl, fun h => runCmd_answers h rfl rfl, fun h => runCmd_answers h rfl rfl,
    fun h => runCmd_answers h rfl rfl, fun h => runCmd_answers h rfl rfl, fun h => runCmd_answers h rfl rfl,
    fun h => runCmd_answers h rfl rfl,
    fun h hi ho => runCmd_answers h (needClient_on hi ho) rfl,
    fun h hi hon => runCmd_answers h (need_decide hi _) (whileOn_on hon _),
    fun h hi => runCmd_answers h (need_decide hi _) rfl,
    fun h hi => runCmd_answers h (need_decide hi _) rfl,
    fun h hi => runCmd_answers h (need_decide hi _) rfl,
    fun h hm hd => runCmd_answers h rfl ((membersOnly_member hm _).trans (if_neg (by simpa using hd))),
    fun h hx => runCmd_answers h rfl (by simp only [hx]),
    fun x h hx => runCmd_answers h rfl (by simp only [hx]),
    fun h hi hoff => runCmd_answers h (need_decide hi _) (whileOn_off hoff _)⟩

end Sys2Proof.Machine
end

section
/-! SUPPORT. Proofs about the commands of sessions, parameters, Solstices, the timed list, firmware and presets, and of
timing (R96 to R100, R345 to R363). -/
namespace Sys2Proof.Machine

/-! ## Commands of the pipeline with checks of their own around the common ones -/

theorem nop_immediate {p : Packet} (ha : p.atTick = 0) (s : State) :
    exec (.nop 0 p) s = runCmd infoNop p (fun _ => none) (fun s => (.ok, s)) s := if_pos ha

theorem sessionOpen_answers {p : Packet} {s t : State} (h : Ready infoSessionOpen p s t)
    (hn : getSess t p.q.val = none) : exec (.sessionOpen p) s =
      .next (settle (answer infoSessionOpen p (.ok p.q.val) (setSess p.q.val (some {}) (accept p t)))) := by
  refine h.taken.command_eq ?_ _
  rw [firstOf_cons, firstOf_cons, h.checks_eq rfl, hn]
  exact ⟨rfl, rfl, rfl⟩

/-- The Solstice that a SOLSTICE_PREPARE makes of queue `q`'s open shadow (R60). -/
def preparedSol (q : Nat) (s : State) : Solstice :=
  { handle := freeHandle s, owner := some q, recs := shadowOf s q, cls := setClass s.params (shadowOf s q) }

theorem solsticePrepare_answers {p : Packet} {s t u : State} (hu : u = accept p t) (h : Ready infoSolsticePrepare p s t)
    (hc : checkSet t (tableApply t.params (shadowOf t p.q.val)) (shadowOf t p.q.val) = none)
    (hl : t.cmd.sols.length < 8) : exec (.solsticePrepare p) s = .next (settle (answer infoSolsticePrepare p
      (.ok (freeHandle u + 16 * classCode (preparedSol p.q.val u).cls +
        256 * (earliest (preparedSol p.q.val u).cls u.tick % 2 ^ 56)))
      (clearShadow p.q.val { u with cmd := { u.cmd with sols := u.cmd.sols ++ [preparedSol p.q.val u] } }))) := by
  subst hu
  refine h.taken.command_eq ?_ _
  have hk := h.checks_eq (chk := fun s => checkSet s (tableApply t.params (shadowOf t p.q.val)) (shadowOf t p.q.val)) hc
  rw [firstOf_cons, firstOf_cons]
  exact ⟨hk, need_decide hl _, rfl⟩

/-! ## PARAM_GET (R97, R98) -/

theorem paramGet_passes {p : Packet} {t : State} (h16 : byteAt (paramBytes p) 16 ≤ 1)
    (h17 : rsv (paramBytes p) 17 20 = true)
    (he : ∀ o ∈ entryOffs (paramBytes p), checkEntry (expertOf t p.q.val) (paramBytes p) o = none) :
    firstOf ([need (byteAt (paramBytes p) 16 ≤ 1) (badParam 16), need (rsv (paramBytes p) 17 20) (badParam 17)]
      ++ (entryOffs (paramBytes p)).map (checkEntry (expertOf t p.q.val) (paramBytes p))) = none := by
  rw [firstOf_append, firstOf_cons, firstOf_cons]
  exact ⟨⟨need_decide h16 _, need_of h17 _, rfl⟩, firstOf_map_none _ _ he⟩

/-! ## FW_UPDATE (R99) -/

theorem fwUpdate_passes {b : Bytes} (h1 : fld b 8 4 + fld b 12 4 ≤ 0x400000) (h2 : 1 ≤ fld b 12 4)
    (h3 : fld b 12 4 ≤ 262144) (h4 : byteAt b 16 ≤ 1) :
    firstOf [need (fld b 8 4 + fld b 12 4 ≤ 0x400000) (badParam 8),
      need (1 ≤ fld b 12 4 && fld b 12 4 ≤ 262144) (badParam 12), need (byteAt b 16 ≤ 1) (badParam 16)] = none := by
  simp [need_eq_none, h1, h2, h3, h4]

/-! ## Results that are taken from the device only when they fit (R78) -/

theorem takeData_fits {p : Packet} {bs : Bytes} (h : bs.length ≤ fld (paramBytes p) 8 4) (s v : State) :
    takeData p bs s v = (.data bs, v) := by
  rw [takeData, if_neg (Nat.not_lt.2 h)]

theorem takeData_tooLong {p : Packet} {bs : Bytes} (h : fld (paramBytes p) 8 4 < bs.length) (s v : State) :
    takeData p bs s v = (.data bs, s) := by
  rw [takeData, if_pos h]

/-- Settles O23. -/
theorem sessionCommandsRun : Obligations.SessionCommandsRun := by
  rintro p s t _ _ _ rfl rfl rfl
  refine ⟨fun h ha => ?_, fun h hn => sessionOpen_answers h hn, fun h => runCmd_answers h rfl rfl,
    fun h hv => runCmd_answers h (need_decide hv _) rfl,
    fun h h16 h17 he => runCmd_answers h (paramGet_passes h16 h17 he) rfl,
    fun h hc => runCmd_answers h hc rfl,
    fun h hc hl => solsticePrepare_answers rfl h hc hl,
    fun y h hk hf hs => runCmd_answers h hk (by simp only [hf, hs]),
    fun y e h hk hf hs he => runCmd_answers h hk (by simp only [hf, hs, he]),
    fun h h0 => runCmd_answers h (need_decide (by omega) _) (by simp only [h0, if_true]),
    fun e h h1 hf hz => runCmd_answers h (need_decide (by omega) _) (by simp [h1, hf, hz]),
    ?_, fun h hw hv => runCmd_answers h (need_decide hw _) (if_neg (not_not_intro hv)),
    fun h hi => runCmd_answers h (need_decide hi _) rfl,
    fun h h1 h2 hl => runCmd_answers h (by simp [need_eq_none, h1, h2]) (takeData_fits hl _ _),
    fun y h hk hf hs ha => runCmd_answers h hk ?_,
    fun h h1 hf => runCmd_answers h (need_decide (by omega) _) (by simp [h1, hf]),
    fun e h h1 hf hz => runCmd_answers h (need_decide (by omega) _) (by simp [h1, hf, hz]),
    fun chunk h h1 h2 h3 h4 hb => runCmd_answers h (fwUpdate_passes h1 h2 h3 h4) (if_pos hb),
    fun chunk h h1 h2 h3 h4 hb h0 hn => runCmd_answers h (fwUpdate_passes h1 h2 h3 h4) ?_,
    fun chunk h h1 h2 h3 h4 hb h0 hn => runCmd_answers h (fwUpdate_passes h1 h2 h3 h4) ?_,
    fun h hw hv => runCmd_answers h (need_decide hw _) (if_pos hv),
    fun h h1 h2 hl => runCmd_answers h (by simp [need_eq_none, h1, h2]) (takeData_tooLong hl _ _)⟩
  · rw [nop_immediate ha]
    exact runCmd_answers h rfl rfl
  · rintro chunk v h h1 h2 h3 h4 hlen hby hnext rfl
    refine runCmd_answers h (fwUpdate_passes h1 h2 h3 h4) ?_
    have hany : ((accept p t).flash.updateBy.any (· != p.q.val)) = false := by
      rcases hby with e | e <;> simp [e]
    have hseq : ¬(fld (paramBytes p) 8 4 ≠ 0 ∧ ((accept p t).flash.updateBy.isNone = true ∨
        (accept p t).flash.updateNext ≠ fld (paramBytes p) 8 4)) := by
      rintro ⟨h0, hbad⟩
      rcases hnext with e | ⟨e, e'⟩
      · exact h0 e
      · simp [e, e'] at hbad
    rw [hany, if_neg (by simp), if_neg hseq, if_neg (not_not_intro hlen)]
    rfl
  · simp only [hf]
    cases hst : y.st with
    | prepared => exact absurd hst hs
    | armed => simp only [ha hst]
    | frozen => rfl
  · rw [hb, if_neg (by simp), if_pos ⟨h0, hn.imp_left fun e => by rw [e]; rfl⟩]
  · have hseq : ¬(fld (paramBytes p) 8 4 ≠ 0 ∧ ((accept p t).flash.updateBy.isNone = true ∨
        (accept p t).flash.updateNext ≠ fld (paramBytes p) 8 4)) := by
      rintro ⟨h0', hbad⟩
      rcases h0 with e | ⟨e, e'⟩
      · exact h0' e
      · simp [Option.isNone_iff_eq_none, e, e'] at hbad
    rw [hb, if_neg (by simp), if_neg hseq, if_pos hn]

/-! ## Timing commands (R345 to R363) -/

theorem tmPriority_passes {b : Bytes} (h : ∀ i, i < 9 → byteAt b i ≤ 15) :
    firstOf ((List.range 9).map fun i => need (byteAt b i ≤ 15) (badParam i)) = none :=
  firstOf_map_none _ _ fun i hi => need_decide (h i (List.mem_range.1 hi)) _

/-- Settles O24. -/
theorem timingCommandsRun : Obligations.TimingCommandsRun := by
  rintro p s t _ _ rfl rfl
  refine ⟨fun h h0 h1 h2 hq => runCmd_answers h ?_ (if_neg fun ⟨e, l, z⟩ => hq e l z),
    fun h hp => runCmd_answers h (tmPriority_passes hp) rfl,
    fun h ha hs hl => runCmd_answers h (need_decide ha _) ?_,
    fun h h1 h2 h3 => runCmd_answers h rfl (if_neg ?_),
    fun h hv hp => runCmd_answers h (need_decide hv _) (if_neg fun ⟨e, z⟩ => hp e z),
    fun h h0 h1 h2 hz => runCmd_answers h ?_ (if_pos ⟨h0, h1, hz⟩),
    fun n h ha hs hp => runCmd_answers h (need_decide ha _) ?_,
    fun h ha hs hl => runCmd_answers h (need_decide ha _) ?_,
    fun h hb => runCmd_answers h rfl (if_pos ?_),
    fun h h1 hz => runCmd_answers h (need_decide (by omega) _) (if_pos ⟨h1, hz⟩)⟩
  · simp [need_eq_none, h0, h1, h2]
  · refine (if_neg ?_).trans (if_neg (Nat.not_lt.2 hl))
    split
    next r e => rw [hs r e]; decide
    · decide
  · simp only [Bool.or_eq_true, decide_eq_true_eq]
    omega
  · simp [need_eq_none, h0, h2, show byteAt (paramBytes p) 1 ≤ 8 by omega]
  · simp only [hs, hp, if_true]
  · refine (if_neg ?_).trans (if_pos hl)
    split
    next r e => rw [hs r e]; decide
    · decide
  · simp only [Bool.or_eq_true, decide_eq_true_eq]
    omega

end Sys2Proof.Machine
end

section
/-! SUPPORT. Proofs about the commands of the lines, of keys and of Whisper (chapters 04 to 10). -/
namespace Sys2Proof.Machine

/-! ## Commands of the lines -/

theorem rxCapture_immediate {p : Packet} (ha : p.atTick = 0) (s : State) : exec (.rxCapture p) s =
    runCmd infoRxCapture p (chkRxCapture p) (fun s => (.wait, captureOpen p s)) s := if_pos ha

theorem chkRxCapture_passes {p : Packet} {t : State} (h1 : byteAt (paramBytes p) 16 ≤ 2)
    (h2 : rsv (paramBytes p) 17 20 = true) (h3 : 1 ≤ fld (paramBytes p) 20 4) (h4 : fld (paramBytes p) 20 4 ≤ 65536) :
    chkRxCapture p t = none := by
  simp [chkRxCapture, need_eq_none, h1, h2, h3, h4]

theorem cliTsRead_passes {b : Bytes} {t : State} (h1 : byteAt b 16 ≤ 11) (h2 : cliOn t (byteAt b 16) = true)
    (h3 : byteAt b 17 ≤ 1) (h4 : 1 ≤ fld b 18 2) (h5 : fld b 18 2 ≤ 64) :
    firstOf [needClient (byteAt b 16) 16 t, need (byteAt b 17 ≤ 1) (badParam 17),
      need (1 ≤ fld b 18 2 && fld b 18 2 ≤ 64) (badParam 18)] = none := by
  simp [need_eq_none, needClient_on h1 h2, h3, h4, h5]

theorem clientBitslip_passes {b : Bytes} {t : State} (h1 : byteAt b 0 ≤ 11) (h2 : cliOn t (byteAt b 0) = true)
    (h3 : byteAt b 1 < cliK t (byteAt b 0)) (h4 : 1 ≤ byteAt b 2) (h5 : byteAt b 2 ≤ 65) :
    firstOf [needClient (byteAt b 0) 0 t, need (byteAt b 1 < cliK t (byteAt b 0)) (badParam 1),
      need (1 ≤ byteAt b 2 && byteAt b 2 ≤ 65) (badParam 2)] = none := by
  simp [need_eq_none, needClient_on h1 h2, h3, h4, h5]

theorem gccRecord_length (m : GccMsg) :
    (le 2 m.bytes.length ++ zeros 6 ++ le 8 m.tick ++ m.bytes).length = 16 + m.bytes.length := by
  simp only [List.length_append, le_length, zeros_length, Nat.reduceAdd]

/-- Settles O25. -/
theorem lineCommandsRun : Obligations.LineCommandsRun := by
  rintro p s t _ _ _ rfl rfl rfl
  refine ⟨fun h h1 h2 h3 h4 h5 h6 h7 h8 h9 h10 => runCmd_answers h ?_ rfl,
    fun h hl hf => runCmd_answers h rfl (by simp only [hl]; rfl),
    fun h ha h1 h2 h3 h4 => ?_,
    fun h hk hg => runCmd_answers h (need_decide hk _) (if_neg (by simp [hg])),
    fun h hp hl => runPool_answers h rfl (decide_eq_true hl) (if_neg hp),
    fun h hq => runCmd_answers h rfl (by simp only [hq]),
    fun m rest h hq hl => runCmd_answers h rfl (by
      simp only [hq]
      exact takeData_fits (by rwa [gccRecord_length]) _ _),
    fun h => runCmd_answers h rfl rfl,
    fun h h1 h2 h3 h4 h5 hl => runCmd_answers h (cliTsRead_passes h1 h2 (by omega) h4 h5) ?_,
    fun h h1 h2 h3 h4 h5 hl => runCmd_answers h (cliTsRead_passes h1 h2 (by omega) h4 h5) ?_,
    fun j h h1 h2 h3 h4 h5 hp hj => runCmd_answers h (clientBitslip_passes h1 h2 h3 h4 h5) (by rw [if_neg hp, hj]),
    fun h hl => runCmd_answers h rfl (by simp only [hl]; rfl),
    fun h hk hg => runCmd_answers h (need_decide hk _) (if_pos hg),
    fun h hl hp => runPool_answers h rfl (decide_eq_true hl) (if_pos hp),
    fun h hl => runPool_full h rfl (decide_eq_false (Nat.not_lt.2 hl)) _,
    fun m rest h hq hl => runCmd_answers h rfl (by
      simp only [hq]
      exact takeData_tooLong (by rwa [gccRecord_length]) _ _),
    fun h h1 h2 h3 h4 h5 hp => runCmd_answers h (clientBitslip_passes h1 h2 h3 h4 h5) (if_pos hp),
    fun h h1 h2 h3 h4 h5 hp hj => runCmd_answers h (clientBitslip_passes h1 h2 h3 h4 h5) (by rw [if_neg hp, hj])⟩
  · by_cases hc : byteAt (paramBytes p) 20 = 2
    · obtain ⟨hk1, hk2⟩ := h6 hc
      simp [need_eq_none, capacityMode, h1, h2, h3, h5, hc, hk1, hk2, h7, h8, h9, h10]
    · simp [need_eq_none, capacityMode, h1, h2, h3, h4, h5, hc, h7, h8, h9, h10]
  · rw [rxCapture_immediate ha]
    exact runCmd_answers h (chkRxCapture_passes h1 h2 h3 h4) rfl
  · simp only [h3, if_true]
    exact takeData_fits hl _ _
  · simp only [h3, Nat.one_ne_zero, if_false]
    exact takeData_fits hl _ _

/-! ## Commands of keys (R258 to R285) -/

theorem keyInstall_passes {p : Packet} (h1 : byteAt (paramBytes p) 0 ≤ 25) (h2 : byteAt (paramBytes p) 1 ≤ 1)
    (h3 : rsv (paramBytes p) 2 4 = true) (h4 : rsv (paramBytes p) 12 16 = true) :
    firstOf [need ((pktInstall p).sa ≤ 25) (badParam 0), need (byteAt (paramBytes p) 1 ≤ 1) (badParam 1),
      need (rsv (paramBytes p) 2 4) (badParam 2), need (rsv (paramBytes p) 12 16) (badParam 12)] = none := by
  simp [need_eq_none, pktInstall, h1, h2, h3, h4]

theorem keStart_passes {b : Bytes} (h1 : fld b 4 4 < 2 ^ 26) (h2 : fld b 8 8 % 256 = 0) (h3 : byteAt b 16 ≤ 1)
    (h4 : rsv b 17 24 = true) :
    firstOf [need (fld b 4 4 < 2 ^ 26) (badParam 4), need (fld b 8 8 % 256 == 0) (badParam 8),
      need (byteAt b 16 ≤ 1) (badParam 16), need (rsv b 17 24) (badParam 17)] = none := by
  simp only [Nat.reducePow] at h1
  simp [need_eq_none, h1, h2, h3, h4]

theorem pkVerify_passes {b : Bytes} (h1 : byteAt b 0 = 4) (h2 : rsv b 97 100 = true) :
    firstOf [need (byteAt b 0 == 4) (badParam 0), need (rsv b 97 100) (badParam 97)] = none := by
  simp [need_eq_none, h1, h2]

theorem pkEcdh_passes {b : Bytes} (h1 : byteAt b 16 ≤ 1) (h2 : rsv b 17 24 = true)
    (h3 : byteAt b 16 = 1 ∨ byteAt b 72 = 4) :
    firstOf [need (byteAt b 16 ≤ 1) (badParam 16), need (rsv b 17 24) (badParam 17),
      need (byteAt b 16 == 1 || byteAt b 72 == 4) (badParam 72)] = none := by
  simp [need_eq_none, h1, h2, h3]

/-- Settles O26. -/
theorem keyCommandsRun : Obligations.KeyCommandsRun := by
  rintro p s t _ _ _ rfl rfl rfl
  refine ⟨fun h h1 h2 h3 h4 hi => runCmd_answers h (keyInstall_passes h1 h2 h3 h4) (by simp only [hi]),
    fun src h hl => runCmd_answers h rfl (if_neg (Nat.not_lt.2 hl)),
    fun h h1 h2 h3 h4 hs hp hx he => runCmd_answers h (keStart_passes h1 h2 h3 h4) ?_,
    fun x h hx => runCmd_answers h rfl (by simp only [hx]),
    fun h hx => runCmd_answers h rfl (if_neg (by simp [hx])),
    fun h h1 h2 hl => runPool_answers h (pkVerify_passes h1 h2) (decide_eq_true hl) rfl,
    fun h h1 h2 h3 hl => runPool_answers h (pkEcdh_passes h1 h2 h3) (decide_eq_true hl) rfl,
    fun h he => runCmd_answers h rfl (if_neg (Nat.not_lt.2 he)),
    fun h h1 h2 h3 h4 hi => runCmd_answers h (keyInstall_passes h1 h2 h3 h4) ?_,
    fun src h hl => runCmd_answers h rfl (if_pos hl),
    fun h h1 h2 h3 h4 hs => runCmd_answers h (keStart_passes h1 h2 h3 h4) (if_pos (by simpa using hs)),
    fun h h1 h2 h3 h4 hs hp hx => runCmd_answers h (keStart_passes h1 h2 h3 h4) ?_,
    fun h h1 h2 h3 h4 hs hp hx he => runCmd_answers h (keStart_passes h1 h2 h3 h4) ?_,
    fun h hx => runCmd_answers h rfl (by simp only [hx]),
    fun h hx => runCmd_answers h rfl (if_pos (Option.isSome_iff_ne_none.2 hx)),
    fun h h1 h2 hl => runPool_full h (pkVerify_passes h1 h2) (decide_eq_false (Nat.not_lt.2 hl)) _,
    fun h h1 h2 h3 hl => runPool_full h (pkEcdh_passes h1 h2 h3) (decide_eq_false (Nat.not_lt.2 hl)) _,
    fun h he => runCmd_answers h rfl (if_pos he)⟩
  · rw [if_neg (by simp [hs, hp]), if_neg (by simp [hx]), if_neg (Nat.not_le.2 he)]
  · split
    next e => exact absurd e hi
    · rfl
  · rw [if_neg (by simp [hs, hp]), if_pos (Option.isSome_iff_ne_none.2 hx)]
  · rw [if_neg (by simp [hs, hp]), if_neg (by simp [hx]), if_pos he]

/-! ## Commands of Whisper (R286 to R311) -/

theorem updWh_congr {c : Line} {f g : WhC → WhC} {s : State} (h : f (getWh s c) = g (getWh s c)) :
    updWh c f s = updWh c g s := by
  cases c
  · exact congrArg (fun x => { s with wh := { s.wh with a := x } }) h
  · exact congrArg (fun x => { s with wh := { s.wh with b := x } }) h

theorem whSend_passes {b : Bytes} (h1 : byteAt b 0 ≤ 3 ∨ byteAt b 0 = 0xFF) (h2 : rsv b 1 4 = true) :
    firstOf [need (byteAt b 0 ≤ 3 || byteAt b 0 == 0xFF) (badParam 0), need (rsv b 1 4) (badParam 1)] = none := by
  simp [need_eq_none, h1, h2]

theorem whBankSwap_passes {b : Bytes} (h1 : byteAt b 0 ≤ 3) (h2 : byteAt b 1 ≤ 1) :
    firstOf [need (byteAt b 0 ≤ 3) (badParam 0), need (byteAt b 1 ≤ 1) (badParam 1)] = none := by
  simp [need_eq_none, h1, h2]

theorem whCapture_passes {b : Bytes} (h1 : byteAt b 16 ≤ 3) (h2 : byteAt b 17 ≤ 2)
    (h3 : byteAt b 17 = 0 ∨ byteAt b 16 < 2) (h4 : rsv b 18 20 = true) (h5 : 1 ≤ fld b 20 4) (h6 : fld b 20 4 ≤ 16384) :
    firstOf [need (byteAt b 16 ≤ 3) (badParam 16),
      need (byteAt b 17 ≤ 2 && (byteAt b 17 == 0 || byteAt b 16 < 2)) (badParam 17), need (rsv b 18 20) (badParam 18),
      need (1 ≤ fld b 20 4 && fld b 20 4 ≤ 16384) (badParam 20)] = none := by
  rcases h3 with h3 | h3 <;> simp [need_eq_none, h1, h2, h3, h4, h5, h6]

/-- Settles O27. -/
theorem whisperCommandsRun : Obligations.WhisperCommandsRun := by
  rintro p s t _ _ _ rfl rfl rfl
  refine ⟨fun h h1 h2 hp hl => runPool_answers h (whSend_passes h1 h2) (decide_eq_true hl) ?_,
    fun h hq => runCmd_answers h rfl (by simp only [hq]),
    fun m rest h hq hl => runCmd_answers h rfl (by
      simp only [hq]
      exact takeData_fits hl _ _),
    fun h h1 h2 h3 => runCmd_answers h (by simp [need_eq_none, h1, h2, h3]) rfl,
    fun h h1 h2 hs hc => runCmd_answers h (whBankSwap_passes h1 h2) (if_neg (by simp [hs, hc])),
    fun h h1 h2 h3 h4 h5 h6 => runCmd_answers h (whCapture_passes h1 h2 h3 h4 h5 h6) rfl,
    fun h h1 h2 hl hp => runPool_answers h (whSend_passes h1 h2) (decide_eq_true hl) (if_pos hp),
    fun h h1 h2 hl => runPool_full h (whSend_passes h1 h2) (decide_eq_false (Nat.not_lt.2 hl)) _,
    fun m rest h hq hl => runCmd_answers h rfl (by
      simp only [hq]
      exact takeData_tooLong hl _ _),
    fun h h1 h2 hs => runCmd_answers h (whBankSwap_passes h1 h2) (if_pos ?_)⟩
  · rw [if_neg (Nat.not_lt.2 hp)]
    exact congrArg (Prod.mk _) (updWh_congr rfl)
  · simpa [Option.isSome_iff_ne_none] using hs

end Sys2Proof.Machine
end

section
/-! SUPPORT. Proofs about the commands of the domain and the mate, of calibration and of power (chapters 11, 13, 17). -/
namespace Sys2Proof.Machine

/-! ## Commands of the domain and the mate (R312 to R344) -/

theorem slice_slice {b : Bytes} {a n i k : Nat} (h : i + k ≤ n) : slice (slice b a n) i k = slice b (a + i) k := by
  rw [slice, slice, slice, List.drop_take, List.drop_drop, List.take_take, Nat.min_eq_left (by omega)]

/-- The public key's point, as DM_JOIN's parameters hold it. -/
theorem keyXY_join (b : Bytes) : keyXY (slice b 8 97) = (unbe (slice b 9 48), unbe (slice b 57 48)) := by
  rw [keyXY, slice_slice (by decide), slice_slice (by decide)]

theorem membersOnly_stranger {s : State} (h : s.dm.member = false) (f : State → Reply × State) :
    membersOnly f s = (.st 0x1B01, s) := if_neg (by rw [h]; exact Bool.false_ne_true)

theorem dmJoin_passes {b : Bytes} (h1 : fld b 0 4 ≠ 0) (h2 : fld b 4 2 ≤ 16383) (h3 : rsv b 6 8 = true)
    (h4 : byteAt b 8 = 4) (h5 : rsv b 105 108 = true) :
    firstOf [need (fld b 0 4 != 0) (badParam 0), need (fld b 4 2 ≤ 16383) (badParam 4), need (rsv b 6 8) (badParam 6),
      need (byteAt b 8 == 4) (badParam 8), need (rsv b 105 108) (badParam 105)] = none := by
  simp [need_eq_none, h1, h2, h3, h4, h5]

theorem dmRecord_length (d : DmEnt) : ([byteOf d.kind, 0] ++ le 2 d.origin ++ le 4 d.msgId ++ le 8 d.tick ++
    le 2 d.body.length ++ zeros 6 ++ d.body).length = 24 + d.body.length := by
  simp only [List.length_append, le_length, zeros_length, List.length_cons, List.length_nil, Nat.reduceAdd]

/-- Settles O28. -/
theorem domainCommandsRun : Obligations.DomainCommandsRun := by
  rintro p s t _ _ rfl rfl
  refine ⟨fun h h1 h2 h3 h4 h5 hm hj hk => runCmd_answers h (dmJoin_passes h1 h2 h3 h4 h5) ?_,
    fun h hm => runCmd_answers h rfl (membersOnly_member hm _),
    fun h hm hd hv ha => runCmd_answers h rfl ((membersOnly_member hm _).trans ?_),
    fun h hr hm => runCmd_answers h (need_of hr _) (membersOnly_member hm _),
    fun h hm hq => runCmd_answers h rfl ((membersOnly_member hm _).trans (by simp only [hq])),
    fun d ds h hm hq hl => runCmd_answers h rfl ((membersOnly_member hm _).trans ?_),
    fun h hm => runCmd_answers h rfl (membersOnly_member hm _),
    fun h h1 hl hs ha => runCmd_answers h rfl ?_,
    fun h h1 h2 h3 h4 h5 hm => runCmd_answers h (dmJoin_passes h1 h2 h3 h4 h5) (if_pos hm),
    fun h h1 h2 h3 h4 h5 hm hj hk => runCmd_answers h (dmJoin_passes h1 h2 h3 h4 h5) ?_,
    fun h h1 h2 h3 h4 h5 hm hj hk => runCmd_answers h (dmJoin_passes h1 h2 h3 h4 h5) ?_,
    fun h hm => runCmd_answers h rfl (membersOnly_stranger hm _),
    fun h hm => runCmd_answers h rfl (membersOnly_stranger hm _),
    fun h hm => runCmd_answers h rfl (membersOnly_stranger hm _),
    fun h hm => runCmd_answers h rfl (membersOnly_stranger hm _),
    fun h hm => runCmd_answers h rfl (membersOnly_stranger hm _),
    fun h hr hm => runCmd_answers h (need_of hr _) (membersOnly_stranger hm _),
    fun h hm hd => runCmd_answers h rfl ((membersOnly_member hm _).trans (if_pos (by rw [hd]; rfl))),
    fun h hm hd => runCmd_answers h rfl ((membersOnly_member hm _).trans ?_),
    fun h hm hd hv => runCmd_answers h rfl ((membersOnly_member hm _).trans (by simp only [hd]; exact if_pos hv)),
    fun h hm hd hv ha => runCmd_answers h rfl ((membersOnly_member hm _).trans ?_),
    fun d ds h hm hq hl => runCmd_answers h rfl ((membersOnly_member hm _).trans ?_),
    fun h h1 => runCmd_answers h rfl (if_pos ?_),
    fun h h1 hl => runCmd_answers h rfl ?_,
    fun h h1 hl hs => runCmd_answers h rfl ?_,
    fun h h1 hl hs ha => runCmd_answers h rfl ?_⟩
  · have hl : ((accept p t).dm.joinedOnce && ((accept p t).dm.domain != fld (paramBytes p) 0 4 ||
        (accept p t).dm.key != slice (paramBytes p) 8 97)) = false := by
      cases e : (accept p t).dm.joinedOnce
      · rfl
      · simp [hj e]
    simp only [keyXY_join, hm, hl, hk, Bool.false_eq_true, if_false]
  · simp only [hd]
    exact (if_neg (Nat.not_le.2 hv)).trans (if_neg (by simp [ha]))
  · simp only [hq]
    exact takeData_fits (by rwa [dmRecord_length]) _ _
  · have hc : canSwitch (accept p t) = true := by simp [canSwitch, mateOn, h1, hl, hs, ha]
    rw [mateOn, h1, hl, hs, hc]
    rfl
  · have hl : ((accept p t).dm.joinedOnce && ((accept p t).dm.domain != fld (paramBytes p) 0 4 ||
        (accept p t).dm.key != slice (paramBytes p) 8 97)) = true := by
      simpa [hj] using hk
    simp only [keyXY_join, hm, hl, Bool.false_eq_true, if_false, if_true]
  · have hl : ((accept p t).dm.joinedOnce && ((accept p t).dm.domain != fld (paramBytes p) 0 4 ||
        (accept p t).dm.key != slice (paramBytes p) 8 97)) = false := by
      cases e : (accept p t).dm.joinedOnce
      · rfl
      · simp [hj e]
    refine (if_neg (Bool.eq_false_iff.1 hm)).trans
      ((if_neg (Bool.eq_false_iff.1 hl)).trans ?_)
    rw [slice_slice (by decide), slice_slice (by decide)]
    split
    next e => exact absurd e hk
    · rfl
  · split
    next e => exact absurd e hd
    · rfl
  · simp only [hd]
    exact (if_neg (Nat.not_le.2 hv)).trans (if_pos (Option.isSome_iff_ne_none.2 ha))
  · simp only [hq]
    exact takeData_tooLong (by rwa [dmRecord_length]) _ _
  · simp [mateOn, h1]
  · rw [mateOn, h1, hl]
    rfl
  · rw [mateOn, h1, hl, Option.isSome_iff_ne_none.2 hs]
    rfl
  · have hc : canSwitch (accept p t) = false := by simp [canSwitch, ha]
    rw [mateOn, h1, hl, hs, hc]
    rfl

/-! ## Commands of calibration (R364 to R388) -/

theorem mem_bitsSet {w n v : Nat} : v ∈ bitsSet w n ↔ v < w ∧ n.testBit v = true := by
  rw [bitsSet, List.mem_filter, List.mem_range]

theorem calTrimSet_passes {b : Bytes} (h1 : byteAt b 0 ≤ 15) (h2 : byteAt b 1 ≤ 67)
    (h3 : ∀ i, i < 4 → (sx 16 (fld b (2 + 2 * i) 2)).natAbs ≤ 511) :
    firstOf ([need (byteAt b 0 ≤ 15) (badParam 0), need (byteAt b 1 ≤ 67) (badParam 1)] ++ (List.range 4).map fun i =>
      need ((((List.range 4).map fun i => sx 16 (fld b (2 + 2 * i) 2)).getD i 0).natAbs ≤ 511)
        (badParam (2 + 2 * i))) = none := by
  rw [firstOf_append]
  refine ⟨by simp [need_eq_none, h1, h2], firstOf_map_none _ _ fun i hi => need_decide ?_ _⟩
  have hi' := List.mem_range.1 hi
  simp only [List.getD_eq_getElem?_getD, List.getElem?_map, List.getElem?_range hi', Option.map_some, Option.getD_some]
  exact h3 i hi'

/-- Settles O29. -/
theorem calibrationCommandsRun : Obligations.CalibrationCommandsRun := by
  rintro p s t _ _ _ rfl rfl rfl
  refine ⟨fun h h1 h2 hv => runCmd_answers h (by simp [need_eq_none, h1, h2]) ?_,
    fun h => runCmd_answers h rfl rfl,
    fun h h1 hc => runCmd_answers h (need_decide (by omega) _) ?_,
    fun h h1 hc => runCmd_answers h (need_decide (by omega) _) (by simp only [h1, hc]),
    fun h h1 h2 h3 hc => runCmd_answers h ?_ (if_neg (not_not_intro hc)),
    fun h h1 h2 hc hr hs => runCmd_answers h (by simp [need_eq_none, h1, h2]) ?_,
    fun h h1 h2 hv => runCmd_answers h (by simp [need_eq_none, h1, h2]) (if_pos (by rw [hv]; rfl)),
    fun h h1 h2 hv hr => runCmd_answers h (by simp [need_eq_none, h1, h2]) ?_,
    fun h h1 hs hr => runCmd_answers h (need_decide (by omega) _) ?_,
    fun h h1 hc => runCmd_answers h (need_decide (by omega) _) ?_,
    fun h h1 h2 h3 hc => runCmd_answers h ?_ (if_pos hc),
    fun h h1 h2 hc => runCmd_answers h (by simp [need_eq_none, h1, h2]) (if_pos hc),
    fun h h1 h2 hc hr => runCmd_answers h (by simp [need_eq_none, h1, h2]) ((if_neg (not_not_intro hc)).trans (if_pos hr)),
    fun h h1 h2 hc hr hs => runCmd_answers h (by simp [need_eq_none, h1, h2]) ?_⟩
  · have hall : (bitsSet 16 (fld (paramBytes p) 0 2)).all (calReady (accept p t)) = true :=
      List.all_eq_true.2 fun v hm => (hv v (mem_bitsSet.1 hm).1 (mem_bitsSet.1 hm).2).1
    have hany : (bitsSet 16 (fld (paramBytes p) 0 2)).any (runOf (accept p t)) = false :=
      List.any_eq_false.2 fun v hm => by
        rw [(hv v (mem_bitsSet.1 hm).1 (mem_bitsSet.1 hm).2).2]
        exact Bool.false_ne_true
    exact (if_neg (by rw [hall]; decide)).trans (if_neg (Bool.eq_false_iff.1 hany))
  · rcases hc with hc | hc <;> simp only [h1, hc]
  · exact calTrimSet_passes h1 h2 h3
  · exact (if_neg (not_not_intro hc)).trans ((if_neg (Bool.eq_false_iff.1 hr)).trans (if_neg (by simp [hs])))
  · exact (if_neg (by rw [hv]; decide)).trans (if_pos hr)
  · simp only [h1]
    cases e : calSt (accept p t) (pktLine p)
    case service => exact absurd e hs
    case recovery => exact absurd e hr
    all_goals rfl
  · simp only [h1]
    cases e : calSt (accept p t) (pktLine p)
    case test => exact absurd e hc
    all_goals rfl
  · exact calTrimSet_passes h1 h2 h3
  · exact (if_neg (not_not_intro hc)).trans ((if_neg (Bool.eq_false_iff.1 hr)).trans (if_pos (by rw [hs]; rfl)))

/-! ## Commands of power (R460 to R476) -/

theorem pwrSet_passes {b : Bytes} (h1 : 1 ≤ byteAt b 0) (h2 : byteAt b 0 ≤ 4)
    (h3 : byteAt b 0 = 3 → byteAt b 1 = 1 ∨ byteAt b 1 = 2) (h4 : byteAt b 2 < 2) :
    firstOf [need (1 ≤ byteAt b 0 && byteAt b 0 ≤ 4) (badParam 0),
      need (byteAt b 0 != 3 || byteAt b 1 == 1 || byteAt b 1 == 2) (badParam 1), need (byteAt b 2 < 2) (badParam 2)] =
      none := by
  by_cases h : byteAt b 0 = 3
  · rcases h3 h with h' | h' <;> simp [need_eq_none, h, h', h4]
  · simp [need_eq_none, h1, h2, h, h4]

/-- Settles O30. -/
theorem powerCommandsRun : Obligations.PowerCommandsRun := by
  rintro p s t _ _ rfl rfl
  refine ⟨fun h h1 h2 h3 h4 hm hp hb hj => runCmd_answers h ?_ ?_,
    fun h h1 h2 hm hg => runCmd_answers h (by simp [need_eq_none, h1, h2]) ?_,
    fun h h1 => runCmd_answers h (need_decide h1 _) rfl,
    fun h h1 h2 h3 hr => runCmd_answers h (by simp [need_eq_none, h1, h2, h3]) (if_neg (Bool.eq_false_iff.1 hr)),
    fun h h1 h2 h3 h4 hm => runCmd_answers h ?_ (if_pos (Option.isSome_iff_ne_none.2 hm)),
    fun h h1 h2 h3 h4 hm hp => runCmd_answers h ?_ ?_,
    fun h h1 h2 h3 h4 hm hp h5 hj => runCmd_answers h ?_ ?_,
    fun h h1 h2 hm => runCmd_answers h (by simp [need_eq_none, h1, h2]) (if_pos (Option.isSome_iff_ne_none.2 hm)),
    fun n h h1 h2 hm hg => runCmd_answers h (by simp [need_eq_none, h1, h2]) ?_,
    fun h h1 h2 h3 hr => runCmd_answers h (by simp [need_eq_none, h1, h2, h3]) (if_pos hr)⟩
  · exact pwrSet_passes h1 h2 h3 h4
  · refine (if_neg (by simp [hm])).trans ((if_neg ?_).trans (if_neg ?_))
    · rw [hp]
      cases e : byteAt (paramBytes p) 0 == 1
      · exact Bool.false_ne_true
      · rw [hb (beq_iff_eq.1 e)]
        exact Bool.false_ne_true
    · rintro ⟨h3t, hhot⟩
      exact absurd (hj h3t) (Int.not_lt.2 hhot)
  · refine (if_neg (by simp [hm])).trans ?_
    simp only [hg]
    rfl
  · exact pwrSet_passes h1 h2 h3 h4
  · exact pwrSet_passes h1 h2 h3 h4
  · refine (if_neg (by simp [hm])).trans (if_pos ?_)
    rcases hp with hp | ⟨hp, hb⟩
    · rw [hp]
      rfl
    · rw [hb, beq_iff_eq.2 hp]
      exact Bool.or_true _
  · exact pwrSet_passes h1 h2 h3 h4
  · refine (if_neg (by simp [hm])).trans ((if_neg ?_).trans (if_pos ⟨h5, hj⟩))
    rw [hp, beq_eq_false_iff_ne.2 (show byteAt (paramBytes p) 0 ≠ 1 by omega)]
    exact Bool.false_ne_true
  · refine (if_neg (by simp [hm])).trans ?_
    simp only [hg]

end Sys2Proof.Machine
end

section
/-! SUPPORT. Proofs about the commands of the Steward, the Store, DMA and CRC units (chapters 14 and 15). -/
namespace Sys2Proof.Machine

/-! ## Commands of the Steward (R399 to R423) -/

theorem whileActive_active {t : Nat} {s : State} (h : (getTen s t).st = .active) (f : State → Reply × State) :
    whileActive t f s = f s := by
  rw [whileActive, whileOn_on (by rw [h]; decide), if_neg (by rw [h]; decide)]

theorem whileActive_off {t : Nat} {s : State} (h : (getTen s t).st = .off) (f : State → Reply × State) :
    whileActive t f s = (.st stWrongState, s) := whileOn_off h _

theorem whileActive_quarantined {t : Nat} {s : State} (h : (getTen s t).st = .quarantined)
    (f : State → Reply × State) : whileActive t f s = (.st 0x1D04, s) := by
  rw [whileActive, whileOn_on (by rw [h]; decide), if_pos h]

theorem okHostTen_passes {t : Nat} (h1 : 2 ≤ t) (h2 : t ≤ 63) (off : Nat) : okHostTen off t = none :=
  need_of (by rw [decide_eq_true h1, decide_eq_true h2]; rfl) _

theorem engImageLoad_passes {b : Bytes} (h1 : 76 ≤ fld b 8 4) (h2 : fld b 8 4 ≤ 65696) (h3 : 2 ≤ byteAt b 12)
    (h4 : byteAt b 12 ≤ 63) (h5 : rsv b 13 16 = true) :
    firstOf [need (76 ≤ fld b 8 4 && fld b 8 4 ≤ 65696) (badParam 8), okHostTen 12 (byteAt b 12),
      need (rsv b 13 16) (badParam 13)] = none := by
  simp [need_eq_none, okHostTen_passes h3 h4, h1, h2, h5]

theorem stwPageAlloc_passes {b : Bytes} (h1 : 2 ≤ byteAt b 16) (h2 : byteAt b 16 ≤ 63) (h3 : byteAt b 17 < 4)
    (h4 : 1 ≤ fld b 18 2) (h5 : fld b 18 2 ≤ 4096) :
    firstOf [okHostTen 16 (byteAt b 16), need (byteAt b 17 < 4) (badParam 17),
      need (1 ≤ fld b 18 2 && fld b 18 2 ≤ 4096) (badParam 18)] = none := by
  simp [need_eq_none, okHostTen_passes h1 h2, h3, h4, h5]

theorem stwPageFree_passes {b : Bytes} (h1 : b.length = 4 + 2 * fld b 2 2) (h2 : 2 ≤ byteAt b 0) (h3 : byteAt b 0 ≤ 63)
    (h4 : byteAt b 1 = 0) :
    firstOf [need (b.length == 4 + 2 * fld b 2 2) { step := 8, st := stBadLength, detail := 4 + 2 * fld b 2 2 },
      okHostTen 0 (byteAt b 0), need (byteAt b 1 == 0) (badParam 1)] = none := by
  simp [need_eq_none, okHostTen_passes h2 h3, h1, h4]

/-- A page that a STW_PAGE_FREE may free: the tenant's, and in no use that keeps it (R407). -/
theorem pageFree_free {u : State} {t : Nat} {l : List Nat} (h : ∀ g ∈ l, (getPg u g).owner = some t ∧
    ringPage u t g = false ∧ (getPg u g).image = false ∧
    ∀ n < 16, (getCh u n).run = none ∨ (getCh u n).pages.contains g = false) :
    l.any (fun g => (getPg u g).owner != some t) = false ∧
    l.any (fun g => ringPage u t g || (getPg u g).image ||
      (List.range 16).any (fun c => (getCh u c).run.isSome && (getCh u c).pages.contains g)) = false := by
  constructor <;> refine List.any_eq_false.2 fun g hg => ?_ <;> obtain ⟨ho, hr, hi, hc⟩ := h g hg
  · simp [ho]
  · have hch : (List.range 16).any (fun c => (getCh u c).run.isSome && (getCh u c).pages.contains g) = false := by
      refine List.any_eq_false.2 fun c hr => ?_
      rcases hc c (List.mem_range.1 hr) with e | e <;> rw [e]
      · exact Bool.false_ne_true
      · rw [Bool.and_false]
        exact Bool.false_ne_true
    rw [hr, hi, hch]
    exact Bool.false_ne_true

theorem freeCh_isSome {t : State} (h : freeCh t ≠ none) : (freeCh t).isSome = true := Option.isSome_iff_ne_none.2 h

/-- Settles O31. -/
theorem stewardCommandsRun : Obligations.StewardCommandsRun := by
  rintro p s t _ _ rfl rfl
  refine ⟨fun img h h1 h2 h3 h4 h5 ha hl hi => runCmd_answers h (engImageLoad_passes h1 h2 h3 h4 h5)
      ((whileActive_active ha _).trans ((if_neg (not_not_intro hl)).trans (if_neg (not_not_intro hi)))),
    fun im h h1 hf hb => runCmd_answers h (need_of h1 _) (by simp only [hf]; exact if_neg hb),
    fun h h1 h2 h3 h4 h5 ha hq => runCmd_answers h (stwPageAlloc_passes h1 h2 h3 h4 h5)
      ((whileActive_active ha _).trans (if_neg (Nat.not_lt.2 hq))),
    fun h h1 h2 h3 h4 ha hp => runCmd_answers h (stwPageFree_passes h1 h2 h3 h4)
      ((whileActive_active ha _).trans ((if_neg (Bool.eq_false_iff.1 (pageFree_free hp).1)).trans
        (if_neg (Bool.eq_false_iff.1 (pageFree_free hp).2)))),
    fun h h1 h2 ha => runCmd_answers h (okHostTen_passes h1 h2 _) (whileActive_active ha _),
    fun n h h1 h2 hc ha hq hn => runPool_answers h (okHostTen_passes h1 h2 _) (freeCh_isSome hc)
      ((whileActive_active ha _).trans ((if_neg (Nat.not_le.2 hq)).trans (by simp only [hn]))),
    fun h h1 ht hr => runCmd_answers h (need_decide h1 _)
      ((if_neg (by simpa using ht)).trans (if_neg (by simp [hr]))),
    fun h h1 h2 ho => runCmd_answers h (okHostTen_passes h1 h2 _) (whileOn_on ho _),
    fun h h1 h2 ho => runCmd_answers h (okHostTen_passes h1 h2 _) (whileOn_on ho _),
    fun h h1 h2 hq => runCmd_answers h (okHostTen_passes h1 h2 _) (if_pos hq),
    fun h he => runCmd_answers h rfl (if_pos he),
    fun img h h1 h2 h3 h4 h5 ha => runCmd_answers h (engImageLoad_passes h1 h2 h3 h4 h5) (whileActive_off ha _),
    fun img h h1 h2 h3 h4 h5 ha => runCmd_answers h (engImageLoad_passes h1 h2 h3 h4 h5) (whileActive_quarantined ha _),
    fun h h1 h2 h3 h4 h5 ha => runCmd_answers h (stwPageAlloc_passes h1 h2 h3 h4 h5) (whileActive_off ha _),
    fun h h1 h2 h3 h4 h5 ha => runCmd_answers h (stwPageAlloc_passes h1 h2 h3 h4 h5) (whileActive_quarantined ha _),
    fun h h1 h2 h3 h4 ha => runCmd_answers h (stwPageFree_passes h1 h2 h3 h4) (whileActive_off ha _),
    fun h h1 h2 h3 h4 ha => runCmd_answers h (stwPageFree_passes h1 h2 h3 h4) (whileActive_quarantined ha _),
    fun h h1 h2 ha => runCmd_answers h (okHostTen_passes h1 h2 _) (whileActive_off ha _),
    fun h h1 h2 ha => runCmd_answers h (okHostTen_passes h1 h2 _) (whileActive_quarantined ha _),
    fun h h1 h2 hc ha => runPool_answers h (okHostTen_passes h1 h2 _) (freeCh_isSome hc) (whileActive_off ha _),
    fun h h1 h2 hc ha => runPool_answers h (okHostTen_passes h1 h2 _) (freeCh_isSome hc) (whileActive_quarantined ha _),
    fun h h1 h2 ho => runCmd_answers h (okHostTen_passes h1 h2 _) (whileOn_off ho _),
    fun h h1 h2 ho => runCmd_answers h (okHostTen_passes h1 h2 _) (whileOn_off ho _),
    fun h h1 h2 hq => runCmd_answers h (okHostTen_passes h1 h2 _) (if_neg hq),
    fun img h h1 h2 h3 h4 h5 ha hl => runCmd_answers h (engImageLoad_passes h1 h2 h3 h4 h5)
      ((whileActive_active ha _).trans (if_pos hl)),
    fun img h h1 h2 h3 h4 h5 ha hl hi => runCmd_answers h (engImageLoad_passes h1 h2 h3 h4 h5)
      ((whileActive_active ha _).trans ((if_neg (not_not_intro hl)).trans (if_pos hi))),
    fun im h h1 hf hb => runCmd_answers h (need_of h1 _) (by simp only [hf]; exact if_pos hb),
    fun h h1 h2 h3 h4 h5 ha hq => runCmd_answers h (stwPageAlloc_passes h1 h2 h3 h4 h5)
      ((whileActive_active ha _).trans (if_pos hq)),
    fun h h1 h2 h3 h4 ha hp => runCmd_answers h (stwPageFree_passes h1 h2 h3 h4)
      ((whileActive_active ha _).trans (if_pos hp)),
    fun h h1 h2 h3 h4 ha ho hp => runCmd_answers h (stwPageFree_passes h1 h2 h3 h4)
      ((whileActive_active ha _).trans ((if_neg (Bool.eq_false_iff.1 ho)).trans (if_pos hp))),
    fun h h1 h2 hc ha hq => runPool_answers h (okHostTen_passes h1 h2 _) (freeCh_isSome hc)
      ((whileActive_active ha _).trans (if_pos hq)),
    fun h h1 h2 hc => runPool_full h (okHostTen_passes h1 h2 _) (by rw [hc]; rfl) _,
    fun h h1 ht => runCmd_answers h (need_decide h1 _) (if_pos (by rw [ht]; rfl)),
    fun h h1 ht hr => runCmd_answers h (need_decide h1 _)
      ((if_neg (by simpa using ht)).trans (if_pos (Option.isSome_iff_ne_none.2 hr))),
    fun h he => runCmd_answers h rfl (if_neg (Bool.eq_false_iff.1 he))⟩

/-! ## Commands of the Store, DMA and CRC units (R424 to R442) -/

theorem storeFallow_passes {b : Bytes} (h1 : fld b 0 2 = 1) (h2 : b.length = 4) (h3 : fld b 2 2 ≤ 32767) :
    firstOf ([need (1 ≤ fld b 0 2 && fld b 0 2 ≤ 64) (badParam 0),
        need (b.length == 2 + 2 * fld b 0 2) { step := 8, st := stBadLength, detail := 2 + 2 * fld b 0 2 }]
      ++ (List.range (fld b 0 2)).map fun i => need (fld b (2 + 2 * i) 2 ≤ 32767) (badParam (2 + 2 * i))) = none := by
  simp [need_eq_none, h1, h2, h3, List.range_succ]

/-- The one page that a STORE_FALLOW of one page names. -/
theorem fallowed_one {b : Bytes} (h : fld b 0 2 = 1) :
    ((List.range (fld b 0 2)).map fun i => fld b (2 + 2 * i) 2).eraseDups = [fld b 2 2] := by
  rw [h]
  rfl

/-- There is room for one page more on the fallow list. -/
theorem startFallow_room {s : State} (h : fallowCount s < 1024) (o : Option CmdKey) (g : Nat) :
    (startFallow o [g] s).1 = false := by
  obtain ⟨k, hk⟩ : ∃ k, 1024 - fallowCount s = k + 1 := ⟨1023 - fallowCount s, by omega⟩
  simp only [startFallow, hk, List.drop_succ_cons, List.drop_nil, List.isEmpty_nil, Bool.not_true]

theorem getPg_setPg {s : State} (h : SMap.wf ({} : Pg) s.stw.pages = true) (g x : Nat) (q : Pg) :
    getPg (setPg g q s) x = if x = g then q else getPg s x := SMap.get_put _ _ _ _ h x

theorem storeInject_passes {b : Bytes} (h1 : fld b 0 2 ≤ 32767) (h2 : 1 ≤ byteAt b 2) (h3 : byteAt b 2 ≤ 64)
    (h4 : byteAt b 3 = 0) :
    firstOf [need (fld b 0 2 ≤ 32767) (badParam 0), need (1 ≤ byteAt b 2 && byteAt b 2 ≤ 64) (badParam 2),
      need (byteAt b 3 == 0) (badParam 3)] = none := by
  simp [need_eq_none, h1, h2, h3, h4]

theorem dmaStart_passes {b : Bytes} (h1 : byteAt b 0 ≤ 15) (h2 : rsv b 1 8 = true) (h3 : fld b 8 8 % 32 = 0) :
    firstOf [need (byteAt b 0 ≤ 15) (badParam 0), need (rsv b 1 8) (badParam 1),
      need (fld b 8 8 % 32 == 0) (badParam 8)] = none := by
  simp [need_eq_none, h1, h2, h3]

theorem crcUnit_passes {b : Bytes} (h1 : byteAt b 0 ≤ 7) (h2 : byteAt b 1 ≤ 4)
    (h3 : byteAt b 1 = 1 → byteAt b 2 ≤ 3 ∧ byteAt b 3 ≤ 2) (h4 : rsv b 4 8 = true) :
    firstOf [need (byteAt b 0 ≤ 7) (badParam 0), need (byteAt b 1 ≤ 4) (badParam 1),
      need (byteAt b 1 != 1 || byteAt b 2 ≤ 3) (badParam 2), need (byteAt b 1 != 1 || byteAt b 3 ≤ 2) (badParam 3),
      need (rsv b 4 8) (badParam 4)] = none := by
  by_cases h : byteAt b 1 = 1
  · simp [need_eq_none, h1, h, h3 h, h4]
  · simp [need_eq_none, h1, h2, h, h4]

/-- Settles O32. -/
theorem storeCommandsRun : Obligations.StoreCommandsRun := by
  rintro p s t _ _ rfl rfl
  refine ⟨fun h h1 h2 h3 => runCmd_answers h (by simp [need_eq_none, h1, h2, h3]; omega) rfl,
    fun h h1 h2 h3 hp hl => runCmd_answers h (storeFallow_passes h1 h2 h3) ?_,
    fun h => runCmd_answers h rfl rfl,
    fun h h1 h2 h3 h4 hp => runCmd_answers h (storeInject_passes h1 h2 h3 h4) (if_pos ?_),
    fun h h1 h2 h3 ht hr => runCmd_answers h (dmaStart_passes h1 h2 h3)
      ((if_neg (by simpa using ht)).trans (if_neg (by simp [hr]))),
    fun h h1 hr => runCmd_answers h (need_decide h1 _) (if_neg (by simpa using hr)),
    fun h h1 h2 h3 => runCmd_answers h (crcUnit_passes h1 (by omega) (by omega) h3) (by simp only [h2]; rfl),
    fun h h1 h2 h3 h4 h5 hc => runCmd_answers h (crcUnit_passes h1 (by omega) (fun _ => ⟨h3, h4⟩) h5) ?_,
    fun h h1 h2 h3 hc => runCmd_answers h (crcUnit_passes h1 (by omega) (by omega) h3) ?_,
    fun h h1 h2 h3 => runCmd_answers h (crcUnit_passes h1 (by omega) (by omega) h3) (by simp only [h2]; rfl),
    fun h h1 h2 h3 => runCmd_answers h (crcUnit_passes h1 (by omega) (by omega) h3) (by simp only [h2]; rfl),
    fun h h1 h2 h3 hp hq hw => runCmd_answers h (storeFallow_passes h1 h2 h3) ?_,
    fun h h1 h2 h3 h4 hp ho => runCmd_answers h (storeInject_passes h1 h2 h3 h4) (if_neg (by simp [hp, ho])),
    fun h h1 h2 h3 ht => runCmd_answers h (dmaStart_passes h1 h2 h3) (if_pos (by rw [ht]; rfl)),
    fun h h1 h2 h3 ht hr => runCmd_answers h (dmaStart_passes h1 h2 h3)
      ((if_neg (by simpa using ht)).trans (if_pos (Option.isSome_iff_ne_none.2 hr))),
    fun h h1 hr => runCmd_answers h (need_decide h1 _) (if_pos (by rw [hr]; rfl)),
    fun h h1 h2 h3 h4 h5 hc => runCmd_answers h (crcUnit_passes h1 (by omega) (fun _ => ⟨h3, h4⟩) h5) ?_,
    fun h h1 h2 h3 hc => runCmd_answers h (crcUnit_passes h1 (by omega) (by omega) h3) ?_⟩
  · have hfull := startFallow_room hl (some (packetKey p)) (fld (paramBytes p) 2 2)
    simp only [fallowed_one h1, List.foldl_cons, List.foldl_nil, List.filter_cons, List.filter_nil, hp,
      Option.isSome_none, Bool.false_eq_true, if_false, decide_true, Bool.true_or, if_true, List.isEmpty_cons, hfull]
  · rcases hp with hp | hp
    · simp [hp]
    · simp [Option.isSome_iff_ne_none.2 hp]
  · simp only [h2]
    exact if_neg (by simp [hc])
  · simp only [h2]
    exact if_neg (by simp [hc])
  · have hm : (getPg (accept p t) (fld (paramBytes p) 2 2)).quar.isSome = false := by rw [hq]; rfl
    rcases hp with e | e <;>
    simp only [fallowed_one h1, List.foldl_cons, List.foldl_nil, Option.isSome_iff_ne_none.2 e, if_true, ite_self,
      List.filter_cons, List.filter_nil, getPg_setPg hw, hm, Bool.false_and, Bool.or_false, Pg.mk.injEq,
      Bool.true_eq_false, and_false, decide_false, Bool.false_eq_true, if_false, List.isEmpty_nil]
  · simp only [h2]
    exact if_pos (Option.isSome_iff_ne_none.2 hc)
  · simp only [h2]
    exact if_pos (Option.isSome_iff_ne_none.2 hc)

end Sys2Proof.Machine
end

section
/-! SUPPORT. Proofs about the instructions of line-frame sequencers and of tick engines (R213; chapter 14). -/

namespace Sys2Proof.Machine

/-- Settles O50. -/
theorem engineInstructionsIssue : Obligations.EngineInstructionsIssue := by
  intro s t e r code w h hw
  and_intros <;> exact engRow_hit h hw

/-- The row of the instruction at the program counter runs it and then looks whether the program ended. -/
theorem seqRow_runs {s t : State} {c : Line} {d : Dir} {k w : Nat} {f : Nat → State → State} {u : State}
    (h : Running s t) (hw : seqWord t c d = some w) (ho : seqOp w = k) (hf : f w t = u) :
    clocked (seqStep k c d f) s = .next (settle (seqStop c d u)) := by
  rw [clocked_running h, seqStep_hit hw ho, hf]

/-- Each program allows the instructions 0x00 to 0x0D and 0x10 to 0x13; receive adds RDB, CNT and EVT, transmit WRB. -/
theorem seqAllowed_iff (d : Dir) (op : Nat) : seqAllowed d op =
    (decide (op ∈ [0x00, 0x01, 0x02, 0x03, 0x04, 0x05, 0x06, 0x07, 0x08, 0x09, 0x0A, 0x0B, 0x0C, 0x0D, 0x10, 0x11, 0x12,
      0x13]) || decide (d = .rx ∧ op ∈ [0x0E, 0x14, 0x15]) || decide (d = .tx ∧ op = 0x0F)) := by
  by_cases ho : op < 0x16
  · revert op
    cases d <;> decide
  · have hout (l : List Nat) (hl : ∀ x ∈ l, x < 0x16) : op ∉ l := fun hm => ho (hl op hm)
    have hle : ¬ op ≤ 0x15 := by omega
    have hne : op ≠ 0x0F := by omega
    rw [decide_eq_false (hout _ (by decide)), decide_eq_false fun h => hout _ (by decide) h.2,
      decide_eq_false fun h => hne h.2]
    exact Bool.and_eq_false_iff.2 (.inl (decide_eq_false hle))

/-- Settles O49. -/
theorem sequencerInstructionsRun : Obligations.SequencerInstructionsRun := by
  refine ⟨seqAllowed_iff, fun s t c d w h hw => ?_⟩
  have run {k : Nat} {f : Nat → State → State} {u : State} (ho : seqOp w = k) (hf : f w t = u) :
      clocked (seqStep k c d f) s = .next (settle (seqStop c d u)) := seqRow_runs h hw ho hf
  refine ⟨fun ho => run ho rfl, fun ho => run ho rfl, fun ho => run ho rfl, fun ho => run ho rfl,
    fun ho => run ho rfl, fun ho => run ho rfl, fun ho => run ho rfl, fun ho => run ho rfl,
    fun ho => run ho rfl, fun ho => run ho rfl,
    fun ho hi => run ho ?_, fun ho hi => run ho ?_, fun ho hi => run ho ?_, fun ho hi => run ho ?_, fun ho hi => run ho ?_,
    fun ho => run ho rfl, fun ho => run ho rfl, fun ho => run ho rfl, fun ho => run ho rfl, fun ho => run ho rfl,
    fun ho => run ho rfl, fun ho => run ho ?_, fun ho => run ho ?_, fun ho => run ho ?_, fun ho => run ho rfl,
    fun ho hn => run ho ?_, fun ho hn => run ho ?_⟩
  · simp only [seqLdt, hi, seqSet]
  · simp only [seqLdt, hi, seqSet]
  · simp only [seqLdt, hi, seqSet]
  · simp only [seqLdt, hi, seqSet]
  · unfold seqLdt
    split
    case h_5 => rfl
    all_goals omega
  · simp only [seqSkip, beq_iff_eq]
  · simp only [seqSkip, bne_iff_ne]
  · simp only [seqSkip, decide_eq_true_eq]
  · simp only [seqEvt, hn, raiseIf, Option.isNone_none, if_true]
  · simp only [seqEvt, Option.isNone_eq_false_iff.2 (Option.isSome_iff_ne_none.2 hn), raiseIf, Bool.false_eq_true, if_false]

end Sys2Proof.Machine
end

section
/-! SUPPORT. Proofs about register accesses over PCIe and SPI: doorbells, queue registers, counter windows, event
registers and the mailbox (chapters 03, 16 and 19). -/

namespace Sys2Proof.Machine

/-! ## What an access over each path does -/

theorem live_acts {f : State → State} {s t u : State} (h : Awake s t) (hf : f t = u) :
    live f s = .next (settle u) := by
  rw [live_awake h, hf]

theorem pcie_acts {f : State → State} {s t u : State} {d : Bool} (h : Awake s t) (hp : t.sys.perst = false)
    (hw : t.pwr.state ≠ 1) (hf : f t = u) : overPcie d f s = .next (settle u) :=
  live_acts h ((if_neg (by simp [hp, hw])).trans hf)

/-- A doorbell is taken in SLEEP too: it is what wakes the device. -/
theorem doorbell_acts {f : State → State} {s t u : State} (h : Awake s t) (hp : t.sys.perst = false) (hf : f t = u) :
    overPcie true f s = .next (settle u) :=
  live_acts h ((if_neg (by simp [hp])).trans hf)

theorem pcie_held {f : State → State} {s t : State} {d : Bool} (h : Awake s t) (hp : t.sys.perst = true) :
    overPcie d f s = .next (settle t) :=
  live_acts h (if_pos (by simp [hp]))

theorem spi_acts {f : State → State} {s t u : State} (h : Awake s t) (hw : t.pwr.state ≠ 1)
    (hf : f (beginWake 2 0 t) = u) : spiAccess f s = .next (settle u) :=
  live_acts h ((if_neg hw).trans hf)

theorem spi_asleep {f : State → State} {s t : State} (h : Awake s t) (hw : t.pwr.state = 1) :
    spiAccess f s = .next (settle (spiErr (beginWake 2 0 t))) :=
  live_acts h (if_pos hw)

theorem queueReady_on {f : State → State} {t u : State} (hr : t.sys.ready = true) (hf : f t = u) :
    queueReady f t = u :=
  (if_pos hr).trans hf

theorem queueReady_off {f : State → State} {t : State} (hr : t.sys.ready = false) :
    queueReady f t = { t with boot := { t.boot with queueTouched := true } } :=
  if_neg (Bool.eq_false_iff.1 hr)

/-! ## The queue registers -/

theorem writeSqTail_taken {q v : Nat} {t : State} (he : (getQ t q).enabled = true)
    (hv : v % 65536 < 2 ^ (getQ t q).sqLog2) :
    writeSqTail q v t = updQ q (fun u => { u with sqTail := v % 65536 }) (beginWake 1 0 t) :=
  if_neg (by simpa [he] using hv)

theorem writeSqTail_refused {q v : Nat} {t : State}
    (h : (getQ t q).enabled = false ∨ 2 ^ (getQ t q).sqLog2 ≤ v % 65536) :
    writeSqTail q v t = raise 0x05 (sysErr 1 (beginWake 1 0 t)) :=
  if_pos (by simpa using h)

theorem writeCqHead_taken {q v n : Nat} {t : State} (he : (getQ t q).enabled = true) (hn : n = 2 ^ (getQ t q).cqLog2)
    (hv : v % 65536 < n)
    (hb : (v % 65536 + n - (getQ t q).cqHead) % n ≤ ((getQ t q).cqTail + n - (getQ t q).cqHead) % n) :
    writeCqHead q v t = updQ q (fun u => { u with cqHead := v % 65536 }) (beginWake 1 0 t) := by
  subst hn
  exact if_neg (by simpa [he] using ⟨hv, hb⟩)

theorem writeCqHead_refused {q v n : Nat} {t : State} (hn : n = 2 ^ (getQ t q).cqLog2)
    (h : (getQ t q).enabled = false ∨ n ≤ v % 65536 ∨
      ((getQ t q).cqTail + n - (getQ t q).cqHead) % n < (v % 65536 + n - (getQ t q).cqHead) % n) :
    writeCqHead q v t = raise 0x05 (sysErr 1 (beginWake 1 0 t)) := by
  subst hn
  exact if_pos (by simpa [or_assoc] using h)

theorem enableQueue_enabled {q : Nat} {t : State} (he : (getQ t q).enabled = true) : enableQueue q t = t :=
  if_pos he

theorem enableQueue_refused {q : Nat} {t : State} (he : (getQ t q).enabled = false)
    (h : (getQ t q).sqLog2 < 4 ∨ 12 < (getQ t q).sqLog2 ∨ (getQ t q).cqLog2 < 4 ∨ 12 < (getQ t q).cqLog2 ∨
      (getQ t q).sqBase % 4096 ≠ 0 ∨ (getQ t q).cqBase % 4096 ≠ 0) :
    enableQueue q t = raise 0x05 (sysErr 2 t) :=
  (if_neg (Bool.eq_false_iff.1 he)).trans (if_pos (by simp; omega))

theorem enableQueue_enables {q : Nat} {t x : State} (he : (getQ t q).enabled = false) (h1 : 4 ≤ (getQ t q).sqLog2)
    (h2 : (getQ t q).sqLog2 ≤ 12) (h3 : 4 ≤ (getQ t q).cqLog2) (h4 : (getQ t q).cqLog2 ≤ 12)
    (h5 : (getQ t q).sqBase % 4096 = 0) (h6 : (getQ t q).cqBase % 4096 = 0)
    (hx : x = updQ q (fun u => { u with
      enabled := true, sqLatch := none, cqLatch := none, sqTail := 0, sqHead := 0, cqHead := 0, cqTail := 0,
      phase := true, unsignalled := 0, coalStart := none, retry := .none_ }) t) :
    enableQueue q t = { x with cmd := { x.cmd with newest := x.cmd.newest.set q none } } := by
  subst hx
  exact (if_neg (Bool.eq_false_iff.1 he)).trans (if_neg (by simp [h1, h2, h3, h4, h5, h6]))

/-- What Q_CFG leaves in its queue: the sizes only of a disabled one. -/
def setQCfg (q v : Nat) (t : State) : State :=
  updQ q (fun u => { u with
    sqLog2 := if u.enabled then u.sqLog2 else v % 16, cqLog2 := if u.enabled then u.cqLog2 else bits v 7 4,
    vector := bits v 13 8, coalCount := bits v 23 16, coalTime := bits v 31 24 }) t

/-- Q_CFG signals when the completions that wait reach the new count. -/
def QCfgSignals (q v : Nat) (t : State) : Prop :=
  (getQ t q).unsignalled ≠ 0 ∧ max 1 (bits v 23 16) ≤ (getQ t q).unsignalled

theorem writeQCfg_disabled_quiet {q v : Nat} {t : State} (he : (getQ t q).enabled = false) (hs : ¬ QCfgSignals q v t) :
    writeQCfg q v t = setQCfg q v t :=
  (if_neg (by simp [he])).trans (if_neg hs)

theorem writeQCfg_disabled_signals {q v : Nat} {t : State} (he : (getQ t q).enabled = false) (hs : QCfgSignals q v t) :
    writeQCfg q v t = cqSignal q (setQCfg q v t) :=
  (if_neg (by simp [he])).trans (if_pos hs)

theorem writeQCfg_same_quiet {q v : Nat} {t : State} (hs : ¬ QCfgSignals q v t)
    (hv : v % 256 = (getQ t q).sqLog2 + 16 * (getQ t q).cqLog2) : writeQCfg q v t = setQCfg q v t :=
  (if_neg (by simp [hv])).trans (if_neg hs)

theorem writeQCfg_same_signals {q v : Nat} {t : State} (hs : QCfgSignals q v t)
    (hv : v % 256 = (getQ t q).sqLog2 + 16 * (getQ t q).cqLog2) : writeQCfg q v t = cqSignal q (setQCfg q v t) :=
  (if_neg (by simp [hv])).trans (if_pos hs)

theorem writeQCfg_sizes_quiet {q v : Nat} {t : State} (he : (getQ t q).enabled = true) (hs : ¬ QCfgSignals q v t)
    (hv : v % 256 ≠ (getQ t q).sqLog2 + 16 * (getQ t q).cqLog2) :
    writeQCfg q v t = raise 0x05 (sysErr 2 (setQCfg q v t)) :=
  (if_pos (by simp [he, hv])).trans (congrArg (queueErr 2) (if_neg hs))

theorem writeQCfg_sizes_signals {q v : Nat} {t : State} (he : (getQ t q).enabled = true) (hs : QCfgSignals q v t)
    (hv : v % 256 ≠ (getQ t q).sqLog2 + 16 * (getQ t q).cqLog2) :
    writeQCfg q v t = raise 0x05 (sysErr 2 (cqSignal q (setQCfg q v t))) :=
  (if_pos (by simp [he, hv])).trans (congrArg (queueErr 2) (if_pos hs))

/-! ## Reads that latch -/

theorem withRead_tickLo_pcie (t : State) : withRead .pcie 0x018 4 t =
    { t with sys := { t.sys with tickLatch := t.tick / 2 ^ 32, readOut := le 4 (t.tick % 2 ^ 32) } } :=
  withRead_four rfl .pcie t

theorem withRead_tickLo_spi (t : State) : withRead .spi 0x018 4 t =
    { t with sys := { t.sys with tickLatchSpi := t.tick / 2 ^ 32, readOut := le 4 (t.tick % 2 ^ 32) } } :=
  withRead_four rfl .spi t

theorem withRead_cntLo_pcie (n : Fin 2048) (t : State) : withRead .pcie (0x10000 + 8 * n.val) 4 t =
    { t with sys := { t.sys with cntLatch := upperOf t n.val, readOut := le 4 (t.count n.val % 2 ^ 32) } } := by
  rw [withRead_cntLo, regLatch_cntLo]

theorem withRead_cntLo_spi (n : Fin 2048) (t : State) : withRead .spi (0x10000 + 8 * n.val) 4 t =
    { t with sys := { t.sys with cntLatchSpi := upperOf t n.val, readOut := le 4 (t.count n.val % 2 ^ 32) } } := by
  rw [withRead_cntLo, regLatch_cntLo]

/-! ## The other registers -/

theorem bootLoad_zero {t : State} {v : Nat} (hb : t.boot.stage = 7) (hv : v = 0) :
    writeBootLoad v t = { t with boot := { t.boot with loadLen := 0, stage := 7 } } := by
  subst hv
  exact if_pos hb

theorem bootLoad_starts {t : State} {v : Nat} (hb : t.boot.stage = 7) (hv : v ≠ 0) :
    writeBootLoad v t = { t with boot := { t.boot with loadLen := v, stage := 4 } } := by
  simp only [writeBootLoad, hb, if_true, hv, if_false]

theorem busWrite_b32 {a v : Nat} {t : State} (hc : stagingClosed a t = false) (ha : a % 4 = 0) :
    busWrite .b32 a v t = write32 a (v % 2 ^ 32) t :=
  (if_neg (Bool.eq_false_iff.1 hc)).trans (if_pos ha)

theorem busWrite_b32_unaligned {a v : Nat} {t : State} (hc : stagingClosed a t = false) (ha : a % 4 ≠ 0) :
    busWrite .b32 a v t = sysErr 3 t :=
  (if_neg (Bool.eq_false_iff.1 hc)).trans (if_neg ha)

theorem busWrite_b64 {a v : Nat} {t : State} (hc : stagingClosed a t = false) (ha : a % 8 = 0) :
    busWrite .b64 a v t = write32 (a + 4) (v / 2 ^ 32 % 2 ^ 32) (write32 a (v % 2 ^ 32) t) :=
  (if_neg (Bool.eq_false_iff.1 hc)).trans (if_pos ha)

theorem busWrite_b64_unaligned {a v : Nat} {t : State} (hc : stagingClosed a t = false) (ha : a % 8 ≠ 0) :
    busWrite .b64 a v t = sysErr 3 t :=
  (if_neg (Bool.eq_false_iff.1 hc)).trans (if_neg ha)

theorem busWrite_b8 {a v : Nat} {t : State} (hc : stagingClosed a t = false) : busWrite .b8 a v t = sysErr 3 t :=
  if_neg (Bool.eq_false_iff.1 hc)

theorem busWrite_b16 {a v : Nat} {t : State} (hc : stagingClosed a t = false) : busWrite .b16 a v t = sysErr 3 t :=
  if_neg (Bool.eq_false_iff.1 hc)

/-- What a bus write does to the state is what its effect does and then the windows it met. -/
theorem busWriteMet_of {size : AccSize} {a v met m : Nat} {t u : State} (hu : busWrite size a v t = u)
    (hm : (if size = .b64 then met else met % 2 ^ 32) = m) : busWriteMet size a v met t = updateWins a m t u := by
  rw [busWriteMet, hu, hm]

/-- A 4-wire SPI write goes to the registers or, with address bit 31, to the mailbox. -/
theorem spiWrite_acts {a : BitVec 32} {bytes : Bytes} {s t u : State} (h : Awake s t) (hw : t.pwr.state ≠ 1)
    (hu : (if a.toNat < 2 ^ 31 then spiBusWrite (a.toNat % 2 ^ 26) bytes (beginWake 2 0 t)
      else mailboxStore (a.toNat % 2 ^ 31) bytes (beginWake 2 0 t)) = u) :
    exec (.spiWrite a bytes) s = .next (settle u) := by
  show execSpiWrite a bytes s = _
  unfold execSpiWrite
  exact spi_acts h hw hu

theorem spiRead_acts {a : BitVec 32} {n : Nat} {s t u : State} (h : Awake s t) (hw : t.pwr.state ≠ 1)
    (hu : (if a.toNat < 2 ^ 31 then withRead .spi (a.toNat % 2 ^ 26) n (beginWake 2 0 t)
      else mailboxLoad (a.toNat % 2 ^ 31) n (beginWake 2 0 t)) = u) :
    exec (.spiRead a n) s = .next (settle u) := by
  show execSpiRead a n s = _
  unfold execSpiRead
  exact spi_acts h hw hu

theorem spiStatusRead_acts {s t x : State} (h : Awake s t) (hw : t.pwr.state ≠ 1) (hx : x = beginWake 2 0 t) :
    exec .spiStatusRead s = .next (settle { x with
      sys := { x.sys with readOut := [byteOf (spiStatus x)] },
      cmd := { x.cmd with mb := { x.cmd.mb with err := false } } }) := by
  subst hx
  show execSpiStatusRead s = _
  unfold execSpiStatusRead
  exact spi_acts h hw rfl

/-- In SLEEP an SPI access starts the wake and reports an error. -/
theorem spiRows_asleep {s t : State} (h : Awake s t) (hw : t.pwr.state = 1) :
    (∀ a bytes, exec (.spiWrite a bytes) s = .next (settle (spiErr (beginWake 2 0 t)))) ∧
    (∀ a n, exec (.spiRead a n) s = .next (settle (spiErr (beginWake 2 0 t)))) ∧
    exec .spiStatusRead s = .next (settle (spiErr (beginWake 2 0 t))) := by
  refine ⟨fun a bytes => ?_, fun a n => ?_, ?_⟩
  · show execSpiWrite a bytes s = _
    unfold execSpiWrite
    exact spi_asleep h hw
  · show execSpiRead a n s = _
    unfold execSpiRead
    exact spi_asleep h hw
  · show execSpiStatusRead s = _
    unfold execSpiStatusRead
    exact spi_asleep h hw

/-- Settles O34. -/
theorem registerAccessesAct : Obligations.RegisterAccessesAct := by
  intro s t
  refine ⟨
    fun q v h hp hr he hv => doorbell_acts h hp (queueReady_on hr (writeSqTail_taken he hv)),
    fun q v h hp hr hd => doorbell_acts h hp (queueReady_on hr (writeSqTail_refused hd)),
    fun q v n h hp hr he hn hv hb => doorbell_acts h hp (queueReady_on hr (writeCqHead_taken he hn hv hb)),
    fun q x h hp hw hr he h1 h2 h3 h4 h5 h6 hx =>
      pcie_acts h hp hw (queueReady_on hr (enableQueue_enables he h1 h2 h3 h4 h5 h6 hx)),
    fun q h hp hw hr => pcie_acts h hp hw (queueReady_on hr rfl),
    fun q v h hp hw hr he hu =>
      pcie_acts h hp hw (queueReady_on hr (writeQCfg_disabled_quiet he fun hs => hs.1 hu)),
    fun q v h hp hw hr he => pcie_acts h hp hw (queueReady_on hr (if_neg (Bool.eq_false_iff.1 he))),
    fun q v h hp hw hr he => pcie_acts h hp hw (queueReady_on hr (if_neg (Bool.eq_false_iff.1 he))),
    fun q v h hp hw hr he => pcie_acts h hp hw (queueReady_on hr (if_neg (Bool.eq_false_iff.1 he))),
    fun q v h hp hw hr he => pcie_acts h hp hw (queueReady_on hr (if_neg (Bool.eq_false_iff.1 he))),
    fun v h hp hw hl hv => pcie_acts h hp hw ((if_neg (Bool.eq_false_iff.1 hl)).trans (if_pos hv)),
    fun v h hp hw hl => pcie_acts h hp hw (if_pos hl),
    fun v h hp hw hb hv => pcie_acts h hp hw (bootLoad_starts hb hv),
    fun v h hp hw => pcie_acts h hp hw rfl,
    fun v h hp hw hring => pcie_acts h hp hw (if_neg fun hn => ?_),
    fun n h hp hw => pcie_acts h hp hw (withRead_cntLo_pcie n t),
    fun n x h hw hx => spi_acts h hw (hx ▸ withRead_cntLo_spi n x),
    fun h hp hw => pcie_acts h hp hw (withRead_tickLo_pcie t),
    fun x h hw hx => spi_acts h hw (hx ▸ withRead_tickLo_spi x),
    fun k v h hp hw => pcie_acts h hp hw rfl,
    fun k v h hp hw => pcie_acts h hp hw rfl,
    fun a v h hp hw hc ha => pcie_acts h hp hw (busWriteMet_of (busWrite_b32 hc ha) (if_neg nofun)),
    fun a v h hp hw hc ha => pcie_acts h hp hw (busWriteMet_of (busWrite_b64 hc ha) (if_pos rfl)),
    fun a v h hp hw hc => pcie_acts h hp hw (busWriteMet_of (busWrite_b8 hc) (if_neg nofun)),
    fun a v h hp hw hc => pcie_acts h hp hw (busWriteMet_of (busWrite_b16 hc) (if_neg nofun)),
    fun a bytes h hw ha => spiWrite_acts h hw (if_pos ha),
    fun a bytes h hw ha => spiWrite_acts h hw (if_neg (Nat.not_lt.2 ha)),
    fun a n h hw ha => spiRead_acts h hw (if_pos ha),
    fun a n h hw ha => spiRead_acts h hw (if_neg (Nat.not_lt.2 ha)),
    fun x h hw hx => spiStatusRead_acts h hw hx,
    fun x h hw hx hb hr => spi_acts h hw (hx ▸ if_neg (by simp [hb, hr])),
    fun q v h hp hr => doorbell_acts h hp (queueReady_off hr),
    fun q v h hp hr => doorbell_acts h hp (queueReady_off hr),
    fun q h hp hw hr => pcie_acts h hp hw (queueReady_off hr),
    fun q h hp hw hr => pcie_acts h hp hw (queueReady_off hr),
    fun q v h hp hw hr => pcie_acts h hp hw (queueReady_off hr),
    fun q cq v h hp hw hr => pcie_acts h hp hw (queueReady_off hr),
    fun q cq v h hp hw hr => pcie_acts h hp hw (queueReady_off hr),
    fun q v h hp => pcie_held h hp, fun q v h hp => pcie_held h hp, fun q h hp => pcie_held h hp,
    fun q h hp => pcie_held h hp, fun q v h hp => pcie_held h hp, fun q cq v h hp => pcie_held h hp,
    fun q cq v h hp => pcie_held h hp, fun v h hp => pcie_held h hp, fun v h hp => pcie_held h hp,
    fun v h hp => pcie_held h hp, fun v h hp => pcie_held h hp, fun n h hp => pcie_held h hp,
    fun h hp => pcie_held h hp, fun k v h hp => pcie_held h hp, fun k v h hp => pcie_held h hp,
    fun a size v h hp => pcie_held h hp,
    fun q v n h hp hr hn hd => doorbell_acts h hp (queueReady_on hr (writeCqHead_refused hn hd)),
    fun q h hp hw hr he => pcie_acts h hp hw (queueReady_on hr (enableQueue_enabled he)),
    fun q h hp hw hr he hbad => pcie_acts h hp hw (queueReady_on hr (enableQueue_refused he hbad)),
    fun q v x h hp hw hr he hs hx => pcie_acts h hp hw (queueReady_on hr (hx ▸ writeQCfg_disabled_quiet he hs)),
    fun q v x h hp hw hr he h1 h2 hx =>
      pcie_acts h hp hw (queueReady_on hr (hx ▸ writeQCfg_disabled_signals he ⟨h1, h2⟩)),
    fun q v x h hp hw hr he hs hv hx => pcie_acts h hp hw (queueReady_on hr (hx ▸ writeQCfg_sizes_quiet he hs hv)),
    fun q v x h hp hw hr he hs hv hx => pcie_acts h hp hw (queueReady_on hr (hx ▸ writeQCfg_same_quiet hs hv)),
    fun q v x h hp hw hr he h1 h2 hv hx =>
      pcie_acts h hp hw (queueReady_on hr (hx ▸ writeQCfg_sizes_signals he ⟨h1, h2⟩ hv)),
    fun q v x h hp hw hr he h1 h2 hv hx =>
      pcie_acts h hp hw (queueReady_on hr (hx ▸ writeQCfg_same_signals ⟨h1, h2⟩ hv)),
    fun q cq v h hp hw hr he => pcie_acts h hp hw (queueReady_on hr (if_pos he)),
    fun q v h hp hw hr he => pcie_acts h hp hw (queueReady_on hr (if_pos he)),
    fun q v h hp hw hr he => pcie_acts h hp hw (queueReady_on hr (if_pos he)),
    fun v h hp hw hl hv => pcie_acts h hp hw ((if_neg (Bool.eq_false_iff.1 hl)).trans (if_neg (by omega))),
    fun v h hp hw hb hv => pcie_acts h hp hw (bootLoad_zero hb hv),
    fun v h hp hw hb => pcie_acts h hp hw (if_neg hb),
    fun v h hp hw h1 h2 => pcie_acts h hp hw (if_pos ⟨h1, h2⟩),
    fun a size v h hp hw hc => pcie_acts h hp hw (busWriteMet_of (if_pos hc) rfl),
    fun a v h hp hw hc ha => pcie_acts h hp hw (busWriteMet_of (busWrite_b32_unaligned hc ha) (if_neg nofun)),
    fun a v h hp hw hc ha => pcie_acts h hp hw (busWriteMet_of (busWrite_b64_unaligned hc ha) (if_pos rfl)),
    fun a bytes h hw => (spiRows_asleep h hw).1 a bytes, fun a n h hw => (spiRows_asleep h hw).2.1 a n,
    fun h hw => (spiRows_asleep h hw).2.2, fun h hw => spi_asleep h hw,
    fun x h hw hx hd => spi_acts h hw (hx ▸ if_pos (by simpa using hd)),
    fun n h hw => spi_asleep h hw, fun h hw => spi_asleep h hw⟩
  obtain ⟨hn, hle⟩ := hn
  omega

end Sys2Proof.Machine
end

section
/-! SUPPORT. Proofs about the rows of a tick's window: freezes, executions, shadowed fields, Harvest, epochs and the
end of the tick (chapter 02). -/

namespace Sys2Proof.Machine

theorem within_acts {f : State → State} {t u : State} (h : stopped t = false) (hf : f t = u) :
    within f t = .next (settle u) := by
  rw [within_running h, hf]

theorem freezeOne_cons {t : State} {e : Entry} {rest : List Entry} (h : freezesDue t = e :: rest) :
    freezeOne t = freezeEntry e t := by
  rw [freezeOne, h]

theorem executeOne_step {t : State} {e : Entry} (h : nextDue t = some e) (hs : e.isStep = true) :
    executeOne t = stepNow e t := by
  rw [executeOne, h]
  exact if_pos hs

theorem executeOne_frozen {t : State} {e : Entry} (h : nextDue t = some e) (hs : e.isStep = false)
    (hf : e.frozen = true) : executeOne t = runEntry e t := by
  rw [executeOne, h]
  exact (if_neg (Bool.eq_false_iff.1 hs)).trans (if_pos hf)

theorem shadowApplyOne_due {t : State} {w : Nat × BitVec 16}
    (h : t.sys.gpioWait.find? (fun w => w.1 ≤ t.elapsed) = some w) :
    shadowApplyOne t = { t with sys := { t.sys with gpioOut := w.2, gpioWait := t.sys.gpioWait.erase w } } := by
  rw [shadowApplyOne, h]

/-- An automatic switch that is due is entered for the next multiframe boundary and reported. -/
theorem autoSchedule_due {c : Line} {t : State} (h : autoMask t c ≠ 0) :
    autoSchedule c t = autoSet c (autoMask t c) (addInternal (.autoSwitch c (autoMask t c)) (roundUp 256 (t.tick + 256)) t) :=
  if_neg h

theorem autoSchedule_none {c : Line} {t : State} (h : autoMask t c = 0) : autoSchedule c t = t := if_pos h

/-- AUTOMATIC_SWITCH with no frozen entry of its own due only schedules. -/
theorem automaticSwitch_schedules {c : Line} {t x : State} (h : stopped t = false) (hx : autoSchedule c t = x)
    (hf : (freezesDue x).find? (isAuto c) = none) (he : (entriesDue x).find? (isAuto c) = none) :
    exec (.automaticSwitch c) t = .next (settle x) := by
  show execAutomaticSwitch c t = _
  unfold execAutomaticSwitch
  exact within_acts h (by simp only [hx, hf, he])

theorem automaticSwitch_executes {c : Line} {t x : State} {e : Entry} (h : stopped t = false)
    (hx : autoSchedule c t = x) (hf : (freezesDue x).find? (isAuto c) = none)
    (he : (entriesDue x).find? (isAuto c) = some e) :
    exec (.automaticSwitch c) t = .next (settle (executeEntry e x)) := by
  show execAutomaticSwitch c t = _
  unfold execAutomaticSwitch
  exact within_acts h (by simp only [hx, hf, he])

/-- Settles O48. -/
theorem windowRowsAct : Obligations.WindowRowsAct := by
  intro t
  exact ⟨fun e rest h hd => within_acts h (freezeOne_cons hd),
    fun e h hd hs hf => within_acts h (executeOne_frozen hd hs hf),
    fun e h hd hs => within_acts h (executeOne_step hd hs),
    fun w h hw => within_acts h (shadowApplyOne_due hw),
    fun h hd => within_acts h (if_pos hd),
    fun c x h hm hx hf he => automaticSwitch_schedules h ((autoSchedule_due hm).trans hx.symm) hf he,
    fun c e h hm hf he => automaticSwitch_executes h (autoSchedule_none hm) hf he,
    fun h hl ht => within_acts h (if_neg (by simp [hl, ht])),
    fun i h hw => within_acts h (if_neg (Bool.eq_false_iff.1 hw))⟩

end Sys2Proof.Machine
end

section
/-! SUPPORT. Proofs about the rows of the command protocol: read time-outs, completion writes, deadlines, watchdog and
flash operations (chapter 03). -/

namespace Sys2Proof.Machine

/-! ## Rows that act inside the tick -/

theorem clocked_acts {f : State → State} {s t u : State} (h : Running s t) (hf : f t = u) :
    clocked f s = .next (settle u) := by
  rw [clocked_running h, hf]

/-! ## Read time-outs -/

/-- The queue is the one whose entry is fetched next. -/
theorem readTimeout_fetching {q : Nat} {t : State} (hf : fetching t = true) (hv : nextVisit t = some q) :
    ¬ (!fetching t || nextVisit t != some q) = true := by
  simp [hf, hv]

theorem readTimeout_first {q : Nat} {hdr : Option (BitVec 16 × Packet)} {t : State} (hf : fetching t = true)
    (hv : nextVisit t = some q)
    (hr : ¬ (hdr.isNone && ((getQ t q).retry == .again || (getQ t q).retry == .late)) = true) :
    readTimeout q hdr false t = bump 24 (updQ q (fun u => { u with retry := .again }) t) :=
  (if_neg (readTimeout_fetching hf hv)).trans ((if_pos rfl).trans (if_neg hr))

theorem readTimeout_header {q : Nat} {t : State} (hf : fetching t = true) (hv : nextVisit t = some q)
    (hr : (getQ t q).retry = .again) : readTimeout q none true t = headerFailed q t :=
  (if_neg (readTimeout_fetching hf hv)).trans ((if_neg (by simp)).trans (if_neg (by simp [hr])))

theorem readTimeout_data {q : Nat} {op : BitVec 16} {p : Packet} {t : State} {o : Option Refuse} (hf : fetching t = true)
    (hv : nextVisit t = some q) (hr : (getQ t q).retry = .again) (hq : p.q.val = q) (hi : p.paramInline = false)
    (ho : checkLen op.toNat p = o) :
    readTimeout q (some (op, p)) true t =
      refuse op.toNat p (o.getD { step := 3, st := stTimeout }) (takeSq q t) := by
  refine (if_neg (readTimeout_fetching hf hv)).trans ((if_neg (by simp)).trans ((if_neg (by simp [hr])).trans
    ((if_neg (by simp [hq, hi])).trans ?_)))
  cases o <;> simp only [ho, Option.getD]

/-! ## Completions and deadlines -/

theorem writeHeld_room {q : Nat} {h : Held} {t : State} (hq : q ≠ 8) (hh : t.cmd.held.find? (·.q == q) = some h)
    (hr : t.sys.fwRunning = true) (hc : cqFull t q = false) :
    writeHeld q t = cqWrite q h.cpl (rearmHigh { t with cmd := { t.cmd with held := t.cmd.held.erase h } }) := by
  simp only [writeHeld, hh, hr, hc, hq, Bool.not_true, Bool.and_false, Bool.or_false, Bool.false_eq_true, if_false]

theorem deadlineHit_chain {k : CmdKey} {o : OpenCmd} {n : Nat} {t : State} (ho : openCmd t k = some o)
    (hd : o.deadline ≤ t.elapsed) (hc : chainOf t k = some n) : deadlineHit k t = dmaAbort n stTimeout t := by
  simp only [deadlineHit, ho, Nat.not_lt.2 hd, if_false, hc]

theorem deadlineHit_command {k : CmdKey} {o : OpenCmd} {t x : State} (ho : openCmd t k = some o)
    (hd : o.deadline ≤ t.elapsed) (hc : chainOf t k = none) (hx : x = finish k (.st stTimeout) (keCut stTimeout k t)) :
    deadlineHit k t = { x with cmd := { x.cmd with expired := x.cmd.expired ++ [k] } } := by
  subst hx
  simp only [deadlineHit, ho, Nat.not_lt.2 hd, if_false, hc]

/-! ## Flash operations -/

section Flash
variable {o : FlashOp} {rest : List FlashOp} {t : State}

theorem flashDone_chunk_failed (h : t.flash.ops = o :: rest) (hk : o.kind = .fwChunk) :
    flashDone false t =
      finishOpt o.owner (.st stFlashFail) (flashEnded stFlashFail (sequenceEnds o { st := .invalid } t)) := by
  simp only [flashDone, h, hk, Bool.not_false, if_true]

theorem flashDone_chunk (h : t.flash.ops = o :: rest) (hk : o.kind = .fwChunk) :
    flashDone true t = if o.aux = 1 then lastChunk o (chunkWrite o t)
      else finishOpt o.owner .ok (flashEnded 0 (chunkWrite o t)) := by
  simp only [flashDone, h, hk, Bool.not_true, Bool.false_eq_true, if_false]

theorem flashDone_record_failed (h : t.flash.ops = o :: rest) (hk : o.kind = .bootRecord) :
    flashDone false t = finishOpt o.owner (.st stFlashFail) (flashEnded stFlashFail t) := by
  simp only [flashDone, h, hk, Bool.false_eq_true, if_false]

theorem flashDone_record {x : State} (h : t.flash.ops = o :: rest) (hk : o.kind = .bootRecord)
    (hx : recWrite 0 0x1000 o.aux t = some x) :
    flashDone true t = if o.aux2 = 1 && (o.owner.bind (openCmd (flashEnded 0 x))).isSome
      then restartFirmware o.owner (flashEnded 0 x) else finishOpt o.owner .ok (flashEnded 0 x) := by
  simp only [flashDone, h, hk, if_true, hx]

end Flash

theorem restartDone_plain {t : State} (h : t.sys.fwRestarting = true) (hk : t.sys.fwActivate = none) :
    restartDone t = raise 0x02 (writeAllHeld { t with
      sys := { t.sys with fwRunning := true, fwRestarting := false, fwActivate := none } }) := by
  simp only [restartDone, h, hk, Bool.not_true, Bool.false_eq_true, if_false, Option.isSome_none, finishOpt]

theorem restartDone_activated {t x : State} {k : CmdKey} (h : t.sys.fwRestarting = true)
    (hk : t.sys.fwActivate = some k) (hx : x = firmwareSwitched t) :
    restartDone t = raise 0x02 (finish k .ok (writeAllHeld { x with
      sys := { x.sys with fwRunning := true, fwRestarting := false, fwActivate := none } })) := by
  subst hx
  simp only [restartDone, h, hk, Bool.not_true, Bool.false_eq_true, if_false, Option.isSome_some, if_true, finishOpt]

/-- Settles O33. -/
theorem protocolEventsAct : Obligations.ProtocolEventsAct := by
  intro s t
  refine ⟨fun q h hf hv hr => clocked_acts h (readTimeout_first hf hv (by simp [hr])),
    fun q h hf hv hr => clocked_acts h (readTimeout_header hf hv hr),
    fun q op p h hf hv hr hq hi hc => clocked_acts h (readTimeout_data hf hv hr hq hi hc),
    fun q h hr => show execPcieLateCpl q s = _ from clocked_acts h ((if_pos (Or.inl hr)).trans ?_),
    fun q h hr => show execPcieLateCpl q s = _ from clocked_acts h ((if_pos (Or.inr hr)).trans ?_),
    fun q x h hh hr hc => clocked_acts h (writeHeld_room (by omega) hh hr hc),
    fun q h hc => show execCoalTimeExpiry q s = _ from clocked_acts h (if_pos hc),
    fun q tag seq k o x h hk ho hd hc hx => hk ▸ clocked_acts h (hk ▸ deadlineHit_command ho hd hc hx),
    fun q tag seq o n h ho hd hc => clocked_acts h (deadlineHit_chain ho hd hc),
    fun q tag seq k h hk hc => clocked_acts h (hk ▸ if_pos hc),
    fun core h hr => show execWatchdogExpiry core s = _ from clocked_acts h (if_pos hr),
    fun h hr hk => clocked_acts h (restartDone_plain hr hk),
    fun k x h hr hk hx => clocked_acts h (restartDone_activated hr hk hx),
    fun o rest h ho hk ha => clocked_acts h ((flashDone_chunk ho hk).trans (if_neg ha)),
    fun o rest h ho hk => clocked_acts h (flashDone_record_failed ho hk),
    fun q op p x h hf hv hr hq hi hc => clocked_acts h (readTimeout_data hf hv hr hq hi hc),
    fun q x h hf hv => clocked_acts h (readTimeout_first hf hv nofun),
    fun o rest h ho hk ha => clocked_acts h ((flashDone_chunk_failed ho hk).trans ?_),
    fun o rest h ho hk ha => clocked_acts h ((flashDone_chunk_failed ho hk).trans ?_),
    fun o rest h ho hk ha => clocked_acts h ((flashDone_chunk ho hk).trans (if_pos ha)),
    fun o rest x h ho hk hx ha => clocked_acts h ((flashDone_record ho hk hx).trans (if_neg (by simp [ha]))),
    fun o rest x h ho hk hx ha => clocked_acts h ((flashDone_record ho hk hx).trans (if_neg (by simp [ha]))),
    fun o rest x h ho hk hx ha hn => clocked_acts h ((flashDone_record ho hk hx).trans (if_pos (by simp [ha, hn])))⟩
  · simp only [hr, if_true]
  · simp only [hr, reduceCtorEq, if_false]
  · rw [sequenceEnds, if_pos ha]
  · rw [sequenceEnds, if_neg ha]

end Sys2Proof.Machine
end

section
/-! SUPPORT. Proofs about reset, boot and supply rows (chapters 17 and 18). -/

namespace Sys2Proof.Machine

/-- PLL lock starts the image of the boot record's slot or, in a host-load strap, waits for the host. -/
theorem pllLock_locks {t : State} {i : Nat} (h : t.boot.stage = 2) (hi : i = (if bootRecord t = some 1 then 1 else 0)) :
    pllLock t = { t with
      tick := 0, elapsed := 0, boot := { t.boot with
        locked := true, stage := (if t.boot.strap < 2 then 3 else 7), slot := (if t.boot.strap < 2 then i else 0),
        firstSlot := i, tried := false } } := by
  subst hi
  refine (if_neg (not_not_intro h)).trans ?_
  split
  case h_1 hb => rw [if_pos hb]; rfl
  case h_2 hb => rw [if_neg hb]; rfl

theorem slotFailed_first {e : Nat} {t : State} (h : t.boot.tried = false) :
    slotFailed e t = { t with boot := { t.boot with
      error := e, checking := false, slot := 1 - t.boot.slot, tried := true, stage := 3 } } :=
  congrArg (fun b => { t with boot := b }) (if_neg (Bool.eq_false_iff.1 h))

theorem slotFailed_second {e : Nat} {t : State} (h : t.boot.tried = true) :
    slotFailed e t = { t with boot := { t.boot with
      error := e, checking := false, slot := 0, stage := if t.boot.strap = 0 then 7 else 0xF } } :=
  congrArg (fun b => { t with boot := b }) (if_pos h)

theorem imageChecked_slot {t : State} {img : Bytes} (h : t.boot.stage = 4) (hc : t.boot.checking = true)
    (hi : img = slotImage t t.boot.slot) :
    imageChecked t = if fwSlotCheck t t.boot.slot = 0 then startImage img 1 { t with
      flash := { t.flash with
        slots := lmod t.flash.slots t.boot.slot fun x => { x with
          st := .valid, fwVersion := fld img 8 8, secVersion := fld img 4 4 } } }
      else slotFailed (fwSlotCheck t t.boot.slot) t := by
  subst hi
  refine (if_neg (not_not_intro h)).trans ((if_pos hc).trans ?_)
  split
  case h_1 he => rw [if_pos he]
  case h_2 he => rw [if_neg he]

/-- The image a host load left in the staging memory; a length beyond it counts as no image. -/
theorem imageChecked_staged {t : State} {img : Bytes} (h : t.boot.stage = 4) (hc : t.boot.checking = false)
    (hi : (if t.boot.loadLen ≤ 1835008 then SMap.getAll (0 : Byte) t.boot.staging 0 t.boot.loadLen else []) = img) :
    imageChecked t = if fwCheck img = 0 then startImage img (if t.boot.strap = 3 then 3 else 2) t
      else { t with boot := { t.boot with stage := 7, error := fwCheck img } } := by
  refine (if_neg (not_not_intro h)).trans ((if_neg (Bool.eq_false_iff.1 hc)).trans ?_)
  simp only [hi]
  split
  case h_1 he => rw [if_pos he]
  case h_2 he => rw [if_neg he]; rfl

theorem fwCheck_nil : fwCheck [] = 7 := by
  unfold fwCheck
  exact if_pos (by decide)

/-! ## STANDBY-ready -/

/-- The state in which the firmware reads its records. -/
def firmwareUp (t : State) : State :=
  { t with
    boot := { t.boot with stage := 6 }, sys := { t.sys with ready := true, fwRunning := true },
    pwr := { t.pwr with state := 2, vcore := startVcore } }

/-- What the tests of the engines leave. -/
def enginesTested (engFail : Nat) (v : State) : State :=
  { v with boot := { v.boot with calValid := v.cal.valid }, stw := { v.stw with disabled := engFail } }

/-- What the tests of the decoder cores leave. -/
def coresTested (coreFail : Nat) (w : State) : State := { w with fec := { w.fec with disabled := coreFail } }

theorem standbyReady_eq {t u v w x : State} {engFail coreFail : Nat} (h : t.boot.stage = 5)
    (hu : boardMap (firmwareUp t) = none ∧ firmwareUp t = u ∨ ∃ m, boardMap (firmwareUp t) = some m ∧
      updBoot (fun b => { b with boardValid := true }) ((firmwareUp t).setPar 0x1001 0 m) = u)
    (hv : v = domainStart (epochStart (fallowStart (calStart u))))
    (hw : (if 4 < popcount 256 engFail then svcCause 4 (enginesTested engFail v) else enginesTested engFail v) = w)
    (hx : x = checkCores (coresTested coreFail w)) :
    standbyReady engFail coreFail t = raise 0x02 (raiseIf x.boot.queueTouched 0x05 x) := by
  have hup : updBoot (fun b => { b with stage := 6 }) { t with
      sys := { t.sys with ready := true, fwRunning := true },
      pwr := { t.pwr with state := 2, vcore := startVcore } } = firmwareUp t := rfl
  have heng (v : State) : updStw (fun x => { x with disabled := engFail })
      (updBoot (fun b => { b with calValid := v.cal.valid }) v) = enginesTested engFail v := rfl
  have hcore (w : State) : updFec (fun f => { f with disabled := coreFail }) w = coresTested coreFail w := rfl
  rw [standbyReady, if_neg (not_not_intro h), hup]
  obtain ⟨hm, rfl⟩ | ⟨m, hm, rfl⟩ := hu
  · simp only [hm, ← hv, heng, hw, hcore, ← hx]
  · simp only [hm, ← hv, heng, hw, hcore, ← hx]

/-! ## Loss of the crystal -/

/-- The outputs and clients as the loss of the crystal leaves them. -/
def xoStopped (t : State) : State :=
  (List.range 12).foldl (fun s i => if cliOn s i then setFault i false (noClientData i s) else s)
    (setOutputs { t with
      boot := (if t.boot.stage = 6 then t.boot else { t.boot with error := 1 }),
      sys := { t.sys with deviceFault := true } })

section Crystal
variable {t : State} (h2 : 2 ≤ t.boot.stage) (hF : t.boot.stage ≠ 0xF) (hfound : t.boot.xoFound = true)
  (hd : t.sys.deviceFault = false)
include h2 hF hfound hd

theorem xoLoss_runs : ¬ (t.boot.stage < 2 ∨ t.boot.stage = 0xF ∨ (!t.boot.xoFound) = true ∨ t.sys.deviceFault = true) := by
  simp [hF, hfound, hd]
  omega

theorem xoLoss_still {x : State} (hx : x = xoStopped t) (hm : x.pwr.move = none) :
    xoLoss t = raise 0x2C (pllTo .stopped x) := by
  rw [hx] at hm ⊢
  unfold xoStopped at hm ⊢
  rw [xoLoss, if_neg (xoLoss_runs h2 hF hfound hd)]
  simp only [updBoot, hm]

theorem xoLoss_moving {x : State} {m : PwrMove} (hx : x = xoStopped t) (hm : x.pwr.move = some m) :
    xoLoss t = raise 0x2C (pllTo .stopped (finishOpt m.owner (.st stDeviceFault) { x with
      pwr := { x.pwr with move := none } })) := by
  rw [hx] at hm ⊢
  unfold xoStopped at hm ⊢
  rw [xoLoss, if_neg (xoLoss_runs h2 hF hfound hd)]
  simp only [updBoot, hm, updPwr]

end Crystal

/-- Settles O35. -/
theorem bootRowsAct : Obligations.BootRowsAct := by
  intro s t
  refine ⟨rfl, rfl, fun strap hr ht => if_pos (by simp [hr, ht]),
    fun hr ht => ?_, rfl,
    fun hr => if_neg (Bool.eq_false_iff.1 hr),
    fun h hb => show execXoFound s = _ from live_acts h (if_pos hb),
    fun h hb => show execXoAbsent s = _ from live_acts h (if_pos hb),
    fun i h hb hi => live_acts h (pllLock_locks hb hi),
    fun h hb => show execImageReadDone true s = _ from live_acts h ((if_neg (not_not_intro hb)).trans (if_pos rfl)),
    fun h hb ht => show execImageReadDone false s = _ from
      live_acts h ((if_neg (not_not_intro hb)).trans ((if_neg nofun).trans (slotFailed_first ht))),
    fun img h hb hc hi => live_acts h (imageChecked_slot hb hc hi),
    fun img h hb hc hl hi => live_acts h (imageChecked_staged hb hc ((if_pos hl).trans hi.symm)),
    fun ef cf u v w x h hb hu hm hv hw hp hx => clocked_acts h ?_,
    fun h => live_acts h rfl,
    fun x h h2 hF hf hd hx hm => live_acts h (xoLoss_still h2 hF hf hd hx hm),
    fun strap hn => ?_,
    fun hn => ?_,
    fun hr => if_pos hr,
    fun h hb ht => show execImageReadDone false s = _ from
      live_acts h ((if_neg (not_not_intro hb)).trans ((if_neg nofun).trans (slotFailed_second ht))),
    fun h hb hc hl => live_acts h ((imageChecked_staged hb hc (if_neg (Nat.not_le.2 hl))).trans
      (if_neg (fwCheck_nil ▸ nofun))),
    fun ef cf m u v w x y h hb hu hm hv hw hy hx => clocked_acts h ?_,
    fun ef cf u v w x h hb hu hm hv hw hp hx => clocked_acts h ?_,
    fun m x h h2 hF hf hd hx hm => live_acts h (xoLoss_moving h2 hF hf hd hx hm)⟩
  · show execPerstN s = _
    simp only [execPerstN, hr, ht, Bool.or_self, Bool.false_eq_true, if_false]
  · have hu' : firmwareUp t = u := hu.symm
    exact standbyReady_eq hb (.inl ⟨hu' ▸ hm, hu'⟩) hv ((if_neg (Nat.not_lt.2 hp)).trans hw.symm) hx
  · show execResetRelease strap s = _
    rcases hn with hr | ht
    · simp only [execResetRelease, hr, Bool.false_and, Bool.false_eq_true, if_false]
    · simp only [execResetRelease, ht, Bool.not_true, Bool.and_false, Bool.false_eq_true, if_false]
  · show execPerstN s = _
    have hb : (s.boot.inReset || s.pwr.tripped) = true := by simpa using hn
    simp only [execPerstN, hb, if_true]
  · have hu' : firmwareUp t = u := hu.symm
    subst hw
    exact standbyReady_eq hb (.inr ⟨m, hu' ▸ hm, rfl⟩) (hu' ▸ hv) hy.symm hx
  · have hu' : firmwareUp t = u := hu.symm
    exact standbyReady_eq hb (.inl ⟨hu' ▸ hm, hu'⟩) hv ((if_pos hp).trans hw.symm) hx

end Sys2Proof.Machine
end

section
/-! SUPPORT. Proofs about rows of power and health: temperatures, ALERT_N, wakes, pins, moves, PMBus, telemetry and
voltage steps (chapter 17). -/

namespace Sys2Proof.Machine

/-! ## What reports leave of the power state -/

theorem Reports.pwr {s t : State} (h : Reports s t) : t.pwr = s.pwr := (congrArg State.pwr h.rest).symm

@[simp] theorem raise_pwr (e : Nat) (s : State) : (raise e s).pwr = s.pwr := (raise_reports e s).pwr

@[simp] theorem bump_pwr (n : Nat) (s : State) : (bump n s).pwr = s.pwr := (bump_reports n s).pwr

/-! ## Temperature readings -/

theorem tjReading_repeated {x : Int} {t : State} (h : t.pwr.tjEpoch = some (t.tick / 500)) : tjReading x t = t :=
  if_pos h

/-- A reading between the end of the warning and its start, or one that repeats what is known, only is noted. -/
theorem tjReading_noted {x : Int} {t : State} (h : t.pwr.tjEpoch ≠ some (t.tick / 500))
    (h1 : x < 1050 ∨ t.pwr.warn = true) (h2 : x < 1150 ∨ t.pwr.crit = true)
    (h3 : 1000 < x ∨ t.pwr.warn = false ∧ t.pwr.crit = false) :
    tjReading x t = { t with pwr := { t.pwr with tj := x, tjEpoch := some (t.tick / 500) } } := by
  have h1' : (decide (1050 ≤ x) && !t.pwr.warn) = false := by
    rcases h1 with h | h
    · rw [decide_eq_false (by omega), Bool.false_and]
    · rw [h, Bool.not_true, Bool.and_false]
  have h2' : (decide (1150 ≤ x) && !t.pwr.crit) = false := by
    rcases h2 with h | h
    · rw [decide_eq_false (by omega), Bool.false_and]
    · rw [h, Bool.not_true, Bool.and_false]
  have h3' : (decide (x ≤ 1000) && (t.pwr.warn || t.pwr.crit)) = false := by
    rcases h3 with h | ⟨hw, hc⟩
    · rw [decide_eq_false (by omega), Bool.false_and]
    · rw [hw, hc, Bool.or_self, Bool.and_false]
  simp only [tjReading, h, updPwr, h1', h2', h3', Bool.false_eq_true, if_false]

theorem tjReading_warns {x : Int} {t : State} (h : t.pwr.tjEpoch ≠ some (t.tick / 500)) (h1 : 1050 ≤ x) (h2 : x < 1150)
    (hw : t.pwr.warn = false) :
    tjReading x t = raise 0x12 (bump 78 { t with
      pwr := { t.pwr with tj := x, tjEpoch := some (t.tick / 500), warn := true } }) := by
  have h3 : ¬ 1150 ≤ x := by omega
  have h4 : ¬ x ≤ 1000 := by omega
  simp [tjReading, h, updPwr, h1, hw, h3, h4]

theorem tjReading_critical {x : Int} {t : State} (h : t.pwr.tjEpoch ≠ some (t.tick / 500)) (h1 : 1150 ≤ x)
    (hw : t.pwr.warn = true) (hc : t.pwr.crit = false) :
    tjReading x t = raise 0x13 (bump 79 { t with
      pwr := { t.pwr with tj := x, tjEpoch := some (t.tick / 500), crit := true } }) := by
  have h4 : ¬ x ≤ 1000 := by omega
  simp [tjReading, h, updPwr, h1, hw, hc, h4]

theorem tjReading_both {x : Int} {t : State} (h : t.pwr.tjEpoch ≠ some (t.tick / 500)) (h1 : 1150 ≤ x)
    (hw : t.pwr.warn = false) (hc : t.pwr.crit = false) :
    tjReading x t = raise 0x13 (bump 79 (updPwr (fun p => { p with crit := true }) (raise 0x12 (bump 78 { t with
      pwr := { t.pwr with tj := x, tjEpoch := some (t.tick / 500), warn := true } })))) := by
  have h2 : 1050 ≤ x := by omega
  have h4 : ¬ x ≤ 1000 := by omega
  simp [tjReading, h, updPwr, h1, h2, hw, hc, h4]

theorem tjReading_normal {x : Int} {t : State} (h : t.pwr.tjEpoch ≠ some (t.tick / 500)) (h1 : x ≤ 1000)
    (hw : t.pwr.warn = true ∨ t.pwr.crit = true) :
    tjReading x t = raise 0x14 { t with
      pwr := { t.pwr with tj := x, tjEpoch := some (t.tick / 500), warn := false, crit := false } } := by
  have h2 : ¬ 1050 ≤ x := by omega
  have h3 : ¬ 1150 ≤ x := by omega
  simp [tjReading, h, updPwr, h1, h2, h3, hw]

/-! ## ALERT_N -/

theorem foldl_keep {α β : Type} (b : β) (l : List α) : l.foldl (fun b _ => b) b = b := by
  induction l with
  | nil => rfl
  | cons a l ih => exact ih

theorem takeWhile_all {α : Type} {p : α → Bool} {l : List α} (h : ∀ a ∈ l, p a = true) : l.takeWhile p = l := by
  have e := List.takeWhile_append_of_pos (l₂ := []) h
  rwa [List.append_nil, List.takeWhile_nil, List.append_nil] at e

theorem takeWhile_quiet {l quiet rest : List (Nat × Nat × Nat)} {e : Nat × Nat × Nat} {f : Nat}
    (hl : l = quiet ++ e :: rest) (hq : ∀ x ∈ quiet, bit f x.1 = false) (he : bit f e.1 = true) :
    l.takeWhile (fun x => false || !bit f x.1) = quiet := by
  rw [hl, List.takeWhile_append_of_pos fun x hx => by simp [hq x hx]]
  simp [he]

theorem alertRead_fault {f : Nat} {t : State} {quiet rest : List (Nat × Nat × Nat)} {e : Nat × Nat × Nat}
    (hs : pmbStuck t = false) (hl : railMap t = quiet ++ e :: rest) (hq : ∀ x ∈ quiet, bit f x.1 = false)
    (he : bit f e.1 = true) :
    alertRead f t = raise 0x17 (bump 77 (bump 74 (updPwr (fun p => { p with alertAddr := e.2.1 })
      (bumpBy 74 quiet.length t)))) := by
  have hi : (railMap t)[quiet.length]? = some e := by simp [hl]
  simp only [alertRead, hs, takeWhile_quiet hl hq he, hi, Bool.false_eq_true, if_false, foldl_keep]

theorem alertRead_quiet {f : Nat} {t : State} (hs : pmbStuck t = false) (hq : ∀ x ∈ railMap t, bit f x.1 = false) :
    alertRead f t = bumpBy 74 (railMap t).length t := by
  have hall : (railMap t).takeWhile (fun x => false || !bit f x.1) = railMap t :=
    takeWhile_all fun x hx => by simp [hq x hx]
  simp only [alertRead, hs, hall, Bool.false_eq_true, if_false, foldl_keep, List.getElem?_eq_none (Nat.le_refl _)]

/-- With a stuck bus no rail answers. -/
theorem alertRead_stuck {f : Nat} {t : State} (hs : pmbStuck t = true) :
    alertRead f t = (railMap t).foldl (fun s e => pmbFault e.2.1 s) (bumpBy 74 (railMap t).length t) := by
  have hall : (railMap t).takeWhile (fun x => true || !bit f x.1) = railMap t :=
    takeWhile_all fun x _ => rfl
  simp only [alertRead, hs, hall, if_true, List.getElem?_eq_none (Nat.le_refl _)]

/-! ## Voltage steps -/

section Rail
variable {x : State} {e : Nat × Nat × Nat} (hr : (railMap x).find? (·.2.2 == 1) = some e)
include hr

theorem railMap_any_core : (railMap x).any (·.2.2 == 1) = true := by
  obtain ⟨r, hm, hp⟩ := List.find?_isSome.1 (Option.isSome_iff_exists.2 ⟨e, hr⟩)
  exact List.any_eq_true.2 ⟨r, hm, hp⟩

theorem voutCore_sets (v : Nat) (hs : pmbStuck x = false) :
    voutCore v true x = updPwr (fun p => { p with vcore := v }) (bump 74 x) := by
  simp only [voutCore, hr, hs, Bool.not_false, Bool.and_self, if_true]

theorem voutCore_fails {ok : Bool} (v : Nat) (hs : ok = false ∨ pmbStuck x = true) :
    voutCore v ok x = pmbFault e.2.1 (bump 74 x) := by
  have hb : (ok && !pmbStuck x) = false := by rcases hs with h | h <;> simp [h]
  simp only [voutCore, hr, hb, Bool.false_eq_true, if_false]

end Rail

/-- The state of a tick epoch whose voltage step has been taken. -/
def avsTaken (t : State) : State := updPwr (fun p => { p with avsEpoch := some (t.tick / 500) }) t

theorem avsStep_repeated {up down ok : Bool} {t : State} (h : t.pwr.avsEpoch = some (t.tick / 500)) :
    avsStep up down ok t = t := if_pos h

theorem avsTaken_rail {t x : State} {r : Option (Nat × Nat × Nat)} (hx : x = avsTaken t)
    (hr : (railMap t).find? (·.2.2 == 1) = r) : (railMap x).find? (·.2.2 == 1) = r := by
  rw [hx]
  exact hr

section Avs
variable {up down ok : Bool} {t x : State} {e : Nat × Nat × Nat} (hn : t.pwr.avsEpoch ≠ some (t.tick / 500))
  (hx : x = avsTaken t)
include hn hx

theorem avsStep_up (hp : x.parN 0x1000 0 ≠ 0) (hv : x.pwr.vcore < 780)
    (hr : (railMap t).find? (·.2.2 == 1) = some e) (hs : pmbStuck x = false) :
    avsStep true down true t =
      bump 72 (updPwr (fun p => { p with vcore := min 780 (x.pwr.vcore + 5) }) (bump 74 x)) := by
  have hany := railMap_any_core (avsTaken_rail hx hr)
  have hset := voutCore_sets (avsTaken_rail hx hr) (min 780 (x.pwr.vcore + 5)) hs
  subst hx
  unfold avsTaken at *
  simp only [avsStep, hn, hp, hv, hs, hany, hset, if_true, if_false, Bool.not_false, Bool.and_self]

theorem avsStep_up_fails (hp : x.parN 0x1000 0 ≠ 0) (hv : x.pwr.vcore < 780)
    (hr : (railMap t).find? (·.2.2 == 1) = some e) (hs : ok = false ∨ pmbStuck x = true) :
    avsStep true down ok t = pmbFault e.2.1 (bump 74 x) := by
  have hb : (ok && !pmbStuck x) = false := by rcases hs with h | h <;> simp [h]
  have hset := voutCore_fails (avsTaken_rail hx hr) (min 780 (x.pwr.vcore + 5)) hs
  subst hx
  unfold avsTaken at *
  simp only [avsStep, hn, hp, hv, hb, hset, if_true, if_false, Bool.false_and, Bool.false_eq_true]

theorem avsStep_down (hp : x.parN 0x1000 0 ≠ 0) (hv : 620 < x.pwr.vcore)
    (hr : (railMap t).find? (·.2.2 == 1) = some e) (hs : pmbStuck x = false) :
    avsStep false true true t =
      bump 73 (updPwr (fun p => { p with vcore := max 620 (x.pwr.vcore - 5) }) (bump 74 x)) := by
  have hany := railMap_any_core (avsTaken_rail hx hr)
  have hset := voutCore_sets (avsTaken_rail hx hr) (max 620 (x.pwr.vcore - 5)) hs
  subst hx
  unfold avsTaken at *
  simp only [avsStep, hn, hp, hv, hs, hany, hset, if_true, if_false, Bool.not_false, Bool.and_self, decide_true,
    Bool.false_eq_true]

theorem avsStep_limit (hp : x.parN 0x1000 0 ≠ 0) (hv : 780 ≤ x.pwr.vcore)
    (hl : ∀ k, x.pwr.avsLimitTick = some k → 500000 ≤ x.elapsed - k) :
    avsStep true down ok t = raise 0x16 { x with pwr := { x.pwr with avsLimitTick := some x.elapsed } } := by
  have hv' : ¬ x.pwr.vcore < 780 := by omega
  rw [avsStep, if_neg hn, ← avsTaken, ← hx]
  simp only [hp, hv', if_true, if_false]
  cases hk : x.pwr.avsLimitTick with
  | none => rfl
  | some k => exact if_pos (decide_eq_true (hl k hk))

theorem avsStep_stays (hp : x.parN 0x1000 0 ≠ 0) (hd : down = false ∨ x.pwr.vcore ≤ 620) :
    avsStep false down ok t = x := by
  have hb : (down && decide (620 < x.pwr.vcore)) = false := by
    rcases hd with h | h
    · rw [h, Bool.false_and]
    · rw [decide_eq_false (Nat.not_lt.2 h), Bool.and_false]
  subst hx
  unfold avsTaken at *
  simp only [avsStep, hn, hp, hb, if_false, Bool.false_eq_true]

/-- With the steps switched off the core rail returns to the voltage it started with. -/
theorem avsStep_off (hp : x.parN 0x1000 0 = 0) (hv : x.pwr.vcore ≠ startVcore)
    (hr : (railMap t).find? (·.2.2 == 1) = some e) (hs : pmbStuck x = false) :
    avsStep up down true t = updPwr (fun p => { p with vcore := startVcore }) (bump 74 x) := by
  have hset := voutCore_sets (avsTaken_rail hx hr) startVcore hs
  subst hx
  unfold avsTaken at *
  simp only [avsStep, hn, hp, hv, hset, if_true, if_false]

end Avs

/-! ## PMBus transactions, wakes and moves -/

theorem pmbusDone_answers {fails : Nat} {data : Bytes} {r : PmbReq} {rest : List PmbReq} {t : State}
    (h : t.pwr.pmb = r :: rest) (hs : pmbStuck t = false) (hf : fails ≠ 3) :
    pmbusDone fails data t = finish r.owner (.ok (if 3 ≤ r.kind then
        unle (data.take (if r.kind = 3 then 1 else if r.kind = 4 then 2 else 8)) else 0))
      (bumpBy 75 fails (bump 74 { t with pwr := { t.pwr with pmb := rest } })) := by
  have hb : (fails == 3 || pmbStuck t) = false := by simp [hf, hs]
  simp only [pmbusDone, h, hb, Bool.false_eq_true, if_false, updPwr]

theorem pmbusDone_fails {fails : Nat} {data : Bytes} {r : PmbReq} {rest : List PmbReq} {t : State}
    (h : t.pwr.pmb = r :: rest) (hf : fails = 3 ∨ pmbStuck t = true) :
    pmbusDone fails data t =
      finish r.owner (.st 0x1101) (pmbFault r.addr (bump 74 { t with pwr := { t.pwr with pmb := rest } })) := by
  have hb : (fails == 3 || pmbStuck t) = true := by simpa using hf
  simp only [pmbusDone, h, hb, if_true, updPwr]

theorem wakeDone_wakes {t x : State} (h1 : t.pwr.state = 1) (h2 : t.pwr.waking = true)
    (hx : x = tmRestart (pllTo .freerun (voutCore startVcore true
      { t with pwr := { t.pwr with state := 2, waking := false } }))) :
    wakeDone t = raise 0x1B (bump (68 + x.pwr.wakeSource) (bump 65 x)) := by
  rw [hx]
  exact if_pos ⟨h1, h2⟩

section Move
variable {m : PwrMove} {t : State} (h : stopped t = false) (hm : t.pwr.move = some m) (hb : m.begun = true)

include h hm in
theorem moveEnds {u : State} (hu : moveEnd m t = u) : exec (.pwrTransitionDone none) t = .next (settle u) := by
  show execPwrTransitionDone none t = _
  unfold execPwrTransitionDone
  exact within_acts h (by simp only [hm, hu])

include hb in
theorem moveEnd_runs (ht : m.target ≠ 1) (hw : runMask t = m.want) : moveEnd m t = moveDone m t := by
  simp only [moveEnd, hb, ht, hw, Bool.not_true, Bool.false_eq_true, if_true, if_false]

include hb in
theorem moveEnd_parks (ht : m.target = 1) (hp : parkBlocked t = false) : moveEnd m t = parkEnter m t := by
  simp only [moveEnd, hb, ht, hp, Bool.not_true, Bool.false_eq_true, if_true, if_false]

include h hm hb in
theorem moveRail_fails {k : Fin 8} {e : Nat × Nat × Nat} (h0 : m.had = 0) (hw : m.want ≠ 0)
    (he : (railsOwned t).find? (·.1 == k.val) = some e) :
    exec (.pwrTransitionDone (some k)) t = .next (settle (moveFailed m (pmbFault e.2.1 t))) := by
  have hbad : (m.begun && m.had == 0 && m.want != 0) = true := by simp [hb, h0, hw]
  show execPwrTransitionDone (some k) t = _
  unfold execPwrTransitionDone
  exact within_acts h (by simp only [hm, he, hbad, if_true])

end Move

theorem gateOne_due {t : State} {g : GateReq} (h : t.pwr.gates.find? (fun g => g.due ≤ t.elapsed) = some g) :
    gateOne t = gateApply g t := by
  rw [gateOne, h]

/-- Settles O36. -/
theorem powerEventsAct : Obligations.PowerEventsAct := by
  intro s t
  exact ⟨fun x h h1 h2 hn => clocked_acts h (tjReading_noted hn (.inl h2) (.inl (by omega)) (.inl h1)),
    fun x h h1 h2 hw hn => clocked_acts h (tjReading_warns hn h1 h2 hw),
    fun x h h1 hw hn => clocked_acts h (tjReading_normal hn h1 hw),
    fun f quiet e rest h hs hl hq he => clocked_acts h (alertRead_fault hs hl hq he),
    fun g falling h h1 h2 => show execGpioWakeEdge g falling s = _ from live_acts h (if_pos (by simp [h1, h2])),
    fun x h h1 h2 hx => live_acts h (wakeDone_wakes h1 h2 hx),
    fun pin h hd => show execPinContention pin s = _ from clocked_acts h (if_pos hd),
    fun pin h hd hs => show execOpenDrainStuck pin s = _ from clocked_acts h (if_pos (by simp [hd, hs])),
    fun m h hm hb ht hw => moveEnds h hm (moveEnd_runs hb ht hw),
    fun m h hm hb ht hp => moveEnds h hm (moveEnd_parks hb ht hp),
    fun k m e h hm hb h0 hw he => moveRail_fails h hm hb h0 hw he,
    fun g h hg => within_acts h (gateOne_due hg),
    fun fails data r rest h hr hs hf => clocked_acts h (pmbusDone_answers hr hs hf),
    fun reads h he => clocked_acts h (if_neg (Nat.not_lt.2 he)),
    fun e x h hn _ hx hp hv hr hs => clocked_acts h (avsStep_up hn hx hp hv hr hs),
    fun x h h1 h2 hw hn => clocked_acts h (tjReading_noted hn (.inr hw) (.inl h2) (.inl (by omega))),
    fun x h h1 hw hc hn => clocked_acts h (tjReading_critical hn h1 hw hc),
    fun x h h1 hw hc hn => clocked_acts h (tjReading_both hn h1 hw hc),
    fun x h h1 hw hc hn => clocked_acts h (tjReading_noted hn (.inr hw) (.inr hc) (.inl (by omega))),
    fun x h h1 hw hc hn =>
      clocked_acts h (tjReading_noted hn (.inl (by omega)) (.inl (by omega)) (.inr ⟨hw, hc⟩)),
    fun f h hs hq => clocked_acts h (alertRead_quiet hs hq),
    fun f h hs => clocked_acts h (alertRead_stuck hs),
    fun fails data r rest x h hr hx hf => clocked_acts h (hx ▸ pmbusDone_fails hr hf),
    fun down ok e x h hn hx hp hv hr hs => clocked_acts h (avsStep_up_fails hn hx hp hv hr hs),
    fun e x h hn hx hp hv hr hs => clocked_acts h (avsStep_up hn hx hp hv hr hs),
    fun e x h hn hx hp hv hr hs => clocked_acts h (avsStep_down hn hx hp hv hr hs),
    fun down ok x h hn hx hp hv hl => clocked_acts h (avsStep_limit hn hx hp hv hl),
    fun down ok x h hn hx hp hd => clocked_acts h (avsStep_stays hn hx hp hd),
    fun up down e x h hn hx hp hv hr hs => clocked_acts h (avsStep_off hn hx hp hv hr hs),
    fun x h he => clocked_acts h (tjReading_repeated he),
    fun up down ok h he => clocked_acts h (avsStep_repeated he)⟩

end Sys2Proof.Machine
end

section
/-! SUPPORT. Proofs about references, time of day and the receiver's state machine (R153; chapters 05 and 12). -/

namespace Sys2Proof.Machine

/-! ## References and time of day -/

theorem wtrIfDone_done {r e : Nat} {t : State} (h : (getRef t r).wtrEnd = some e) (he : e ≤ t.elapsed) :
    wtrIfDone r t = raise 0x24 (updRef r (fun x => { x with wtrEnd := none }) t) := by
  rw [wtrIfDone, h]
  exact if_pos he

section TimeOfDay
variable {s t : State} {bytes : Bytes} (h : Running s t) (hon : bit (t.parN 0x2013 0) 1 = true)
include h hon

theorem todRx_valid (hl : bytes.length = 16) (hs : slice bytes 0 3 = [0xA5, 0x5A, 0x01])
    (hc : unbe (slice bytes 14 2) = todCrc (bytes.take 14)) :
    exec (.todRxMessage bytes) s = .next (settle (raise 0x2A (bump 146 { t with
      tm := { t.tm with todTick := t.tick, todMsg := bytes } }))) :=
  show execTodRxMessage bytes s = _ from
    clocked_acts h ((if_neg (by simp [hon])).trans (if_pos (by rw [hl, hs, hc]; simp)))

theorem todRx_bad (hb : bytes.length ≠ 16 ∨ slice bytes 0 3 ≠ [0xA5, 0x5A, 0x01] ∨
      unbe (slice bytes 14 2) ≠ todCrc (bytes.take 14)) :
    exec (.todRxMessage bytes) s = .next (settle (raise 0x2B (bump 147 t))) :=
  show execTodRxMessage bytes s = _ from clocked_acts h ((if_neg (by simp [hon])).trans (if_neg fun hgood => by
    simp only [Bool.and_eq_true, beq_iff_eq] at hgood
    obtain ⟨⟨hl, hs⟩, hc⟩ := hgood
    exact hb.elim (· hl) (·.elim (· hs) (· hc))))

end TimeOfDay

/-- Settles O37. -/
theorem timingEventsAct : Obligations.TimingEventsAct := by
  intro s t
  exact ⟨fun r h hd => clocked_acts h (if_pos hd),
    fun r h hq hr => clocked_acts h (if_pos (by simp [hq, hr])),
    fun r e h he hd => clocked_acts h (wtrIfDone_done he hd),
    fun h hd => clocked_acts h (if_pos hd),
    fun h ha hf => clocked_acts h (if_pos (by simp [ha, hf])),
    fun o h hd => clocked_acts h (if_pos hd),
    fun h hon ht hs => clocked_acts h (if_pos (by simp [hon, ht, hs])),
    fun bytes h hon hl hs hc => todRx_valid h hon hl hs hc,
    fun bytes h hon hl => todRx_bad h hon (.inl hl),
    fun bytes h hon hb => todRx_bad h hon (.inr hb),
    fun bytes h hoff => show execTodRxMessage bytes s = _ from clocked_acts h (if_pos (by simp [hoff]))⟩

/-! ## The receiver -/

theorem cdScanDone_fixed {c : Line} {t : State} (hd : scanDone t c = true) (hf : (getRx t c).scanFixed = true) :
    cdScanDone c t = enterTiming c (getRx t c).scanMin (updRx c (fun r => { r with cands := [] }) t) := by
  simp only [cdScanDone, hd, hf, Bool.not_true, Bool.false_eq_true, if_true, if_false]

theorem cdScanDone_best {c : Line} {t : State} {v : Int} {rest : List Int} (hd : scanDone t c = true)
    (hf : (getRx t c).scanFixed = false) (hb : bestScores 3 (getRx t c).fine = v :: rest) :
    cdScanDone c t = enterTiming c v (updRx c (fun r => { r with cands := rest }) t) := by
  simp only [cdScanDone, hd, hf, hb, Bool.not_true, Bool.false_eq_true, if_false]

theorem acqTimeout_due {c : Line} {t : State} {k : Nat} (hk : (getRx t c).timer = some k)
    (hs : (getRx t c).st = .cdScan ∨ (getRx t c).st = .timing ∨ (getRx t c).st = .equalise)
    (hd : k + t.parN 0x4011 c.inst ≤ t.elapsed) :
    acqTimeout c t = raise (lineEvt 0x40 c 3) (bump (rxCnt c 2) (enterScan c (startTimer c
      (updRx c (fun r => { r with acqStart := t.elapsed }) t)))) := by
  simp only [acqTimeout, hk, hs, hd, and_self, if_true]

theorem lockLoss_leaves {c : Line} {t x : State} (hr : lossReason t c ≠ 0) (hx : x = leaveTracking c (lossReason t c) t) :
    lockLoss c t = enterTiming c (heldValue (startTimer c (updRx c (fun r => { r with
      acqStart := t.elapsed, held := true, cands := [] }) x)) c) (startTimer c (updRx c (fun r => { r with
      acqStart := t.elapsed, held := true, cands := [] }) x)) := by
  rw [hx]
  exact if_neg hr

theorem modeRevert_due {c : Line} {t : State} {m : RxMode} (hs : (getRx t c).st = .tracking)
    (hn : 256 ≤ (getRx t c).noConv) (hm : m = {
      const := t.parN 0x4001 c.inst, k := t.parN 0x4002 c.inst, roll := t.parN 0x4003 c.inst, rate := t.parN 0x4004 c.inst }) :
    modeRevert c t = raise (lineEvt 0x40 c 7) (updRx c (fun r => { r with
      modeDue := if r.mode = m then r.modeDue else some (m, 3), noConv := 0 }) t) := by
  rw [hm]
  exact if_pos ⟨hs, hn⟩

/-- Settles O38. -/
theorem receiverTransitionsAct : Obligations.ReceiverTransitionsAct := by
  intro s t
  exact ⟨fun c h hr hl => show execConverterRetuneDone c s = _ from clocked_acts h (if_pos (by simp [hr, hl])),
    fun c h hs ha => clocked_acts h (if_pos ⟨hs, ha⟩),
    fun c h h1 h2 hb => clocked_acts h (if_pos ⟨h1, h2, hb⟩),
    fun c coarse best h hd hf hfix => show execCdScanDone c coarse best s = _ from
      clocked_acts h ((if_pos hf).trans (cdScanDone_fixed hd hfix)),
    fun c coarse best v rest h hd hf hfix hb => show execCdScanDone c coarse best s = _ from
      clocked_acts h ((if_pos hf).trans (cdScanDone_best hd hfix hb)),
    fun c h hs hg => clocked_acts h (if_pos ⟨hs, hg⟩),
    fun c h hs hg => clocked_acts h (if_pos ⟨hs, hg⟩),
    fun c h hs he => clocked_acts h (if_pos ⟨hs, he⟩),
    fun c h hs he => clocked_acts h (if_pos ⟨hs, he⟩),
    fun c h hs hc => clocked_acts h (if_pos ⟨hs, hc⟩),
    fun c k h hk hs hd hm => show execAcquisitionTimeout c s = _ from
      clocked_acts h ((if_neg (Bool.eq_false_iff.1 hm)).trans (acqTimeout_due hk hs hd)),
    fun c h hs hf => clocked_acts h (if_pos ⟨hs, hf⟩),
    fun c x h hr hx => clocked_acts h (lockLoss_leaves hr hx),
    fun c m h hs hn hm => clocked_acts h (modeRevert_due hs hn hm)⟩

end Sys2Proof.Machine
end

section
/-! SUPPORT. Proofs about the decoder's rows and frame alignment (chapters 06 and 07). -/

namespace Sys2Proof.Machine

/-! ## The decoder -/

theorem poolAt_some {p : State → Bool} {t x : State} (h : poolUntil p (poolRest t) t = some x) : poolAt p t = x := by
  rw [poolAt, h, Option.getD_some]

/-- The codeword as its time to leave finds it: decoding ended with what it has. -/
def decodingCut (j : Job) (s : State) : State :=
  match cwAt s j with
  | some (.waiting llr n) =>
    firstEnds false j (if n = 0 ∧ (drawAny j s).isNone then .starved else .deadline) llr n s
  | some (.failed o _ bits _) => fecOnce j.c 5 (bump (fecCnt j.c 5) (setCw j (.decided o false bits) (noteOutcome j o s)))
  | _ => s

/-- A decided codeword leaves; a bad one is counted. -/
def releaseDecided (j : Job) (s : State) : State :=
  match cwAt s j with
  | some (.decided _ good bits) =>
    if good then setCw j (.released good bits) s
    else fecOnce j.c 0 (updFecC j.c (fun f => { f with sumBad := f.sumBad + 1 }) (setCw j (.released good bits) s))
  | _ => s

theorem releaseCw_eq (j : Job) (s : State) : releaseCw j s = releaseDecided j (decodingCut j s) := rfl

section Release
variable {j : Job} {x : State}

theorem decodingCut_decided {o : Outcome} {good : Bool} {bs : List Bool} (h : cwAt x j = some (.decided o good bs)) :
    decodingCut j x = x := by
  simp only [decodingCut, h]

theorem decodingCut_waiting {llr : List Int} {n : Nat} (h : cwAt x j = some (.waiting llr n)) :
    decodingCut j x = firstEnds false j (if n = 0 ∧ drawAny j x = none then .starved else .deadline) llr n x := by
  simp only [decodingCut, h, Option.isNone_iff_eq_none]

theorem decodingCut_failed {o : Outcome} {llr : List Int} {bs : List Bool} {n : Nat}
    (h : cwAt x j = some (.failed o llr bs n)) :
    decodingCut j x = fecOnce j.c 5 (bump (fecCnt j.c 5) (setCw j (.decided o false bs) (noteOutcome j o x))) := by
  simp only [decodingCut, h]

theorem releaseDecided_good {o : Outcome} {bs : List Bool} (h : cwAt x j = some (.decided o true bs)) :
    releaseDecided j x = setCw j (.released true bs) x := by
  simp only [releaseDecided, h, if_true]

theorem releaseDecided_bad {o : Outcome} {bs : List Bool} (h : cwAt x j = some (.decided o false bs)) :
    releaseDecided j x = fecOnce j.c 0 (updFecC j.c (fun f => { f with sumBad := f.sumBad + 1 })
      (setCw j (.released false bs) x)) := by
  simp only [releaseDecided, h, Bool.false_eq_true, if_false]

end Release

/-- CODEWORD_RELEASE runs the pool until the codeword's round and then releases it. -/
theorem codewordRelease_acts {c : Line} {cw : Fin 1024} {j : Job} {s t x u : State} (h : Running s t)
    (hj : j = jobOf t c cw.val) (ha : releaseAhead t j = true)
    (hp : poolUntil (fun s => (leaveRound s j).any fun r => r ≤ s.fec.round) (poolRest t) t = some x)
    (hu : releaseDecided j (decodingCut j x) = u) : exec (.codewordRelease c cw) s = .next (settle u) :=
  show execCodewordRelease c cw s = _ from
    clocked_acts h (hj ▸ (if_pos ha).trans ((congrArg (releaseCw j) (poolAt_some hp)).trans hu))

theorem codewordRelease_early {c : Line} {cw : Fin 1024} {s t : State} (h : Running s t)
    (ha : releaseAhead t (jobOf t c cw.val) = false) : exec (.codewordRelease c cw) s = .next (settle t) :=
  show execCodewordRelease c cw s = _ from clocked_acts h (if_neg (Bool.eq_false_iff.1 ha))

/-- Settles O39. -/
theorem decoderEventsAct : Obligations.DecoderEventsAct := by
  intro s t
  exact ⟨fun c frame cw j x h hj hi hp => show execDecodeEnd c frame cw s = _ from
      clocked_acts h (hj ▸ (if_pos hi).trans (poolAt_some hp)),
    fun c cw j x h hj hi hp => show execRedecodeStart c cw s = _ from
      clocked_acts h (hj ▸ (if_pos (Option.isSome_iff_ne_none.2 hi)).trans (poolAt_some hp)),
    fun c cw j x o bs h hj ha hp hc => codewordRelease_acts h hj ha hp
      ((congrArg _ (decodingCut_decided hc)).trans (releaseDecided_good hc)),
    fun c cw j x o bs h hj ha hp hc => codewordRelease_acts h hj ha hp
      ((congrArg _ (decodingCut_decided hc)).trans (releaseDecided_bad hc)),
    fun core pass h hd => show execCoreSelfTest core pass s = _ from clocked_acts h (if_pos hd),
    fun c cw j x y llr n h hj ha hp hc hy => codewordRelease_acts h hj ha hp
      ((congrArg _ ((decodingCut_waiting hc).trans hy.symm)).trans rfl),
    fun c cw j x y o llr bs n p ds h hj ha hp hc hy hd => codewordRelease_acts h hj ha hp
      ((congrArg _ ((decodingCut_failed hc).trans hy.symm)).trans (releaseDecided_bad hd)),
    fun c cw h ha => codewordRelease_early h ha,
    fun c frame cw h hn => show execDecodeEnd c frame cw s = _ from clocked_acts h (if_neg hn),
    fun c cw h hn => show execRedecodeStart c cw s = _ from clocked_acts h (if_neg (by simp [hn]))⟩

/-! ## Frame alignment -/

theorem lineNext_frame {c : Line} {lag : Option Int} {t : State} {f : DecFrame} {rest : List DecFrame} {m : Mode}
    (h : (getFec t c).ready = f :: rest)
    (hm : m = { n := f.n, const := f.mode.const, k := f.mode.k, rate := f.mode.rate, roll := f.mode.roll }) :
    lineNext c lag t = lineRx c (frameIn f) lag (updFecC c (fun x => { x with
      ready := rest, taken := true, frameBad := badWords f, frameK := max 1 m.perWord, frameSlots := m.slots }) t) := by
  simp only [lineNext, h, hm]

section Gcc
variable {c : Line} {t x : State} {m : GccMsg} {rest : List GccMsg} (h : (getFrm t c).gcc.done = m :: rest)
  (hx : x = updFrm c (fun f => { f with gcc := { f.gcc with done := rest } }) t)
include h hx

theorem gccPass_queued (hc : m.chan ≠ 2) (hq : (getFrm x c).gcc.queue.length < 16) :
    gccPass c t = raise (lineEvt 0x60 c 5) (bump (frmCnt c 10)
      (updFrm c (fun f => { f with gcc := { f.gcc with queue := f.gcc.queue ++ [m] } }) x)) := by
  simp only [gccPass, h, ← hx, hc, hq, if_true, if_false]

theorem gccPass_full (hc : m.chan ≠ 2) (hq : 16 ≤ (getFrm x c).gcc.queue.length) :
    gccPass c t = bump (frmCnt c 12) x := by
  simp only [gccPass, h, ← hx, hc, Nat.not_lt.2 hq, if_false]

/-- Messages of the key exchange's channel go to the carrier's exchange. -/
theorem gccPass_keys (hc : m.chan = 2) :
    gccPass c t = bump (frmCnt c 10) (match c with
      | .a => { x with cry := { x.cry with a := { x.cry.a with msgs := x.cry.a.msgs ++ [m.bytes] } } }
      | .b => { x with cry := { x.cry with b := { x.cry.b with msgs := x.cry.b.msgs ++ [m.bytes] } } }) := by
  cases c <;> simp only [gccPass, h, ← hx, hc, if_true]

end Gcc

/-- Settles O40. -/
theorem frameEventsAct : Obligations.FrameEventsAct := by
  intro s t
  exact ⟨fun c lag f rest m h hf hm => clocked_acts h (lineNext_frame hf hm),
    fun c h hi hr hl => clocked_acts h (if_pos (by simp [hi, hr, hl])),
    fun c h hi hm => clocked_acts h (if_pos (by simpa [hi] using hm)),
    fun c h hi ho => clocked_acts h (if_pos (by simp [hi, ho])),
    fun c h hi ho => clocked_acts h (if_pos (by simp [hi, ho])),
    fun c m rest x h hd hx hc hq => clocked_acts h (gccPass_queued hd hx hc hq),
    fun c m rest x h hd hx hc hq => clocked_acts h (gccPass_full hd hx hc hq),
    fun m rest x h hd hx hc => clocked_acts h (gccPass_keys hd hx hc),
    fun m rest x h hd hx hc => clocked_acts h (gccPass_keys hd hx hc)⟩

end Sys2Proof.Machine
end

section
/-! SUPPORT. Proofs about client lanes and timestamped packets (chapter 08). -/

namespace Sys2Proof.Machine

/-! ## What updates leave of a client -/

/-- A view that a change keeps is kept in a list changed in one place. -/
theorem getD_lmod_view {α β : Type} {g : α → β} {f : α → α} (h : ∀ x, g (f x) = g x) (l : List α) (i k : Nat) (d : α) :
    g ((lmod l i f).getD k d) = g (l.getD k d) := by
  simp only [lmod, List.getD_eq_getElem?_getD, List.getElem?_modify]
  cases l[k]? with
  | none => rfl
  | some x => by_cases hi : i = k <;> simp [hi, h]

theorem Reports.cli {s t : State} (h : Reports s t) : t.cli = s.cli := (congrArg State.cli h.rest).symm

theorem getCli_bump (n i : Nat) (s : State) : getCli (bump n s) i = getCli s i :=
  congrArg (fun c : Cli => c.clients.getD i {}) (bump_reports n s).cli

theorem tsIn_lastPkt (i : Nat) (b : Bytes) (s : State) :
    (getCli (updCli i (fun x => { x with lastPkt := b }) s) i).tsIn = (getCli s i).tsIn :=
  getD_lmod_view (g := Client.tsIn) (f := fun x => { x with lastPkt := b }) (fun _ => rfl) s.cli.clients i i {}

theorem tsOut_lastPkt (i : Nat) (b : Bytes) (s : State) :
    (getCli (updCli i (fun x => { x with lastPkt := b }) s) i).tsOut = (getCli s i).tsOut :=
  getD_lmod_view (g := Client.tsOut) (f := fun x => { x with lastPkt := b }) (fun _ => rfl) s.cli.clients i i {}

/-! ## Timestamped packets -/

/-- The timestamp entry of a packet that is not edited. -/
def tsEntry (t : State) (ns frac : Nat) (pkt e : Bytes) (k : Nat) : TsEnt :=
  { seconds := t.tick / tps, nanos := t.tick % tps * 2000 + ns, frac := frac, filter := k, oneStep := false,
    sig := unle (slice pkt (byteAt e 3) 2) }

section Packet
variable {i ns frac k : Nat} {pkt e : Bytes} {t u : State} (hon : cliOn t i = true)
  (hone : (bit (byteAt e 0) 2 && decide (byteAt e 4 + 10 ≤ pkt.length)) = false)
  (hu : (if (bit (byteAt e 0) 2 && !decide (byteAt e 4 + 10 ≤ pkt.length)) = true then bump (cliCnt i 17) t else t) = u)
include hon hone hu

theorem tsPacket_rx (hf : ((chunks 40 (t.par 0x7010 (0x40 + i))).zipIdx.find? fun e =>
      bit (byteAt e.1 0) 0 && tsMatch e.1 pkt) = some (e, k)) :
    tsPacket i .rx ns frac pkt t =
      if 64 ≤ (getCli (updCli i (fun x => { x with lastPkt := pkt }) u) i).tsIn.length then
        cliOnce 0x7C (bump (cliCnt i 15) (updCli i (fun x => { x with lastPkt := pkt }) u))
      else raiseIf (getCli (updCli i (fun x => { x with lastPkt := pkt }) u) i).tsIn.isEmpty 0x79
        (bump (cliCnt i 13) (updCli i (fun x => { x with tsIn := x.tsIn ++ [tsEntry t ns frac pkt e k] })
          (updCli i (fun x => { x with lastPkt := pkt }) u))) := by
  simp only [tsPacket, hf, hon, hone, hu, tsEntry, Bool.not_true, Bool.false_eq_true, if_true, if_false, ite_self,
    List.append_nil]

theorem tsPacket_tx (hf : ((chunks 40 (t.par 0x7010 (0x40 + i))).zipIdx.find? fun e =>
      bit (byteAt e.1 0) 1 && tsMatch e.1 pkt) = some (e, k)) :
    tsPacket i .tx ns frac pkt t =
      if 64 ≤ (getCli (updCli i (fun x => { x with lastPkt := pkt }) u) i).tsOut.length then
        cliOnce 0x7C (bump (cliCnt i 16) (updCli i (fun x => { x with lastPkt := pkt }) u))
      else raiseIf (getCli (updCli i (fun x => { x with lastPkt := pkt }) u) i).tsOut.isEmpty 0x79
        (bump (cliCnt i 14) (updCli i (fun x => { x with tsOut := x.tsOut ++ [tsEntry t ns frac pkt e k] })
          (updCli i (fun x => { x with lastPkt := pkt }) u))) := by
  simp only [tsPacket, hf, hon, hone, hu, tsEntry, Bool.not_true, Bool.false_eq_true, if_true, if_false, ite_self,
    List.append_nil, Nat.one_ne_zero, Nat.reduceAdd]

end Packet

theorem getCli_counted {c : Bool} {n i : Nat} {t u : State} (hu : (if c = true then bump n t else t) = u) :
    getCli u i = getCli t i := by
  rw [← hu]
  split
  · exact getCli_bump n i t
  · rfl

/-- A packet with a filter that asks for no edit, or for one it is too short for. -/
theorem noEdit_iff {e pkt : Bytes} (h : bit (byteAt e 0) 2 = false ∨ pkt.length < byteAt e 4 + 10) :
    (bit (byteAt e 0) 2 && decide (byteAt e 4 + 10 ≤ pkt.length)) = false := by
  rcases h with h | h
  · rw [h, Bool.false_and]
  · rw [decide_eq_false (Nat.not_le.2 h), Bool.and_false]

/-- An edit that was skipped is counted. -/
theorem editSkipped {e pkt : Bytes} {i : Nat} {t : State} (h1 : bit (byteAt e 0) 2 = true)
    (h2 : pkt.length < byteAt e 4 + 10) :
    (if (bit (byteAt e 0) 2 && !decide (byteAt e 4 + 10 ≤ pkt.length)) = true then bump (cliCnt i 17) t else t) =
      bump (cliCnt i 17) t :=
  if_pos (by rw [h1, decide_eq_false (Nat.not_le.2 h2)]; rfl)

theorem noEditAsked {e pkt : Bytes} {i : Nat} {t : State} (h : bit (byteAt e 0) 2 = false) :
    (if (bit (byteAt e 0) 2 && !decide (byteAt e 4 + 10 ≤ pkt.length)) = true then bump (cliCnt i 17) t else t) = t :=
  if_neg (by simp [h])

section Rows
variable {i ns frac k : Nat} {pkt e : Bytes} {t u : State} (hon : cliOn t i = true)
  (hone : bit (byteAt e 0) 2 = false ∨ pkt.length < byteAt e 4 + 10)
  (hu : (if (bit (byteAt e 0) 2 && !decide (byteAt e 4 + 10 ≤ pkt.length)) = true then bump (cliCnt i 17) t else t) = u)
include hon hone hu

section Receive
variable (hf : ((chunks 40 (t.par 0x7010 (0x40 + i))).zipIdx.find? fun e =>
  bit (byteAt e.1 0) 0 && tsMatch e.1 pkt) = some (e, k))
include hf

theorem tsPacket_rx_first (hq : (getCli t i).tsIn = []) :
    tsPacket i .rx ns frac pkt t = raise 0x79 (bump (cliCnt i 13) (updCli i (fun x => { x with
      tsIn := x.tsIn ++ [tsEntry t ns frac pkt e k] }) (updCli i (fun x => { x with lastPkt := pkt }) u))) := by
  rw [tsPacket_rx hon (noEdit_iff hone) hu hf, tsIn_lastPkt, getCli_counted hu, hq]
  rfl

theorem tsPacket_rx_next (hq : (getCli t i).tsIn ≠ []) (hl : (getCli t i).tsIn.length < 64) :
    tsPacket i .rx ns frac pkt t = bump (cliCnt i 13) (updCli i (fun x => { x with
      tsIn := x.tsIn ++ [tsEntry t ns frac pkt e k] }) (updCli i (fun x => { x with lastPkt := pkt }) u)) := by
  rw [tsPacket_rx hon (noEdit_iff hone) hu hf, tsIn_lastPkt, getCli_counted hu, if_neg (Nat.not_le.2 hl), raiseIf,
    if_neg (by simpa using hq)]

theorem tsPacket_rx_full (hl : 64 ≤ (getCli t i).tsIn.length) :
    tsPacket i .rx ns frac pkt t = cliOnce 0x7C (bump (cliCnt i 15) (updCli i (fun x => { x with lastPkt := pkt }) u)) := by
  rw [tsPacket_rx hon (noEdit_iff hone) hu hf, tsIn_lastPkt, getCli_counted hu, if_pos hl]

end Receive

section Transmit
variable (hf : ((chunks 40 (t.par 0x7010 (0x40 + i))).zipIdx.find? fun e =>
  bit (byteAt e.1 0) 1 && tsMatch e.1 pkt) = some (e, k))
include hf

theorem tsPacket_tx_first (hq : (getCli t i).tsOut = []) :
    tsPacket i .tx ns frac pkt t = raise 0x79 (bump (cliCnt i 14) (updCli i (fun x => { x with
      tsOut := x.tsOut ++ [tsEntry t ns frac pkt e k] }) (updCli i (fun x => { x with lastPkt := pkt }) u))) := by
  rw [tsPacket_tx hon (noEdit_iff hone) hu hf, tsOut_lastPkt, getCli_counted hu, hq]
  rfl

theorem tsPacket_tx_next (hq : (getCli t i).tsOut ≠ []) (hl : (getCli t i).tsOut.length < 64) :
    tsPacket i .tx ns frac pkt t = bump (cliCnt i 14) (updCli i (fun x => { x with
      tsOut := x.tsOut ++ [tsEntry t ns frac pkt e k] }) (updCli i (fun x => { x with lastPkt := pkt }) u)) := by
  rw [tsPacket_tx hon (noEdit_iff hone) hu hf, tsOut_lastPkt, getCli_counted hu, if_neg (Nat.not_le.2 hl), raiseIf,
    if_neg (by simpa using hq)]

theorem tsPacket_tx_full (hl : 64 ≤ (getCli t i).tsOut.length) :
    tsPacket i .tx ns frac pkt t = cliOnce 0x7C (bump (cliCnt i 16) (updCli i (fun x => { x with lastPkt := pkt }) u)) := by
  rw [tsPacket_tx hon (noEdit_iff hone) hu hf, tsOut_lastPkt, getCli_counted hu, if_pos hl]

end Transmit
end Rows

/-! ## Squelch -/

theorem setSquelch_changes {i : Nat} {t : State} (hon : cliOn t i = true)
    (h : (getCli t i).squelch ≠ squelchWanted t i) :
    setSquelch t i = raise 0x78 (lanesNow (updCli i (fun x => { x with squelch := squelchWanted t i }) t)) := by
  simp only [setSquelch, hon, if_true, raiseIf]
  exact if_pos (by simpa using h)

theorem setSquelch_off {i : Nat} {t : State} (hoff : cliOn t i = false) :
    setSquelch t i = lanesNow (updCli i (fun x => { x with squelch := (getCli t i).squelch }) t) := by
  simp only [setSquelch, hoff, raiseIf, bne_self_eq_false, Bool.false_eq_true, if_false]

/-- Settles O41. -/
theorem clientEventsAct : Obligations.ClientEventsAct := by
  intro s t
  exact ⟨fun cl h hd => clocked_acts h (if_pos hd),
    fun cl h hon hs => show execSquelchDelayExpiry cl s = _ from clocked_acts h (setSquelch_changes hon hs),
    fun cl al h hon hup ha => clocked_acts h (if_pos (by simp [hon, hup, ha])),
    fun lane ok h hp hk => show execLaneClockChange lane ok s = _ from clocked_acts h (if_pos (by simp [hp, hk])),
    fun cl ns frac pkt e k h hon hf h1 hq => clocked_acts h (tsPacket_rx_first hon (.inl h1) (noEditAsked h1) hf hq),
    fun cl ns frac pkt e k h hon hf h1 hq hl =>
      clocked_acts h (tsPacket_rx_next hon (.inl h1) (noEditAsked h1) hf hq hl),
    fun cl ns frac pkt e k h hon hf h1 hl => clocked_acts h (tsPacket_rx_full hon (.inl h1) (noEditAsked h1) hf hl),
    fun cl ns frac pkt e k h hon hf h1 h2 hq =>
      clocked_acts h (tsPacket_rx_first hon (.inr h2) (editSkipped h1 h2) hf hq),
    fun cl ns frac pkt e k h hon hf h1 hq => clocked_acts h (tsPacket_tx_first hon (.inl h1) (noEditAsked h1) hf hq),
    fun cl ns frac pkt e k h hon hf h1 hq hl =>
      clocked_acts h (tsPacket_tx_next hon (.inl h1) (noEditAsked h1) hf hq hl),
    fun cl ns frac pkt e k h hon hf h1 hl => clocked_acts h (tsPacket_tx_full hon (.inl h1) (noEditAsked h1) hf hl),
    fun cl ns frac pkt e k h hon hf h1 h2 hq =>
      clocked_acts h (tsPacket_tx_first hon (.inr h2) (editSkipped h1 h2) hf hq),
    fun cl h hoff => show execSquelchDelayExpiry cl s = _ from clocked_acts h (setSquelch_off hoff)⟩

end Sys2Proof.Machine
end

section
/-! SUPPORT. Proofs about the messages and timers of key exchanges and about keys (chapter 09). -/

namespace Sys2Proof.Machine

theorem keTake_front {c : Line} {ty : Nat} {f : Bytes → State → State} {t : State} {m : Bytes} {rest : List Bytes}
    (h : (getCry t c).msgs = m :: rest) (hm : byteAt m 0 = ty) :
    keTake c ty f t = f m (updCry c (fun x => { x with msgs := rest }) t) := by
  simp only [keTake, h, hm, if_true]

theorem keResend_due {c : Line} {t : State} {x : Exch} {k : Nat} (hx : getExch t c = some x) (hi : x.init = true)
    (hs : x.stage = .waitAnswer ∨ x.stage = .waitDone) (hk : x.sentAt = some k)
    (hd : k + 500 * t.parN 0x9001 c.inst ≤ t.elapsed) (hn : x.sends < 4) :
    keResend c t = raise (lineEvt 0x90 c 3) (bump (cryCnt c 11) (gccSendKey c x.lastMsg
      (updExch c (fun x => { x with sends := x.sends + 1, resends := x.resends + 1, sentAt := none }) t))) := by
  have hw : (x.stage == .waitAnswer || x.stage == .waitDone) = true := by simpa using hs
  simp only [keResend, hx, hk, hi, hw, hd, hn, decide_true, Bool.and_self, if_true]

theorem keNoPeer_due {c : Line} {t : State} {x : Exch} (hx : getExch t c = some x) (hd : noPeerDue t x = true) :
    keNoPeer c t = finish x.owner (.st 0x1905) (keEnd c 0x1905 t) := by
  simp only [keNoPeer, hx, hd, if_true]

section Record
variable {o : FlashOp} {rest : List FlashOp} {t : State} (h : t.flash.ops = o :: rest) (hk : o.kind = .epochRecord)
include h hk

theorem epochRecordEnd_written {x : State} (hx : recWrite 0x2000 0x3000 (max o.aux t.cry.high) t = some x) :
    epochRecordEnd true t = finishOpt o.owner .ok (flashEnded 0 (raise 0x94 (epochWritten o.aux (o.aux2 == 1) x))) := by
  simp only [epochRecordEnd, h, hk, ne_eq, not_true_eq_false, if_true, if_false, hx]

theorem epochRecordEnd_failed {ok : Bool}
    (hn : ok = false ∨ recWrite 0x2000 0x3000 (max o.aux t.cry.high) t = none) :
    epochRecordEnd ok t = finishOpt o.owner (.st stEpochWriteFail)
      (failInstalls o.aux (raise 0x95 (flashEnded stEpochWriteFail t))) := by
  have hr : (if ok = true then recWrite 0x2000 0x3000 (max o.aux t.cry.high) t else none) = none := by
    rcases hn with rfl | hn
    · exact if_neg nofun
    · rw [hn, ite_self]
  simp only [epochRecordEnd, h, hk, ne_eq, not_true_eq_false, if_false, hr]

end Record

section PublicKey
variable {o : PkOp} {rest : List PkOp} {t : State} (h : t.cry.pk = o :: rest)
include h

theorem pkDone_idle {early : Bool} (ho : o.start = none) : pkDone early t = pkKick t := by
  simp only [pkDone, h, ho]

/-- An operation ends after its ticks, a verification that fails before them. -/
theorem pkDone_done {k : Nat} (ho : o.start = some k)
    (hd : k + pkTicks o.kind t ≤ t.elapsed ∨ o.kind = .verify ∧ k < t.elapsed) :
    pkDone true t = pkResult o (pkKick { t with cry := { t.cry with pk := rest } }) := by
  have hb : (decide (k + pkTicks o.kind t ≤ t.elapsed) || (true && o.kind == .verify && decide (k < t.elapsed))) = true := by
    rcases hd with hd | ⟨hk, hd⟩
    · rw [decide_eq_true hd, Bool.true_or]
    · rw [hk, decide_eq_true hd]
      exact Bool.or_true _
  simp only [pkDone, h, ho, hb, if_true]

end PublicKey

/-- Settles O42. -/
theorem keyEventsAct : Obligations.KeyEventsAct := by
  intro s t
  exact ⟨fun h => within_acts h rfl,
    fun c sa h hc hk hl => show execKeyUseLimit c sa s = _ from clocked_acts h
      ((if_pos hc).trans (if_pos (by rw [Option.isSome_iff_ne_none.2 hk, decide_eq_true hl]; rfl))),
    fun c sa h hr hf => clocked_acts h (if_pos (by rw [Option.isSome_iff_ne_none.2 hr, decide_eq_true hf]; rfl)),
    fun c sa h => clocked_acts h rfl,
    fun o rest x h ho hk hx => clocked_acts h (epochRecordEnd_written ho hk hx),
    fun o rest h ho hk => clocked_acts h (epochRecordEnd_failed ho hk (.inl rfl)),
    fun o rest k h ho hs hd => clocked_acts h (pkDone_done ho hs (.inl hd)),
    fun h => clocked_acts h rfl,
    fun h => clocked_acts h rfl,
    fun c m rest h hm hty => clocked_acts h (keTake_front hm hty),
    fun c m rest h hm hty => clocked_acts h (keTake_front hm hty),
    fun c m rest h hm hty => clocked_acts h (keTake_front hm hty),
    fun c m rest h hm hty => clocked_acts h (keTake_front hm hty),
    fun c m rest h hm hty => clocked_acts h (keTake_front hm hty),
    fun c x k h hx hi hs hk hd hn => clocked_acts h (keResend_due hx hi hs hk hd hn),
    fun c x h hx hd => clocked_acts h (keNoPeer_due hx hd),
    fun c h => clocked_acts h rfl,
    fun o rest h ho hk hx => clocked_acts h (epochRecordEnd_failed ho hk (.inr hx)),
    fun o rest h ho hs => clocked_acts h (pkDone_idle ho hs),
    fun o rest k h ho hs hk hd => clocked_acts h (pkDone_done ho hs (.inr ⟨hk, hd⟩))⟩

end Sys2Proof.Machine
end

section
/-! SUPPORT. Proofs about the rows of the Whisper sender and receiver (chapter 10). -/

namespace Sys2Proof.Machine

/-! ## Pilots and light -/

section Pilot
variable {c : Line} {t : State} (hr : whRuns t c = true)
include hr

theorem pilotLock_gained (hl : (getWh t c).light = true) (hk : (getWh t c).lock = false)
    (hn : (getWh t c).dem.lockNow = true) :
    pilotLock c true t = updWh c (fun x => { x with lock := true, wqf := none, wqfGood := 0 }) t := by
  simp [pilotLock, hr, hl, hk, hn]

theorem pilotLock_lost (hk : (getWh t c).lock = true) (hn : (getWh t c).dem.lockNow = false) :
    pilotLock c false t = if (getWh t c).rx.isSome then
        whAbandon c (bump (whCnt c 15) (updWh c (fun x => { x with lock := false, wqf := none, wqfGood := 0 }) t))
      else bump (whCnt c 15) (updWh c (fun x => { x with lock := false, wqf := none, wqfGood := 0 }) t) := by
  simp [pilotLock, hr, hk, hn]

theorem lightChange_comes (hl : (getWh t c).light = false) (hn : (getWh t c).dem.lightNow = true) :
    lightChange c true t = retune c.ix (updDem c (fun d => {
      sum := d.sum, num := d.num, lights := d.lights, lightNow := true, pos := d.pos, frac := d.frac })
      (if (getWh t c).lock then pilotLock c false (updDem c (fun d => { d with lockNow := false })
          (raise (lineEvt 0xA0 c 4) (updWh c (fun x => { x with light := true }) t)))
        else raise (lineEvt 0xA0 c 4) (updWh c (fun x => { x with light := true }) t))) := by
  simp [lightChange, hr, hl, hn]

theorem lightChange_goes {x : State} (hl : (getWh t c).light = true) (hn : (getWh t c).dem.lightNow = false)
    (hx : x = raise (lineEvt 0xA0 c 4) (updWh c (fun x => { x with light := false }) t)) :
    lightChange c false t = if (getWh x c).rx.isSome then whAbandon c x else x := by
  simp [lightChange, hr, hl, hn, hx]

/-- A preamble whose four tests are in is judged once. -/
theorem syncDetect_judges {diffs : List Nat} (hl : (getWh t c).light = true) (hk : (getWh t c).lock = true)
    (hx : (getWh t c).rx = none) (ht : (getWh t c).dem.tests = some diffs) :
    (∀ m, detectMode t c diffs = some m → syncDetect c diffs t = bump (whCnt c (5 + m)) (updWh c (fun x => { x with
      rx := some { mode := m }, frost := true,
      dem := { preamblePass (t.parI 0xA013 c.inst) (whRep m) x.dem with tests := none } }) t)) ∧
    (detectMode t c diffs = none → syncDetect c diffs t = updDem c (fun d => { d with tests := none }) t) := by
  have hc : (whRuns t c && (getWh t c).light && (getWh t c).lock && (getWh t c).rx.isNone &&
      (getWh t c).dem.tests == some diffs) = true := by simp [hr, hl, hk, hx, ht]
  refine ⟨fun m hm => ?_, fun hm => ?_⟩
  · simp only [syncDetect, hc, if_true, hm]
  · simp only [syncDetect, hc, if_true, hm]

end Pilot

/-! ## Received headers and frames -/

section Header
variable {c : Line} {t : State} {r : WRx} {raw : Nat} {b : Bytes} {w : Nat} (hr : (getWh t c).rx = some r)
  (hh : r.hdr = none) (hl : r.bits.length = 32) (hraw : bitsNum r.bits.reverse = raw) (hb : b = whScramble 0 (be 4 raw))
  (hw : w = unbe b)
include hr hh hl hraw hb hw

theorem whOnHeader_good (h1 : byteAt b 3 = crc8 (b.take 3)) (h2 : bits w 19 18 = r.mode) (h3 : w / 2 ^ 23 ≤ 256)
    (h4 : bits w 22 20 ≤ 2) (h5 : bits w 17 16 = 0) :
    whOnHeader c raw t = updWh c (fun x => { x with rx := some { r with
      bits := [], hdr := some { bytes := b, len := w / 2 ^ 23, chan := bits w 22 20, seq := bits w 15 8 } } }) t := by
  simp only [whOnHeader, hr, ← hb, ← hw, hh, hl, hraw, h1, h2, h5, Nat.not_lt.2 h3, Nat.not_lt.2 h4, Option.isSome_none, bne_self_eq_false,
    Bool.or_self, Bool.false_eq_true, ne_eq, not_true_eq_false, or_self, if_false]

theorem whOnHeader_bad (hbad : byteAt b 3 ≠ crc8 (b.take 3) ∨ bits w 19 18 ≠ r.mode ∨ 256 < w / 2 ^ 23 ∨
      2 < bits w 22 20 ∨ bits w 17 16 ≠ 0) : whOnHeader c raw t = whAbandon c t := by
  simp only [whOnHeader, hr, ← hb, ← hw, hh, hl, hraw, Option.isSome_none, bne_self_eq_false, Bool.or_self, Bool.false_eq_true,
    if_false, hbad, if_true]

end Header

section Frame
variable {c : Line} {t x : State} {r : WRx} {h : WHdr} {raw : Bytes} (hr : (getWh t c).rx = some r)
  (hh : r.hdr = some h) (hl : raw.length = h.len + 4) (hraw : packBits r.bits.reverse = raw)
include hr hh hl hraw

theorem whOnFrame_bad
    (hc : unbe ((whScramble 32 raw).drop h.len) ≠ crc32c (h.bytes ++ (whScramble 32 raw).take h.len)) :
    whOnFrame c raw t = raise (lineEvt 0xA0 c 1) (bump (whCnt c 10)
      (updWh c (fun x => { x with rx := none, frost := false }) t)) := by
  simp only [whOnFrame, hr, hh, hl, hraw, hc, ne_eq, not_true_eq_false, or_self, if_false, not_false_eq_true, if_true]

variable (hc : unbe ((whScramble 32 raw).drop h.len) = crc32c (h.bytes ++ (whScramble 32 raw).take h.len))
  (hx : x = bump (whCnt c (11 + h.chan)) (updWh c (fun y => { y with lastGood := t.tick })
    (updWh c (fun y => { y with rx := none, frost := false }) t)))
include hc hx

/-- A good frame of a channel other than the host's goes to the domain. -/
theorem whOnFrame_domain (h0 : h.chan ≠ 0) :
    whOnFrame c raw t = { x with
      dm := { x.dm with inbox := x.dm.inbox ++ [(2 + c.ix, (whScramble 32 raw).take h.len)] } } := by
  simp only [whOnFrame, hr, hh, hl, hraw, hc, h0, ne_eq, not_true_eq_false, or_self, if_false, hx, updWh_tick]

theorem whOnFrame_host (h0 : h.chan = 0) :
    whOnFrame c raw t = if 16 ≤ (getWh (updWh c (fun y => { y with lastGoodSeq := h.seq }) x) c).queue.length then
        bump (whCnt c 14) (updWh c (fun y => { y with lastGoodSeq := h.seq }) x)
      else raise (lineEvt 0xA0 c 0) (updWh c (fun y => { y with
        queue := y.queue ++ [{
          mode := r.mode, seq := h.seq, tick := x.tick, wqf := y.wqf, payload := (whScramble 32 raw).take h.len }] })
        (updWh c (fun y => { y with lastGoodSeq := h.seq }) x)) := by
  simp only [whOnFrame, hr, hh, hl, hraw, hc, h0, ne_eq, not_true_eq_false, or_self, if_false, if_true, hx, updWh_tick]

end Frame

/-! ## Sent frames and banks -/

theorem bankSwap_due {n : Nat} {wait : Bool} {t : State} (hs : (getChain t n).swap = some wait) (ht : t.tick % 4 = 0)
    (hw : wait = true → (getWh t (chainLine n)).rx = none) :
    bankSwap n t = raise (lineEvt 0xA0 (chainLine n) 7)
      (unsettle n 35 (updChain n (fun x => { x with swap := none, bank := 1 - x.bank }) t)) := by
  have hb : (wait && (getWh t (chainLine n)).rx.isSome) = false := by
    cases wait with
    | false => rfl
    | true => rw [hw rfl]; rfl
  simp only [bankSwap, hs, ht, hb, decide_true, Bool.not_false, Bool.and_self, if_true]

theorem whSent_ends {c : Line} {t : State} {x : WCur} (hx : (getWh t c).cur = some x)
    (he : x.start + 8 * x.span ≤ t.elapsed) :
    whSent c t = raiseIf (x.f.chan == 0) (lineEvt 0xA0 c 2) (bump (whCnt c x.f.chan) (updWh c (fun y => { y with
      cur := none, lastEnd := some t.elapsed, lastSent := t.tick, lastSentSeq := x.f.seq }) t)) := by
  simp only [whSent, hx, he, if_true]

/-- A frame starts at a boundary after the rest, with the mode and depth that were waiting. -/
theorem whStart_starts {c : Line} {t x y : State} {f : WFrame} (hb : whBoundary t = true) (hs : whSends t c = true)
    (hc : (getWh t c).cur = none) (hrest : ∀ k, (getWh t c).lastEnd = some k → k + 8 ≤ t.elapsed)
    (hf : whNext t c = some f)
    (hx : (getWh t c).pendMode = none ∧ x = t ∨ ∃ m, (getWh t c).pendMode = some m ∧ x = t.setPar 0xA001 c.inst (le 4 m))
    (hy : (getWh t c).pendDepth = none ∧ y = x ∨ ∃ d, (getWh t c).pendDepth = some d ∧ y = x.setPar 0xA002 c.inst (le 4 d)) :
    whStart c t = updWh c (fun x => { x with
      pendMode := none, pendDepth := none, dev := x.dev.erase f, host := x.host.erase f,
      cur := some {
        f := f, mode := f.mode.getD (y.parN 0xA001 c.inst), tick := y.tick, start := y.elapsed,
        span := whSpan f.payload.length (f.mode.getD (y.parN 0xA001 c.inst)) } }) y := by
  unfold whStart
  simp only [hb, hs, hc, hf, Option.isNone_none, Bool.and_self, Bool.true_and]
  rw [if_pos]
  · obtain ⟨hm, rfl⟩ | ⟨m, hm, rfl⟩ := hx <;> obtain ⟨hd, rfl⟩ | ⟨d, hd, rfl⟩ := hy <;> simp only [hm, hd]
  · cases he : (getWh t c).lastEnd with
    | none => simp
    | some k => simpa using hrest k he

/-- Settles O43. -/
theorem whisperEventsAct : Obligations.WhisperEventsAct := by
  intro s t
  refine ⟨fun c h hr hl hk hn => clocked_acts h (pilotLock_gained hr hl hk hn),
    fun c h hr hk hn hx => clocked_acts h ((pilotLock_lost hr hk hn).trans (if_neg (by simp [hx]))),
    fun c h hr hl hn hk => clocked_acts h ((lightChange_comes hr hl hn).trans (by rw [hk, if_neg nofun])),
    fun c diffs m h hr hl hk hx ht hm => clocked_acts h ((syncDetect_judges hr hl hk hx ht).1 m hm),
    fun c raw r b w h hr hh hl hraw hb hw h1 h2 h3 h4 h5 =>
      clocked_acts h (whOnHeader_good hr hh hl hraw hb hw h1 h2 h3 h4 h5),
    fun c raw r hd h hr hh hl hraw hc => clocked_acts h (whOnFrame_bad hr hh hl hraw hc),
    fun c raw r hd x h hr hh hl hraw hc h0 hx => clocked_acts h (whOnFrame_domain hr hh hl hraw hc hx h0),
    fun c raw r hd x h hr hh hl hraw hc h0 hx hq =>
      clocked_acts h ((whOnFrame_host hr hh hl hraw hc hx h0).trans (if_neg (Nat.not_le.2 hq))),
    fun n wait h hs ht hw => within_acts h (bankSwap_due hs ht hw),
    fun c f h hb hs hc hrest hf hm hd => within_acts h (whStart_starts hb hs hc hrest hf (.inl ⟨hm, rfl⟩) (.inl ⟨hd, rfl⟩)),
    fun c x h hx he => within_acts h (whSent_ends hx he),
    fun c h hr hk hn hx => clocked_acts h ((pilotLock_lost hr hk hn).trans (if_pos (Option.isSome_iff_ne_none.2 hx))),
    fun c x h hr hl hn hx hrx => clocked_acts h ((lightChange_goes hr hl hn hx).trans (if_neg (by simp [hrx]))),
    fun c x h hr hl hn hx hrx =>
      clocked_acts h ((lightChange_goes hr hl hn hx).trans (if_pos (Option.isSome_iff_ne_none.2 hrx))),
    fun c h hr hl hn hk => clocked_acts h ((lightChange_comes hr hl hn).trans (by rw [hk, if_pos rfl])),
    fun c diffs h hr hl hk hx ht hm => clocked_acts h ((syncDetect_judges hr hl hk hx ht).2 hm),
    fun c raw r b w h hr hh hl hraw hb hw hbad => clocked_acts h (whOnHeader_bad hr hh hl hraw hb hw hbad),
    fun c raw r hd x h hr hh hl hraw hc h0 hx hq => clocked_acts h ?_,
    fun c f x y h hb hs hc hrest hf hx hy => within_acts h (whStart_starts (x := x) hb hs hc hrest hf ?_ ?_)⟩
  · rw [hx] at hq ⊢
    exact (whOnFrame_host hr hh hl hraw hc rfl h0).trans (if_pos hq)
  · cases hm : (getWh t c).pendMode with
    | none => exact .inl ⟨rfl, by rw [hx, hm]⟩
    | some m => exact .inr ⟨m, rfl, by rw [hx, hm]⟩
  · cases hd : (getWh t c).pendDepth with
    | none => exact .inl ⟨rfl, by rw [hy, hd]⟩
    | some d => exact .inr ⟨d, rfl, by rw [hy, hd]⟩

end Sys2Proof.Machine
end

section
/-! SUPPORT. Proofs about domain messages received (chapter 11). -/

namespace Sys2Proof.Machine

section Take
variable {ty k : Nat} {f : Nat → DmIn → State → State} {b : Bytes} {rest : List (Nat × Bytes)} {t : State}
  (h : t.dm.inbox = (k, b) :: rest) (hty : byteAt b 0 = ty)
include h hty

/-- A message of the row's type and of this domain is handled; one over the Whisper channel keeps its path alive. -/
theorem dmTake_handles {m : DmIn} {x y : State} (hm : parseDm b = some m) (hmem : t.dm.member = true)
    (hd : m.domain = t.dm.domain) (hy : y = { t with dm := { t.dm with inbox := rest } })
    (hx : x = (if k = 2 ∨ k = 3 then
      updPath { y with dm := { y.dm with whAt := y.dm.whAt.set (k - 2) (some t.elapsed) } } k else y)) :
    dmTake ty f t = f k m (bump (837 + k) x) := by
  subst hy hx
  simp only [dmTake, h, hty, hm, hmem, hd, ne_eq, not_true_eq_false, if_false, updDm, Bool.not_true, bne_self_eq_false,
    Bool.or_self, Bool.false_eq_true]

theorem dmTake_discards (hm : ∀ m, parseDm b = some m → t.dm.member = false ∨ m.domain ≠ t.dm.domain) :
    dmTake ty f t = dmDiscard { t with dm := { t.dm with inbox := rest } } := by
  cases hp : parseDm b with
  | none => simp only [dmTake, h, hty, hp, ne_eq, not_true_eq_false, if_false, updDm]
  | some m =>
    have hbad : (!t.dm.member || m.domain != t.dm.domain) = true := by simpa using hm m hp
    simp only [dmTake, h, hty, hp, ne_eq, not_true_eq_false, if_false, updDm, hbad, if_true]

end Take

/-- Settles O44. -/
theorem domainMessagesAct : Obligations.DomainMessagesAct := by
  intro s t
  exact ⟨fun k b rest m x y h hi hm hmem hd hy hx hty => clocked_acts h (dmTake_handles hi hty hm hmem hd hy hx),
    fun k b rest m x y h hi hm hmem hd hy hx hty => clocked_acts h (dmTake_handles hi hty hm hmem hd hy hx),
    fun k b rest m x y h hi hm hmem hd hy hx hty => clocked_acts h (dmTake_handles hi hty hm hmem hd hy hx),
    fun k b rest m x y h hi hm hmem hd hy hx hty => clocked_acts h (dmTake_handles hi hty hm hmem hd hy hx),
    fun k b rest m x y h hi hm hmem hd hy hx hty => clocked_acts h (dmTake_handles hi hty hm hmem hd hy hx),
    fun k b rest m x y h hi hm hmem hd hy hx hty => clocked_acts h (dmTake_handles hi hty hm hmem hd hy hx),
    fun k b rest m x y h hi hm hmem hd hy hx hty => clocked_acts h (dmTake_handles hi hty hm hmem hd hy hx),
    fun k b rest h hi hty hm => clocked_acts h (dmTake_discards hi hty hm),
    fun k b rest h hi hty hm => clocked_acts h (dmTake_discards hi hty hm),
    fun k b rest h hi hty hm => clocked_acts h (dmTake_discards hi hty hm),
    fun k b rest h hi hty hm => clocked_acts h (dmTake_discards hi hty hm),
    fun k b rest h hi hty hm => clocked_acts h (dmTake_discards hi hty hm),
    fun k b rest h hi hty hm => clocked_acts h (dmTake_discards hi hty hm),
    fun k b rest h hi hty hm => clocked_acts h (dmTake_discards hi hty hm)⟩

end Sys2Proof.Machine
end

section
/-! SUPPORT. Proofs about the domain's timers and the mate link's frames, timers and roles (chapter 11). -/

namespace Sys2Proof.Machine

/-! ## Paths, documents and calls -/

theorem updPath_changes {t x : State} {p : Nat} (h : pathUp t p ≠ pathNow t p)
    (hx : x = raise 0xB8 { t with dm := { t.dm with up := t.dm.up.set p (pathNow t p) } }) :
    updPath t p = if nbrUp x (nbrOf p) then x else updNbr (nbrOf p) (fun n => { n with
      skewSince := none, skewed := false, epoch := 0, epochSince := none, epochSkew := false }) x := by
  simp only [updPath, h, if_false, updDm, ← hx]

section DomainRecord
variable {o : FlashOp} {rest : List FlashOp} {t : State} (h : t.flash.ops = o :: rest) (hk : o.kind = .domainRecord)
include h hk

theorem domRecordEnd_written {x : State} (hx : domWrite t.dm.domain o.aux t = some x) :
    domRecordEnd true t = flashEnded 0 (updDm (fun d => { d with
      recDomain := d.domain, recVersion := o.aux,
      adopt := d.adopt.map fun a => { a with due := some (x.elapsed + 8) } }) x) := by
  simp only [domRecordEnd, h, hk, ne_eq, not_true_eq_false, if_true, if_false, hx]

theorem domRecordEnd_failed : domRecordEnd false t = finishOpt ((t.dm.adopt.map (·.owner)).getD none) (.st 0x1B06)
    (raise 0xBF (flashEnded 0x1B06 (updDm (fun d => { d with adopt := none }) t))) := by
  simp only [domRecordEnd, h, hk, ne_eq, not_true_eq_false, if_false, Bool.false_eq_true]

end DomainRecord

theorem missingReq_due {t : State} {f : Fetch} (hf : t.dm.fetch = some f) (ha : f.again < 3)
    (h1 : f.started + (f.again + 1) * (fetchTicks t / 4 / 4) ≤ t.elapsed)
    (h2 : t.elapsed ≤ f.started + fetchTicks t / 4) :
    missingReq t = (missingOffs f).foldl (fun s o => cfgReq f o s)
      { t with dm := { t.dm with fetch := some { f with again := f.again + 1 } } } := by
  simp only [missingReq, hf, ha, h1, h2, decide_true, Bool.and_self, if_true, updDm]

section Fetch
variable {t x : State} {f : Fetch} (hf : t.dm.fetch = some f) (hd : f.started + fetchTicks t ≤ t.elapsed)
  (hx : x = bump 855 { t with dm := { t.dm with fetch := none } })
include hf hd hx

theorem fetchTimeout_gives_up (hn : [(nbrOf f.path + 1) % 3, (nbrOf f.path + 2) % 3].find? (fun i =>
      x.cfgVersion < (getNbr x i).version) = none) : fetchTimeout t = x := by
  simp only [fetchTimeout, hf, hd, if_true, updDm, ← hx, hn]

theorem fetchTimeout_next {i : Nat} (hn : [(nbrOf f.path + 1) % 3, (nbrOf f.path + 2) % 3].find? (fun i =>
      x.cfgVersion < (getNbr x i).version) = some i) :
    fetchTimeout t = startFetch (pathTo x i) (getNbr x i).version x := by
  simp only [fetchTimeout, hf, hd, if_true, updDm, ← hx, hn]

end Fetch

theorem cfgSkew_due {i k : Nat} {t : State} (hk : (getNbr t i).skewSince = some k) (hs : (getNbr t i).skewed = false)
    (hv : (getNbr t i).version ≠ t.cfgVersion) (hd : 30 * tps ≤ t.elapsed - k) :
    cfgSkew i t = raise 0xB2 (updNbr i (fun n => { n with skewed := true }) t) := by
  have hb : (!(getNbr t i).skewed && (getNbr t i).version != t.cfgVersion && decide (30 * tps ≤ t.elapsed - k)) = true := by
    simp [hs, hv, hd]
  simp only [cfgSkew, hk, hb, if_true]

theorem epochGrace_due {i k : Nat} {t x : State} (hx : x = epochCheck i t) (hk : (getNbr x i).epochSince = some k)
    (hs : (getNbr x i).epochSkew = false) (hd : k + x.parN 0xB003 0 * tps < x.elapsed) :
    epochGrace i t = raise 0xB4 (updNbr i (fun n => { n with epochSkew := true }) x) := by
  simp only [epochGrace, ← hx, hk, hs, hd, Bool.not_false, decide_true, Bool.and_self, if_true]

theorem whBeacon_due {c : Line} {t : State} (hm : t.dm.member = true)
    (hd : ∀ k, t.dm.whBeacon.getD c.ix none = some k → 5 * tps ≤ t.elapsed - k) (hp : pathSends t (2 + c.ix) = true) :
    whBeacon c t = dmSend 0x07 0xFFFF (identityBody t c) [2 + c.ix]
      { t with dm := { t.dm with whBeacon := t.dm.whBeacon.set c.ix (some t.elapsed) } } := by
  cases hk : t.dm.whBeacon.getD c.ix none with
  | none => simp only [whBeacon, hk, hm, hp, Bool.and_self, if_true, updDm]
  | some k => simp only [whBeacon, hk, hm, hp, hd k hk, decide_true, Bool.and_self, if_true, updDm]

theorem callWaitLimit_one {t : State} {b : Bind} (h : (t.dm.binds.filter fun b => b.limit ≤ t.tick) = [b]) :
    callWaitLimit t = decide_ 0x0B08 b.crc b.p (cplOf t 0x0B08 b.p 0x1B07 0 0) false
      { t with dm := { t.dm with binds := t.dm.binds.erase b } } := by
  rw [callWaitLimit, h]
  rfl

theorem cfgAdopt_due {t : State} {a : Adopt} {k : Nat} (ha : t.dm.adopt = some a) (hk : a.due = some k)
    (hd : k ≤ t.elapsed) :
    cfgAdopt t = finishOpt a.owner .ok (raise 0xB1 { t with
      cfgVersion := a.version, dm := { t.dm with adopt := none, doc := a.doc } }) := by
  simp only [cfgAdopt, ha, hk, hd, if_true]

/-! ## The mate link -/

theorem laneDown_quiet {n : Nat} {t : State} (hu : (t.mate.lanes.getD n {}).up = true)
    (hq : 5 ≤ (t.mate.lanes.getD n {}).quiet) :
    laneDown n t = updLink (bump (858 + n) { t with
      mate := { t.mate with lanes := lmod t.mate.lanes n fun l => { l with up := false } } }) := by
  simp only [laneDown, hu, hq, decide_true, Bool.and_self, if_true, updMate]

section MateFrame
variable {n : Nat} {f : Bytes} {lag : Int} {t : State}

theorem mateRx_bad (h : mateValid f = false) :
    mateRx n f lag t = bump 860 { t with
      mate := { t.mate with lanes := lmod t.mate.lanes n fun l => { l with good := 0 } } } :=
  if_neg (Bool.eq_false_iff.1 h)

theorem mateRx_good (h : mateValid f = true) :
    mateRx n f lag t = if t.mate.seen then
        updLink { t with mate := { t.mate with
          lanes := lmod t.mate.lanes n fun l => { l with
            good := min 3 (l.good + 1), quiet := 0, up := l.up || 2 ≤ l.good } } }
      else takeFrame f lag { t with mate := { t.mate with
        lanes := lmod t.mate.lanes n fun l => { l with
          good := min 3 (l.good + 1), quiet := 0, up := l.up || 2 ≤ l.good } } } :=
  if_pos h

end MateFrame

theorem mateActivate_due {t x : State} {k i : Nat} (hk : t.mate.activateAt = some k) (hi : t.mate.idleAt = some i)
    (h1 : k ≤ t.elapsed) (h2 : i < t.elapsed) (ho : mateOn t = true)
    (hx : x = setRole true { t with mate := { t.mate with activateAt := none, want := none, idleAt := none } }) :
    mateActivate t = if (x.mate.switch.map (·.done)).getD false = true then
      updMate (fun m => { m with switch := none }) (answerSwitch .ok x) else x := by
  rw [hx]
  simp only [mateActivate, hk, hi, h1, h2, ho, decide_true, Bool.and_self, if_true]
  rfl

section SwitchTick
variable {t : State} {w : Switch} (hw : t.mate.switch = some w)
include hw

theorem switchTick_refused (hd : w.done = false) (hm : w.mine = true) (ha : w.acked = false) (ht : w.t ≤ t.tick + 8) :
    switchTick t = bump 862 (updMate (fun m => { m with switch := none }) (answerSwitch (.st 0x1B05) t)) := by
  simp only [switchTick, hw, hd, hm, ha, ht, Bool.false_eq_true, Bool.not_false, Bool.and_self, if_true, if_false]

/-- At its tick an agreed switch changes the roles; without a link it ends there. -/
theorem switchTick_switches {x y : State} (hd : w.done = false) (ha : w.mine = false ∨ w.acked = true) (ht : w.t ≤ t.tick)
    (hx : x = bump 861 { t with mate := { t.mate with switch := some { w with done := true } } })
    (hy : y = (if x.mate.active then setRole false x else if x.mate.link then wantActive x.elapsed x else x)) :
    switchTick t = if y.mate.link = true then y else { y with mate := { y.mate with switch := none } } := by
  have hb : (w.mine && !w.acked) = false := by rcases ha with h | h <;> simp [h]
  simp only [switchTick, hw, hd, hb, ht, Bool.false_eq_true, if_true, if_false, updMate, ← hx, ← hy]

theorem switchTick_over (hd : w.done = true) (hm : w.mine = false) (ha : t.mate.activateAt = none) :
    switchTick t = { t with mate := { t.mate with switch := none } } := by
  simp only [switchTick, hw, hd, hm, ha, Option.isSome_none, Bool.not_false, Bool.and_self, if_true, updMate]

end SwitchTick

theorem probeTimer_due {t : State} {k : Nat} (hk : t.mate.probeAt = some k) (ha : afterHoldoff t = true)
    (hd : k + probeWin t / 8 ≤ t.elapsed) :
    probeTimer t = sendProbe 5 { t with mate := { t.mate with probeAt := some t.elapsed } } := by
  simp only [probeTimer, hk, ha, hd, decide_true, Bool.and_self, if_true, updMate]

theorem leaseExpiry_due {t : State} (ha : afterHoldoff t = true) (hact : t.mate.active = true) (hs : seniorNow t = false)
    (hg : ∀ g, t.mate.grantTick = some g → g + lambda t ≤ t.tick) : leaseExpiry t = setRole false t := by
  cases hk : t.mate.grantTick with
  | none => simp only [leaseExpiry, hk, ha, hact, hs, Bool.not_false, Bool.and_self, if_true]
  | some g => simp only [leaseExpiry, hk, ha, hact, hs, hg g hk, Bool.not_false, decide_true, Bool.and_self, if_true]

theorem takeover_due {t : State} (ha : afterHoldoff t = true) (hact : t.mate.active = false) (hs : seniorNow t = true)
    (hh : inWindow t t.mate.heardAt = false) (hg : ∀ g, t.mate.grantTick = some g → g + lambda t + 1 ≤ t.tick) :
    takeover t = setRole true t := by
  cases hk : t.mate.grantTick with
  | none => simp only [takeover, hk, ha, hact, hs, hh, Bool.not_false, Bool.and_self, if_true]
  | some g => simp only [takeover, hk, ha, hact, hs, hh, hg g hk, Bool.not_false, decide_true, Bool.and_self, if_true]

/-- Settles O45. -/
theorem domainTimersAct : Obligations.DomainTimersAct := by
  intro s t
  exact ⟨fun p x h hp hx hn => show execPathTimeout p s = _ from clocked_acts h ((updPath_changes hp hx).trans (if_pos hn)),
    fun p x h hp hx hn => show execPathTimeout p s = _ from
      clocked_acts h ((updPath_changes hp hx).trans (if_neg (Bool.eq_false_iff.1 hn))),
    fun h => clocked_acts h rfl,
    fun o rest x h ho hk hx => clocked_acts h (domRecordEnd_written ho hk hx),
    fun f h hf ha h1 h2 => clocked_acts h (missingReq_due hf ha h1 h2),
    fun f x h hf hd hx hn => clocked_acts h (fetchTimeout_gives_up hf hd hx hn),
    fun f x i h hf hd hx hn => clocked_acts h (fetchTimeout_next hf hd hx hn),
    fun nb k h hk hs hv hd => clocked_acts h (cfgSkew_due hk hs hv hd),
    fun c k x h hx hk hs hd => clocked_acts h (epochGrace_due hx hk hs hd),
    fun c h hm hd hp => clocked_acts h (whBeacon_due hm hd hp),
    fun b h hb => within_acts h (callWaitLimit_one hb),
    fun a k h ha hk hd => within_acts h (cfgAdopt_due ha hk hd),
    fun lane h hu hq => clocked_acts h (laneDown_quiet hu hq),
    fun lane f lag h hv => clocked_acts h (mateRx_bad hv),
    fun lane f lag h hv hs => clocked_acts h ((mateRx_good hv).trans (if_neg (Bool.eq_false_iff.1 hs))),
    fun k i x h hk hi h1 h2 ho hx hn => within_acts h ((mateActivate_due hk hi h1 h2 ho hx).trans
      (if_neg (Bool.eq_false_iff.1 hn))),
    fun k i x h hk hi h1 h2 ho hx hn => within_acts h ((mateActivate_due hk hi h1 h2 ho hx).trans (if_pos hn)),
    fun w h hw hd hm ha ht => within_acts h (switchTick_refused hw hd hm ha ht),
    fun w x h hw hd ha ht hx hact hl => within_acts h
      ((switchTick_switches hw hd ha ht hx (if_pos hact).symm).trans (if_pos hl)),
    fun h hr hw => clocked_acts h (if_pos (by simp [hr, hw])),
    fun h ha hp => clocked_acts h (if_pos (by simp [ha, hp])),
    fun k h hk ha hd => clocked_acts h (probeTimer_due hk ha hd),
    fun h ha hact hs hg => within_acts h (leaseExpiry_due ha hact hs hg),
    fun h ha hact hs hh hg => within_acts h (takeover_due ha hact hs hh hg),
    fun h ha hh hp => clocked_acts h (if_pos (by simp [ha, hh, hp])),
    fun o rest h ho hk => clocked_acts h (domRecordEnd_failed ho hk),
    fun h => within_acts h rfl,
    fun lane f lag h hv hs => clocked_acts h ((mateRx_good hv).trans (if_pos hs)),
    fun w x y h hw hd ha ht hx hy hl => within_acts h ((switchTick_switches hw hd ha ht hx hy).trans (if_pos hl)),
    fun w x y h hw hd ha ht hx hy hl => within_acts h
      ((switchTick_switches hw hd ha ht hx hy).trans (if_neg (Bool.eq_false_iff.1 hl))),
    fun w h hw hd hm ha => within_acts h (switchTick_over hw hd hm ha)⟩

end Sys2Proof.Machine
end

section
/-! SUPPORT. Proofs about calibration: measurements, foreground ends, spares, stores and temperatures (chapter 13). -/

namespace Sys2Proof.Machine

/-! ## Measurements and foreground ends -/

/-- A measurement is taken from the last tick of its time on. -/
theorem measured_takes {v : Nat} {res : List SliceCal} {t : State} {r : CalRun}
    (hr : t.cal.runs.find? (fun r => bit r.meas v) = some r) (hd : r.start + measTicks v ≤ t.elapsed + 1) :
    measured v res t = pumpSubs v ((List.range 64).foldl (actOn v res) { t with
      cal := { t.cal with
        runs := t.cal.runs.map fun q => if q = r then { q with meas := setBit q.meas v false } else q } }) := by
  simp only [measured, hr, Nat.not_lt.2 hd, if_false, updCal]

section Foreground
variable {v : Nat} {res : List SliceCal} {t x : State} (hx : x = foreDone v res t)
include hx

theorem foregroundDone_only
    (hb : (bootDone x (convLine v) && bit ((x.pwr.move.map (·.want)).getD 0) (convLine v).ix) = false) :
    foregroundDone v res t = x := by
  simp only [foregroundDone, ← hx, hb, Bool.false_eq_true, if_false]

theorem foregroundDone_moves {y : State} {m : PwrMove}
    (hb : (bootDone x (convLine v) && bit ((x.pwr.move.map (·.want)).getD 0) (convLine v).ix) = true)
    (hy : y = carrierUp (convLine v) (bootEnd (convLine v) x)) (hm : y.pwr.move = some m) :
    foregroundDone v res t = if runMask y = m.want then moveDone m y else y := by
  simp only [foregroundDone, ← hx, hb, if_true, ← hy, hm]

end Foreground

/-! ## Spares -/

section Spare
variable {v : Nat} {res : SliceCal} {t x : State} {b : Subst} {k : Nat}

theorem spareCalDone_fits {w : List Int} (hc : (getConv t v).cur = some { sub := b, spare := k, fade := none })
    (hw : fitTrims res = some w) (hx : x = bump (convCnt v 2) t) :
    spareCalDone v res t = updConv v (fun y => { y with
      trims := y.trims.set k w, fore := y.fore.set k w,
      cur := some { sub := b, spare := k, fade := some (0, x.parN 0xC003 0) } }) x := by
  simp only [spareCalDone, hc, hw, hx]

theorem spareCalDone_fails {y : State} (hc : (getConv t v).cur = some { sub := b, spare := k, fade := none })
    (hw : fitTrims res = none) (hx : x = bump (convCnt v 2) t)
    (hy : y = markChanged v (sliceFailed v (updConv v (fun z => { z with
      out := setBit z.out k true, cur := none, subs := b :: z.subs }) x))) :
    spareCalDone v res t = pumpSubs v (if (getConv y v).spares.isEmpty then noSpare v y else y) := by
  simp only [spareCalDone, hc, hw, ← hx, ← hy]

theorem spareSwap_faded {j n : Nat} (hc : (getConv t v).cur = some { sub := b, spare := k, fade := some (j, n) })
    (hn : n ≤ j) :
    spareSwap v t = pumpSubs v (markChanged v (swapIn v b.pos k (updConv v (fun x => { x with cur := none }) t))) := by
  simp only [spareSwap, hc, hn, if_true]

end Spare

/-! ## The calibration store -/

/-- The run whose trims a write of the store keeps, if a run asked for it. -/
def storingRun (o : FlashOp) (t : State) : Option CalRun :=
  if o.aux = 0 then none else t.cal.runs.find? fun r => r.storing && r.no == o.aux

section Store
variable {o : FlashOp} {rest : List FlashOp} {t x : State} {r : CalRun} (h : t.flash.ops = o :: rest)
  (hk : o.kind = .calStore)
include h hk

theorem calStored_written (hr : storingRun o t = none) (hx : calWrite o.data t = some x) :
    calStored true t =
      finishOpt o.owner .ok (raise 0xC7 (recovered .b (recovered .a (flashEnded 0 (bump 1008 x))))) := by
  unfold storingRun at hr
  simp only [calStored, h, hk, ne_eq, not_true_eq_false, if_true, if_false, hx, hr]

theorem calStored_run_written (hr : storingRun o t = some r) (hx : calWrite o.data t = some x) :
    calStored true t = endRun r (if r.noSpare then .st 0x1C02 else .ok)
      (finishOpt o.owner .ok (raise 0xC7 (recovered .b (recovered .a (flashEnded 0 (bump 1008 x)))))) := by
  unfold storingRun at hr
  simp only [calStored, h, hk, ne_eq, not_true_eq_false, if_true, if_false, hx, hr]

theorem calStored_failed (hr : storingRun o t = none) :
    calStored false t = finishOpt o.owner (.st 0x1C01) (flashEnded 0x1C01 (bump 1009 (calCut o.data t))) := by
  unfold storingRun at hr
  simp only [calStored, h, hk, ne_eq, not_true_eq_false, if_false, Bool.false_eq_true, hr]

theorem calStored_run_failed (hr : storingRun o t = some r) :
    calStored false t = endRun r (.st (if r.noSpare then 0x1C02 else 0x1C01))
      (finishOpt o.owner (.st 0x1C01) (flashEnded 0x1C01 (bump 1009 (calCut o.data t)))) := by
  unfold storingRun at hr
  simp only [calStored, h, hk, ne_eq, not_true_eq_false, if_false, Bool.false_eq_true, hr, apply_ite Reply.st]

end Store

/-! ## Temperatures -/

theorem tempRead_repeated {v : Nat} {a : Int} {t : State} (h : (getConv t v).readIn = some (t.tick / 500)) :
    tempRead v a t = t := if_pos h

section Temperature
variable {v : Nat} {a : Int} {t x : State} (hn : (getConv t v).readIn ≠ some (t.tick / 500))
  (hx : x = updConv v (fun y => { y with temp := some a, readIn := some (t.tick / 500) }) t)
include hn hx

theorem tempRead_off (ho : calSt x (convLine v) = .off) : tempRead v a t = x := by
  simp only [tempRead, hn, if_false, ← hx, ho, if_true]

theorem tempRead_first (ho : calSt x (convLine v) ≠ .off) (hu : (getConv x v).calTemp = none) : tempRead v a t = x := by
  simp only [tempRead, hn, if_false, ← hx, ho, hu, Nat.zero_le, if_true]

theorem tempRead_near {u : Int} (ho : calSt x (convLine v) ≠ .off) (hu : (getConv x v).calTemp = some u)
    (hd : (a - u).natAbs ≤ x.parN 0xC002 0) : tempRead v a t = x := by
  simp only [tempRead, hn, if_false, ← hx, ho, hu, hd, if_true]

theorem tempRead_drifts {u : Int} (hu : (getConv x v).calTemp = some u) (hd : x.parN 0xC002 0 < (a - u).natAbs)
    (hs : calSt x (convLine v) = .service) (hf : (getConv x v).drifted = false) :
    tempRead v a t = raise (lineEvt 0xC0 (convLine v) 5) (updConv v (fun y => { y with drifted := true }) x) := by
  simp only [tempRead, hn, if_false, ← hx, hu, Nat.not_le.2 hd, hs, hf, reduceCtorEq, Bool.false_eq_true]

end Temperature

/-- Settles O46. -/
theorem calibrationEventsAct : Obligations.CalibrationEventsAct := by
  intro s t
  exact ⟨fun cv res x h hx hb => clocked_acts h (foregroundDone_only hx hb),
    fun cv res r h hr hd => clocked_acts h (measured_takes hr (Nat.le_succ_of_le hd)),
    fun cv res w b k x h hc hw hx => clocked_acts h (spareCalDone_fits hc hw hx),
    fun cv b k j n h hc hn => clocked_acts h (spareSwap_faded hc hn),
    fun o rest x h ho hk ha hx => clocked_acts h (calStored_written ho hk (if_pos ha) hx),
    fun o rest h ho hk ha => clocked_acts h (calStored_failed ho hk (if_pos ha)),
    fun cv v x h hn hx ho hu => clocked_acts h (tempRead_first hn hx ho hu),
    fun cv res m x y h hx hb hy hm => clocked_acts h (foregroundDone_moves hx hb hy hm),
    fun cv res r h hr hd => clocked_acts h (measured_takes hr (Nat.le_of_eq hd)),
    fun cv res b k x y h hc hw hx hy => clocked_acts h (spareCalDone_fails hc hw hx hy),
    fun o rest r x y h ho hk ha hr hx hy =>
      clocked_acts h (hy ▸ calStored_run_written ho hk ((if_neg ha).trans hr) hx),
    fun o rest x h ho hk hr hx => clocked_acts h (calStored_written ho hk (by rw [storingRun, hr, ite_self]) hx),
    fun o rest r h ho hk ha hr => clocked_acts h (calStored_run_failed ho hk ((if_neg ha).trans hr)),
    fun cv v x u h hn hx ho hu hd => clocked_acts h (tempRead_near hn hx ho hu hd),
    fun cv v x u h hn hx ho hu hd hs hf => clocked_acts h (tempRead_drifts hn hx hu hd hs hf),
    fun cv v x h hn hx ho => clocked_acts h (tempRead_off hn hx ho),
    fun cv v h hr => clocked_acts h (tempRead_repeated hr)⟩

end Sys2Proof.Machine
end

section
/-! SUPPORT. Proofs about the rows of engines, DMA chains and the Store (chapters 14 and 15). -/

namespace Sys2Proof.Machine

/-! ## Engines and pages -/

theorem pageTimeout_one {t : State} {r : PageReq}
    (h : (t.stw.reqs.filter fun r => r.wait && 750000 ≤ t.elapsed - r.at_) = [r]) :
    pageTimeout t = finish r.owner (.st stNoResource) (bump 1665 (dropReq r t)) := by
  rw [pageTimeout, h]
  rfl

theorem runBudget_overruns {e : Fin 256} {s t : State} {r r2 : Run} {n : Nat} {w : EWord} (h : Running s t)
    (hr : (getEng t e.val).run = some r) (he : r.ended = none) (hw : nextWord t e.val = some (r2, n, w))
    (hc : 5800 < issueAt w r + costOf w) : exec (.runBudgetExpiry e) s = .next (settle (overrun e.val r t)) := by
  show execRunBudgetExpiry e s = _
  unfold execRunBudgetExpiry
  exact clocked_acts h (by simp only [hr, he, hw, hc, Option.isSome_none, Bool.false_eq_true, if_true, if_false])

/-- The contents of a page and what was kept about its errors are gone. -/
def pageCleared (g : Nat) (t : State) : State :=
  setPg g {} { t with
    str := { t.str with
      mem := t.str.mem.filter (fun b => b.1 / 4096 != g), errs := SMap.del g t.str.errs,
      inject := SMap.del g t.str.inject } }

theorem zeroiseDone_ends {g : Nat} {t : State} (hz : (getPg t g).zero ≠ none) :
    zeroiseDone g t = if (getPg t g).marked = true then (startFallow none [g] (pageCleared g t)).2 else pageCleared g t :=
  if_pos (Option.isSome_iff_ne_none.2 hz)

theorem quarTest_fit {g a b : Nat} {t : State} (hq : (getPg t g).quar ≠ none) (hp : t.parN 0xE003 0 = 1)
    (ha : a ≤ pageT t g) (ha' : a < t.parN 0xE001 0) (hb : b ≤ pageT t g) (hb' : b < t.parN 0xE001 0) :
    quarTest g a b t = raise 0xEC (bump 1739 (setPg g { zero := some t.elapsed } t)) := by
  have hn : ((getPg t g).quar.isNone || t.parN 0xE003 0 != 1) = false := by
    rw [Option.isNone_eq_false_iff.2 (Option.isSome_iff_ne_none.2 hq), hp]; rfl
  simp only [quarTest, hn, ha, ha', hb, hb', decide_true, Bool.and_self, Bool.false_eq_true, if_true, if_false]

theorem quarTest_unfit {g a b : Nat} {t : State} (hq : (getPg t g).quar ≠ none) (hp : t.parN 0xE003 0 = 1)
    (hbad : pageT t g < a ∨ t.parN 0xE001 0 ≤ a ∨ pageT t g < b ∨ t.parN 0xE001 0 ≤ b) :
    quarTest g a b t = (startFallow none [g] (bump 1740 t)).2 := by
  have hn : ((getPg t g).quar.isNone || t.parN 0xE003 0 != 1) = false := by
    rw [Option.isNone_eq_false_iff.2 (Option.isSome_iff_ne_none.2 hq), hp]; rfl
  have hb : (decide (a ≤ pageT t g) && decide (a < t.parN 0xE001 0) &&
      (decide (b ≤ pageT t g) && decide (b < t.parN 0xE001 0))) = false := by
    simp only [Bool.and_eq_false_iff, decide_eq_false_iff_not]
    omega
  simp only [quarTest, hn, hb, Bool.false_eq_true, if_false]

theorem periodicScrub_due {t : State} (hp : t.parN 0xE002 0 ≠ 0) (hn : t.str.periodic = none)
    (hd : t.str.lastScrub + t.parN 0xE002 0 * 500000 ≤ t.elapsed) :
    periodicScrub t = { t with
      str := { t.str with
        lastScrub := t.elapsed, periodic := some { owner := none, first := 0, count := 32768, began := t.tick } } } :=
  if_pos (by
    simp only [Bool.and_eq_true, bne_iff_ne, Option.isNone_iff_eq_none, decide_eq_true_eq]
    exact ⟨⟨Nat.mul_ne_zero hp (by decide), hn⟩, hd⟩)

/-! ## Records -/

section FallowRecord
variable {o : FlashOp} {rest : List FlashOp} {t : State} (h : t.flash.ops = o :: rest) (hk : o.kind = .fallowRecord)
include h hk

theorem fallowWritten_done {x : State} (hx : fallowWrite (t.str.fallowList ++ (chunks 2 o.data).map unle) t = some x) :
    fallowWritten true t = finishOpt o.owner .ok (((chunks 2 o.data).map unle).foldl fallowed (flashEnded 0 x)) := by
  simp only [fallowWritten, h, hk, ne_eq, not_true_eq_false, if_true, if_false, hx]

theorem fallowWritten_failed :
    fallowWritten false t = finishOpt o.owner (.st 0x1E06)
      (((chunks 2 o.data).map unle).foldl (fun s g => setPg g { retired := true } s) (flashEnded 0x1E06 t)) := by
  simp only [fallowWritten, h, hk, ne_eq, not_true_eq_false, if_false, Bool.false_eq_true]

end FallowRecord

theorem harvestWritten_placed {t x : State} (hw : t.obs.harvWriting = true) (hd : byteAt (t.par 0xF002 0) 0 ≠ 0)
    (hl : t.obs.harvLost = false) (hx : x = harvestPlace (t.par 0xF002 0) t.obs.harvRec t) :
    harvestWritten t = raise 0xF0 (bump 1920 { x with
      obs := { x.obs with
        harvWriting := false, harvRec := [],
        harvTail := (x.obs.harvTail + 1) % max 1 (fld (t.par 0xF002 0) 4 2) } }) := by
  have hb : (decide (byteAt (t.par 0xF002 0) 0 = 0) || t.obs.harvLost) = false := by simp [hd, hl]
  simp only [harvestWritten, hw, hb, Bool.not_true, Bool.false_eq_true, if_false, hx]

theorem harvestWritten_lost {t : State} (hw : t.obs.harvWriting = true)
    (hl : byteAt (t.par 0xF002 0) 0 = 0 ∨ t.obs.harvLost = true) :
    harvestWritten t = { t with obs := { t.obs with harvWriting := false, harvRec := [] } } :=
  (if_neg (by simp [hw])).trans (if_pos (by simpa using hl))

/-! ## DMA chains -/

/-- A chain that waits for its next descriptor. -/
structure ChainWaits (u : State) (n : Nat) : Prop where
  run : (getCh u n).run ≠ none
  cur : (getCh u n).cur = none
  abort : (getCh u n).abort = none

section Descriptor
variable {n : Nat} {data : Option Bytes} {u : State} (h : ChainWaits u n)
include h

theorem descriptor_unread : descriptor n none data u = chainError n stTimeout u := by
  obtain ⟨k, hk⟩ := Option.ne_none_iff_exists'.1 h.run
  simp only [descriptor, hk, h.cur, h.abort]

variable {b : Bytes}

theorem descriptor_bad (hb : 4096 ≤ (getCh u n).index ∨ descOk b = false) :
    descriptor n (some b) data u = chainError n stBadParam u := by
  obtain ⟨k, hk⟩ := Option.ne_none_iff_exists'.1 h.run
  have hc : (decide (4096 ≤ (getCh u n).index) || !descOk b) = true := by simpa using hb
  simp only [descriptor, hk, h.cur, h.abort, hc, if_true]

variable (hi : (getCh u n).index < 4096) (hok : descOk b = true)
include hi hok

/-- A descriptor may feed only a CRC unit that no other channel holds. -/
theorem descriptor_claimed {c : Nat} (hf : (descOf b).feed = true) (hc : (getCrc u (descOf b).crc).claim = some c)
    (hn : c ≠ n) : descriptor n (some b) data u = chainError n 0x1E05 u := by
  obtain ⟨k, hk⟩ := Option.ne_none_iff_exists'.1 h.run
  simp [descriptor, hk, h.cur, h.abort, Nat.not_le.2 hi, hok, hf, hc, hn]

/-- The state in which the ranges of a good descriptor are checked: with its CRC unit claimed. -/
theorem descriptor_checked {x : State}
    (hx : (descOf b).feed = false ∧ x = u ∨
      (descOf b).feed = true ∧ ((getCrc u (descOf b).crc).claim = none ∨ (getCrc u (descOf b).crc).claim = some n) ∧
        x = updCrc (descOf b).crc (fun c => { c with claim := some n }) u) :
    (descBad x ((getCh u n).tenant.getD 64) (descOf b) = none → descriptor n (some b) data u =
      updCh n (fun y => { y with
        cur := some { desc := descOf b, data := data.getD [] }, pages := descPages (descOf b) }) x) ∧
    (∀ a, descBad x ((getCh u n).tenant.getD 64) (descOf b) = some a → descriptor n (some b) data u =
      chainEnd n 0x1E02 (countFault ((getCh u n).tenant.getD 64)
        (raise 0xE9 (bump (chCnt n 2) (updCh n (fun y => { y with addr := a }) x))))) := by
  obtain ⟨k, hk⟩ := Option.ne_none_iff_exists'.1 h.run
  obtain ⟨hf, rfl⟩ | ⟨hf, hc, rfl⟩ := hx
  · refine ⟨fun hb => ?_, fun a hb => ?_⟩ <;>
      simp [descriptor, hk, h.cur, h.abort, Nat.not_le.2 hi, hok, hf, hb, transfer]
  · rcases hc with hc | hc
    all_goals refine ⟨fun hb => ?_, fun a hb => ?_⟩ <;>
      simp [descriptor, hk, h.cur, h.abort, Nat.not_le.2 hi, hok, hf, hc, hb, transfer]

end Descriptor

section DescriptorEnd
variable {n : Nat} {u x y : State} {z : DmaCur} (hz : (getCh u n).cur = some z)
  (hx : x = bump (chCnt n 1) (updCh n (fun y => { y with
    cur := none, pages := [], index := y.index + 1, next := z.desc.next }) u))
  (hy : y = (if z.desc.intr then signal (byteAt (x.par 0xE011 0) n % 64) x else x))
include hz hx hy

theorem descriptorEnd_aborted {st : Nat} (ha : (getCh u n).abort = some st) :
    descriptorEnd n u = chainAborted n st y := by
  simp only [descriptorEnd, hz, ← hx, ← hy, ha]

theorem descriptorEnd_next (ha : (getCh u n).abort = none) :
    descriptorEnd n u = if z.desc.next = 0 then chainEnd n 0 y else y := by
  simp only [descriptorEnd, hz, ← hx, ← hy, ha]

end DescriptorEnd

theorem descriptorEnd_idle {n : Nat} {u : State} (hz : (getCh u n).cur = none) : descriptorEnd n u = u := by
  simp only [descriptorEnd, hz]

/-- DMA_DESCRIPTOR counts reads that came late and then takes the descriptor. -/
theorem dmaDescriptor_acts {ch : Fin 16} {d : HostRead (Vector Byte 32)} {data : HostRead Bytes} {s t u v : State}
    (h : Running s t) (hu : u = lateRead data (lateRead d t))
    (hv : descriptor ch.val (d.value.map (·.toList)) data.value u = v) :
    exec (.dmaDescriptor ch d data) s = .next (settle v) := by
  show execDmaDescriptor ch d data s = _
  unfold execDmaDescriptor
  exact clocked_acts h (by rw [← hu, hv])

theorem descriptorComplete_acts {ch : Fin 16} {s t u v : State} (h : Running s t) (hu : u = moveRest ch.val t)
    (hv : descriptorEnd ch.val u = v) : exec (.descriptorComplete ch) s = .next (settle v) :=
  clocked_acts h (by rw [← hv, hu]; rfl)

/-- Settles O47. -/
theorem engineStoreEventsAct : Obligations.EngineStoreEventsAct := by
  intro s t
  refine ⟨fun r h hr => clocked_acts h (pageTimeout_one hr),
    fun e r r2 n w h hr he hw hc => runBudget_overruns h hr he hw hc,
    fun e pass h hd => show execEngineSelfTest e pass s = _ from clocked_acts h (if_pos hd),
    fun g h hz hm => clocked_acts h ((zeroiseDone_ends hz).trans (if_neg (Bool.eq_false_iff.1 hm))),
    fun ch l data u h hu h1 h2 h3 => dmaDescriptor_acts h hu (descriptor_unread ⟨h1, h2, h3⟩),
    fun ch d l data u h hu h1 h2 h3 hi hok hf hb =>
      dmaDescriptor_acts h hu ((descriptor_checked ⟨h1, h2, h3⟩ hi hok (.inl ⟨hf, rfl⟩)).1 hb),
    fun ch z u h hu hz hi ha hn => descriptorComplete_acts h hu ((descriptorEnd_next hz rfl rfl ha).trans ?_),
    fun h => clocked_acts h rfl,
    fun g a b h hq hp h1 h2 h3 h4 => clocked_acts h (quarTest_fit hq hp h1 h2 h3 h4),
    fun o rest x h ho hk hx => clocked_acts h (fallowWritten_done ho hk hx),
    fun o rest h ho hk => clocked_acts h (fallowWritten_failed ho hk),
    fun h hp hn hd => clocked_acts h (periodicScrub_due hp hn hd),
    fun x h hw hd hl hx => clocked_acts h (harvestWritten_placed hw hd hl hx),
    fun h => clocked_acts h rfl,
    fun g h hz hm => clocked_acts h ((zeroiseDone_ends hz).trans (if_pos hm)),
    fun ch d l data u h hu h1 h2 h3 hb => dmaDescriptor_acts h hu (descriptor_bad ⟨h1, h2, h3⟩ hb),
    fun ch d l data u n h hu h1 h2 h3 hi hok hf hc hn =>
      dmaDescriptor_acts h hu (descriptor_claimed ⟨h1, h2, h3⟩ hi hok hf hc hn),
    fun ch d l data u x h hu h1 h2 h3 hi hok hf hc hx hb =>
      dmaDescriptor_acts h hu ((descriptor_checked ⟨h1, h2, h3⟩ hi hok (.inr ⟨hf, hc, hx⟩)).1 hb),
    fun ch d l data u a h hu h1 h2 h3 hi hok hf hb =>
      dmaDescriptor_acts h hu ((descriptor_checked ⟨h1, h2, h3⟩ hi hok (.inl ⟨hf, rfl⟩)).2 a hb),
    fun ch z n u x y h hu hz ha hx hy => descriptorComplete_acts h hu (descriptorEnd_aborted hz hx hy ha),
    fun ch z u x y h hu hz ha hx hy => descriptorComplete_acts h hu (descriptorEnd_next hz hx hy ha),
    fun ch h hz => descriptorComplete_acts h rfl (descriptorEnd_idle hz),
    fun g a b h hq hp hbad => clocked_acts h (quarTest_unfit hq hp hbad),
    fun h hw hl => clocked_acts h (harvestWritten_lost hw hl)⟩
  rw [if_neg hn, hi, if_neg nofun]

end Sys2Proof.Machine
end
